-- ==== Sys2Proof/Word.lean ====
section
/-! DEFINITION. Words, bytes, unit numbers (R12) and the type of a sparse table. -/

namespace Sys2Proof

abbrev Byte := BitVec 8
abbrev W16 := BitVec 16
abbrev W32 := BitVec 32
abbrev W64 := BitVec 64
/-- One 128-byte line, byte 0 in the least significant bits (R4, R74). -/
abbrev LineData := BitVec 1024

/-- Unit numbers of R12. -/
abbrev DieId := Fin 2
abbrev CoreId := Fin 192
abbrev CgId := Fin 48
/-- Device-wide engine number: core × 8 + engine in core (R12). -/
abbrev EngId := Fin 1536
abbrev StackId := Fin 8
abbrev ChanId := Fin 128
abbrev PairId := Fin 64
abbrev TileId := Fin 4
abbrev PortId := Fin 24
/-- Function number: 0 is PF0 and n is VFn (R12). -/
abbrev FnId := Fin 64
/-- Virtual device number; VD n belongs to function n (R12). -/
abbrev VdId := Fin 64
/-- A rail of the package (R422). -/
abbrev RailId := Fin 11

/-- A sparse table keyed by number, held in strictly rising key order. -/
abbrev Map (α : Type) := List (Nat × α)

end Sys2Proof
end

