-- ==== Sys2Proof/Syntax.lean ====
section
/-! DEFINITION. The commands of the block: one constructor per row of the opcode table, with the row's operands. -/

namespace Sys2Proof

/-- Rounding modes of R52. -/
inductive RMode where
  | rne | rtz | sr
deriving DecidableEq, Repr

/-- The rounding a vector instruction selects (R66). -/
inductive VRound where
  | rne | rtz
deriving DecidableEq, Repr

/-- The six compares of R66. -/
inductive VCmp where
  | eq | ne | lt | le | gt | ge
deriving DecidableEq, Repr

/-- The instructions of the special-function unit (R69). -/
inductive Sfu where
  | rcp | rsqrt | sqrt | exp2 | log2 | sin | cos | tanh | sigm
deriving DecidableEq, Repr

/-- The formats of R34. -/
inductive Fmt where
  | e4m3 | e5m2 | mxE4m3 | mxE5m2 | mxE2m3 | mxE3m2 | mxE2m1 | bf16 | fp16 | fp32 | int8 | int4
  | vq2E4 | vq2E5 | vq3E4 | vq3E5 | e8m0 | int32 | ex96
deriving DecidableEq, Repr

/-- Overflow policies of R54. -/
inductive Ovf where
  | default | sat | ieee
deriving DecidableEq, Repr

/-- The formats VCVT converts between: R34 without the VQ formats, EX96 and E8M0 (R55). -/
inductive CvtFmt where
  | e4m3 | e5m2 | mxE4m3 | mxE5m2 | mxE2m3 | mxE3m2 | mxE2m1 | bf16 | fp16 | fp32 | int8 | int4 | int32
deriving DecidableEq, Repr

/-- Widths of an engine's scalar access, in bytes. -/
inductive AccSize where
  | b1 | b2 | b4 | b8
deriving DecidableEq, Repr

/-- A 32-bit word of the tagged part of a scratchpad, below the partial slots (R75, R93). -/
abbrev SpWord := Fin 688128

/-- A 128-byte line of device memory: 384 GiB hold this many (R149). -/
abbrev LineId := Fin 3221225472

/-- The errors of one ECC unit that R155 tells apart. -/
inductive EccErr where
  | clean | oneBit | onePinTwo | onePinMany | pinsTwo | pinsMany | pseudoChannel | address | cipher
deriving DecidableEq, Repr

/-- The fields of an invalidation slot that its KIND leaves to the writer, and the SEQ of its GO write (R189). -/
structure InvReq where
  ctx : W16 := 0
  va : W64 := 0
  npages : W64 := 0
  fence : W32 := 0xFFFFFFFF
  fenceValue : W64 := 0
  seq : W32 := 1
deriving DecidableEq, Repr

/-- A ring: a function's admin ring, or a command ring by its handle (R287, R288). -/
inductive RingId where
  | admin (f : FnId)
  | cmd (r : Fin 4096)
deriving DecidableEq, Repr

/-- What the loop processors choose in one planning: where the batch table and the logit rows stand, how many drafts
each sequence may use, and the sequences to park or restore, by admission count (R128, R130, R276, R303). -/
structure PlanChoice where
  table : W64 := 0
  logits : W64 := 0
  draftCaps : List (Nat × Fin 17) := []
  parks : List Nat := []
  restores : List Nat := []
deriving DecidableEq, Repr

/-- The fields of a CAPS message (R371). -/
structure Caps where
  verMin : Nat := 0x0100
  verMax : Nat := 0x0101
  devId : Nat := 0
  pool : Bool := false
  reach : Nat := 0
  lanes : Nat := 0
  fec : Nat := 1
  enc : Nat := 2
  parity : Nat := 1
  spare : Nat := 0
deriving DecidableEq, Repr

/-- A frame as it stands on the wire (R377), its payload decrypted: `rsvCtl` and `rsv` are the reserved bits of CTL and
bytes 13 to 15, `start` the SEQ of the block it began in. -/
structure WireFrame where
  type : Byte := 0
  vc : Fin 4 := 0
  ttl : Fin 16 := 0
  rsvCtl : Fin 4 := 0
  dst : W16 := 0
  src : W16 := 0
  tag : W32 := 0
  status : Byte := 0
  rsv : Fin 16777216 := 0
  addr : W64 := 0
  aux : W64 := 0
  payload : List Byte := []
  trailer : List Byte := []
  start : Fin 4096 := 0
deriving DecidableEq, Repr

/-- The readback of one laser line (R359). -/
structure LaserReading where
  power : W16 := 0
  bias : W16 := 0
  temp : W16 := 0
  ferr : W16 := 0
  lock : Bool := true
deriving DecidableEq, Repr

/-- The unit a multicast names at its targets: a scratchpad address, or the Facet ingress of a tile stream (R234). -/
inductive McDest where
  | scratch (addr : Fin 2752512)
  | facet (stream : W32)
deriving DecidableEq, Repr

/-- The masters that drive an urgency level (R226). -/
inductive UrgMaster where
  | port (p : PortId)
  | half (h : Fin 2)
  | lane (v : VdId) (l : Fin 16)
deriving DecidableEq, Repr

/-- Whose request ran into the transaction timeout (R216). -/
inductive TxnWho where
  | engine (e : EngId)
  | desc (d : W32)
  | line (l : LineId)
deriving DecidableEq, Repr

/-- A physical function that holds an SR-IOV capability: PF0, or the companion function C1 (R397). -/
inductive PhysFn where
  | pf0 | c1
deriving DecidableEq, Repr

/-- A function of the link: PF0, a VF by its number, or C1. -/
inductive LinkFn where
  | fn (f : FnId)
  | c1
deriving DecidableEq, Repr

/-- The rates of R394. -/
inductive LinkRate where
  | r2 | r5 | r8 | r16 | r32 | r64 | r128
deriving DecidableEq, Repr

/-- The widths of a half, and x16 for the one link. -/
inductive LinkWidth where
  | x1 | x2 | x4 | x8 | x16
deriving DecidableEq, Repr

/-- A configuration request for one 32-bit register by its number (R400, R401, R408). -/
inductive CfgOp where
  | read (dw : Fin 1024)
  | write (dw : Fin 1024) (v : W32)
deriving DecidableEq, Repr

/-- The BAR an AtomicOp names (R410). -/
inductive BarId where
  | bar0 | bar2 | bar4
deriving DecidableEq, Repr

/-- AtomicOps with their operands (R410). -/
inductive AtomicOp where
  | fetchAdd (v : W64)
  | swap (v : W64)
  | cas (cmp new : BitVec 128)
deriving DecidableEq, Repr

/-- Operand sizes of an AtomicOp, in bytes. -/
inductive AtomicSize where
  | a4 | a8 | a16
deriving DecidableEq, Repr

/-- How a completion answers a request of the device (R409). -/
inductive CplIn where
  | success | poisoned | unsupported | abort
deriving DecidableEq, Repr

/-- The agent of a device request on the host link (R409). -/
inductive HostAgent where
  | engine (e : EngId)
  | desc (d : W32)
  | ring (r : RingId)
deriving DecidableEq, Repr

/-- An operating point of a CG in steps of 12.5 MHz (R417): 32 is the floor, 104 nominal, 120 the highest boost. -/
abbrev OpStep := Fin 121

/-- What a power window reports and decides: each rail's mean output power in 0.1 W and mean current in A, the AVSBus mean
currents and the proxy sums of the four A and S rails in mA, the point DVFS gives the bulk CGs of each die, and its points for
single CGs (R426, R428, R431, R432, R439). -/
structure WindowReads where
  power : List Nat := []
  amps : List Nat := []
  avs : List Nat := []
  proxies : List Nat := []
  bulk : OpStep × OpStep := (32, 32)
  points : List (CgId × OpStep) := []
deriving DecidableEq, Repr

/-- A pass of the rail controller: the proxy sums of the four A and S rails in mA, and the issue duties it sets for the bulk
and the lane CGs of each die and, in the fixed mode, for single CGs (R423, R424). -/
structure RailTick where
  proxies : List Nat := []
  bulk : List (Fin 17) := [16, 16]
  lane : List (Fin 17) := [16, 16]
  points : List (CgId × Fin 17) := []
deriving DecidableEq, Repr

/-- A read of a thermal sensor in 0.1 °C; `far` says that it lies more than 25.0 °C from the median of its neighbours
(R438). -/
inductive SensorRead where
  | timeout
  | reading (t : Int) (far : Bool)
deriving DecidableEq, Repr

/-- The two rails of a die that throttling holds, or an AVSBus readback of rails 0 to 3: current in mA and voltage in mV. -/
structure AvsRead where
  ma : Nat := 0
  mv : Nat := 0
deriving DecidableEq, Repr

/-- Where an SPDM request arrives (R467, R468): DOE of a function, DOE of C1, or an MCTP endpoint. -/
inductive SpdmEnd where
  | fn (f : FnId)
  | c1
  | mctp (ep : Byte)
deriving DecidableEq, Repr

/-- What a GET_MEASUREMENTS asks for: one index, or every index. -/
inductive MeasAsk where
  | one (i : Byte)
  | all
deriving DecidableEq, Repr

/-- CHUNK_SEND and CHUNK_GET. -/
inductive SpdmChunk where
  | send (last : Bool) (bytes : List Byte)
  | get
deriving DecidableEq, Repr

/-- The pairs that a zero-fill ran over: those of a slice that is destroyed, or of a VD (R162). -/
inductive FillOf where
  | slice (k : Fin 128)
  | vd (v : VdId)
deriving DecidableEq, Repr

/-- Causes of an engine reset (R505). -/
inductive EngCause where
  | watchdog | budget | request | squash
deriving DecidableEq, Repr

/-- Causes of a core reset: an engine reset that did not complete, or a request through the reset objects (R505). -/
inductive CoreCause where
  | engineLate | request
deriving DecidableEq, Repr

/-- What BOOT_HBM_TRAINING finds on a stack: its serial, its temperature in °C, whether its record's CRC and the read check of a start
from it pass, at how many bins full training fails, the channel pairs that fail at bin 2, and the new pin data (R153, R497). -/
structure HbmRun where
  serial : W64 := 0
  temp : BitVec 16 := 25
  recOk : Bool := true
  fails : Fin 4 := 0
  bad : BitVec 8 := 0
  pins : List W32 := []
deriving DecidableEq, Repr

/-- How a half of the host link comes up: its H PLL fails, it has no partner, or it trains (R497). -/
inductive HalfRun where
  | pllFails | noPartner
  | trained (rate : LinkRate) (width : LinkWidth) (flit : Bool)
deriving DecidableEq, Repr

/-- How a laser-source module comes up: it fails, waits for LOCK, or has the lines named locked (R360). -/
inductive LaserRun where
  | failed | waiting
  | locked (lines : Fin 512)
deriving DecidableEq, Repr

/-- A reset input of R553. -/
inductive ResetPin where
  | devRst | perst0 | perst1
deriving DecidableEq, Repr

/-- Triggers of a warm reset that have no row of their own (R505). -/
inductive WarmCause where
  | request | watchdog | tableFault
deriving DecidableEq, Repr

/-- Triggers of a cold reset that have no row of their own (R505). -/
inductive ColdCause where
  | devRst | refLoss | trip
deriving DecidableEq, Repr

/-- Where a Dunir message comes from (R522, R523): a mailbox, a DOE, an MCTP endpoint with the message tag and a packet's bytes
of the Dunir message, or service firmware that acts for the Vendor. -/
inductive DSrc where
  | mailbox (f : FnId)
  | doe (f : FnId)
  | mctp (ep : Fin 256) (tag : Fin 8) (bytes : List Byte) (last : Bool)
  | vendor (bytes : List Byte)
deriving DecidableEq, Repr

/-- What a DOE data object carries (R413); `other` is an unlisted protocol, and `tooLong` an object above 65,536 DW. -/
inductive DoeKind where
  | discovery (idx : Fin 256)
  | spdm
  | secured
  | dunir (msg : List Byte)
  | other
  | tooLong
deriving DecidableEq, Repr



/-- One constructor per row of the opcode table. -/
inductive Instr where
  /-- VADD (R66): Vector FP32 add over 64 lanes, rounded by RNE or RTZ. -/
  | vadd (e : EngId) (r : VRound) (d a b : Nat)
  /-- VSUB (R66): Vector FP32 subtract over 64 lanes. -/
  | vsub (e : EngId) (r : VRound) (d a b : Nat)
  /-- VMUL (R66): Vector FP32 multiply over 64 lanes. -/
  | vmul (e : EngId) (r : VRound) (d a b : Nat)
  /-- VFMA (R66): Vector FP32 fused multiply-add with one rounding. -/
  | vfma (e : EngId) (r : VRound) (d a b c : Nat)
  /-- VMIN (R66): Vector minimum with the -0 and NaN ordering rules. -/
  | vmin (e : EngId) (d a b : Nat)
  /-- VMAX (R66): Vector maximum with the -0 and NaN ordering rules. -/
  | vmax (e : EngId) (d a b : Nat)
  /-- VCMP_EQ (R66): Compare for equality and produce a lane mask. -/
  | vcmpEq (e : EngId) (m a b : Nat)
  /-- VCMP_NE (R66): Compare for inequality and produce a lane mask; a NaN operand gives true. -/
  | vcmpNe (e : EngId) (m a b : Nat)
  /-- VCMP_LT (R66): Compare less-than and produce a lane mask. -/
  | vcmpLt (e : EngId) (m a b : Nat)
  /-- VCMP_LE (R66): Compare less-or-equal and produce a lane mask. -/
  | vcmpLe (e : EngId) (m a b : Nat)
  /-- VCMP_GT (R66): Compare greater-than and produce a lane mask. -/
  | vcmpGt (e : EngId) (m a b : Nat)
  /-- VCMP_GE (R66): Compare greater-or-equal and produce a lane mask. -/
  | vcmpGe (e : EngId) (m a b : Nat)
  /-- VSEL (R66): Per-lane select between two sources under a mask. -/
  | vsel (e : EngId) (d m a b : Nat)
  /-- VIADD (R66): 32-bit wrapping integer add. -/
  | viadd (e : EngId) (d a b : Nat)
  /-- VISUB (R66): 32-bit wrapping integer subtract. -/
  | visub (e : EngId) (d a b : Nat)
  /-- VIMUL (R66): 32-bit integer multiply that keeps the low 32 bits. -/
  | vimul (e : EngId) (d a b : Nat)
  /-- VAND (R66): 32-bit bitwise AND. -/
  | vand (e : EngId) (d a b : Nat)
  /-- VOR (R66): 32-bit bitwise OR. -/
  | vor (e : EngId) (d a b : Nat)
  /-- VXOR (R66): 32-bit bitwise XOR. -/
  | vxor (e : EngId) (d a b : Nat)
  /-- VSHL (R66): 32-bit shift left. -/
  | vshl (e : EngId) (d a b : Nat)
  /-- VSHRA (R66): 32-bit arithmetic shift right. -/
  | vshra (e : EngId) (d a b : Nat)
  /-- VSHRL (R66): 32-bit logical shift right. -/
  | vshrl (e : EngId) (d a b : Nat)
  /-- VGATHER (R67): Gather 32-bit elements from LOS offsets; bad lanes get 0 and set LOS_OOB. -/
  | vgather (e : EngId) (d o : Nat)
  /-- VSCATTER (R67): Scatter 32-bit elements to LOS offsets; the highest lane wins and bad lanes store nothing. -/
  | vscatter (e : EngId) (o a : Nat)
  /-- VCVT (R55): Convert between formats with a single rounding under the conversion parameters. -/
  | vcvt (e : EngId) (d sd a sa : Nat) (src dst : CvtFmt) (rm : RMode) (ov : Ovf) (seed : W64) (tensor : W32) (il ih : Nat)
  /-- VRED_SUM (R68): Sum the 64 lanes along the canonical tree. -/
  | vredSum (e : EngId) (d a : Nat)
  /-- VRED_MAX (R68): Maximum of the 64 lanes along the canonical tree. -/
  | vredMax (e : EngId) (d a : Nat)
  /-- VRED_MIN (R68): Minimum of the 64 lanes along the canonical tree. -/
  | vredMin (e : EngId) (d a : Nat)
  /-- VRCP (R69): Special-function reciprocal. -/
  | vrcp (e : EngId) (d a : Nat)
  /-- VRSQRT (R69): Special-function reciprocal square root. -/
  | vrsqrt (e : EngId) (d a : Nat)
  /-- VSQRT (R69): Correctly rounded square root. -/
  | vsqrt (e : EngId) (d a : Nat)
  /-- VEXP2 (R69): Special-function base-2 exponential. -/
  | vexp2 (e : EngId) (d a : Nat)
  /-- VLOG2 (R69): Special-function base-2 logarithm. -/
  | vlog2 (e : EngId) (d a : Nat)
  /-- VSIN (R69): Special-function sine. -/
  | vsin (e : EngId) (d a : Nat)
  /-- VCOS (R69): Special-function cosine. -/
  | vcos (e : EngId) (d a : Nat)
  /-- VTANH (R69): Special-function hyperbolic tangent. -/
  | vtanh (e : EngId) (d a : Nat)
  /-- VSIGM (R69): Special-function logistic sigmoid. -/
  | vsigm (e : EngId) (d a : Nat)
  /-- SCALAR_LOAD (R183): Engine scalar load, translated by the core walker and subject to tags. -/
  | scalarLoad (e : EngId) (d : Nat) (ctx : Fin 4096) (va : W64) (size : AccSize) (uncached : Bool)
  /-- SCALAR_STORE (R183): Engine scalar store, translated by the core walker and subject to tags. -/
  | scalarStore (e : EngId) (ctx : Fin 4096) (va : W64) (size : AccSize) (value : W64) (uncached : Bool)
  /-- SP_ATOMIC_ADD (R76): Indivisible 32-bit integer add on a scratchpad word. -/
  | spAtomicAdd (e : EngId) (w : SpWord) (v : W32)
  /-- SP_ATOMIC_AND (R76): Indivisible 32-bit AND on a scratchpad word. -/
  | spAtomicAnd (e : EngId) (w : SpWord) (v : W32)
  /-- SP_ATOMIC_OR (R76): Indivisible 32-bit OR on a scratchpad word. -/
  | spAtomicOr (e : EngId) (w : SpWord) (v : W32)
  /-- SP_ATOMIC_MAX (R76): Indivisible 32-bit MAX on a scratchpad word. -/
  | spAtomicMax (e : EngId) (w : SpWord) (v : W32)
  /-- SP_ATOMIC_MIN (R76): Indivisible 32-bit MIN on a scratchpad word. -/
  | spAtomicMin (e : EngId) (w : SpWord) (v : W32)
  /-- SP_ATOMIC_FADD (R76): Indivisible FP32 add on a scratchpad word in bank arrival order. -/
  | spAtomicFadd (e : EngId) (w : SpWord) (v : W32)
  /-- CBAR (R76): Core barrier that orders scratchpad writes between engines. -/
  | cbar (e : EngId)
  /-- SPFENCE (R76): Scratchpad fence that orders writes between engines. -/
  | spfence (e : EngId)
  /-- SWGEN_READ (R84): Engine reads the switch generation through its SWGEN special register. -/
  | swgenRead (e : EngId) (d : Nat)
  /-- WQ_SIGNAL (R314): Engine publishes a new work-queue tail with its signal instruction. -/
  | wqSignal (e : EngId) (w : Fin 4096) (tail : W32)
  /-- MULTICAST_ISSUE (R234): Sender issues a multicast packet to a target bitmap, removing targets outside its VD. -/
  | multicastIssue (e : EngId) (targets : BitVec 192) (dst : McDest) (payload : List Byte)
  /-- ENGINE_PULL (R87): The arbiter serves one engine pull of the oldest tile-queue entry into a private queue. -/
  | enginePull (c : CoreId) (wants : BitVec 8)
  /-- IDLE_CLAIM (R90): An idle engine claims work from the CSQ arbiter. -/
  | idleClaim (e : EngId)
  /-- CLAIM_RETRY_EXPIRY (R90): An idle engine claims again after 64 A-cycles. -/
  | claimRetryExpiry (e : EngId)
  /-- CHUNK_BOUNDARY (R92): An engine reaches the end of a 256-element chunk and reads K_END through the arbiter. -/
  | chunkBoundary (e : EngId)
  /-- TILE_COMPLETE (R89): An engine finishes a tile; the origin CSQ counts it towards launch completion. -/
  | tileComplete (e : EngId)
  /-- PARTIAL_COMBINE (R93): A victim at its K_END, once its thieves' slots are ready, combines partials in split order and converts once. -/
  | partialCombine (e : EngId)
  /-- XCORE_REQUEST (R95): A fully idle core asks the next eligible neighbour for tiles. -/
  | xcoreRequest (c : CoreId)
  /-- XCORE_REQUEST_RECEIVED (R96): A victim CSQ answers a cross-core request with a grant of n tiles or a deny. -/
  | xcoreRequestReceived (victim thief : CoreId)
  /-- XCORE_GRANT_RECEIVED (R96): A thief receives granted tiles into its tile queue. -/
  | xcoreGrantReceived (thief victim : CoreId)
  /-- XCORE_DENY_RECEIVED (R96): A thief receives a deny and tries the next neighbour. -/
  | xcoreDenyReceived (thief victim : CoreId)
  /-- XCORE_TIMEOUT (R96): A thief hearing nothing in 1,024 N-cycles counts the request as denied. -/
  | xcoreTimeout (c : CoreId)
  /-- XCORE_BACKOFF_EXPIRY (R96): After all neighbours denied, the thief asks again after 4,096 A-cycles. -/
  | xcoreBackoffExpiry (c : CoreId)
  /-- TILE_DONE (R96): The origin CSQ receives TILE_DONE for a stolen tile. -/
  | tileDone (origin : CoreId)
  /-- RESET_NOTICE (R97): An origin CSQ receives a thief core's reset notice and re-issues its unacknowledged tiles. -/
  | resetNotice (origin thief : CoreId)
  /-- CORE_SWITCH (R78): A CG changes virtual device: tiles finish, caches flush, state clears, tag loads, generation increments. -/
  | coreSwitch (g : CgId)
  /-- TAG_SWEEP_START (R85): Beryl starts a tag sweep when fewer than 256 tags are free. -/
  | tagSweepStart
  /-- TAG_SWEEP_COMPLETE (R85): A tag sweep ends, swept tags become free and waiting creations proceed. -/
  | tagSweepComplete
  /-- FACET_FRAME_DECODE (R100): The Facet decoder checks and decodes one LPW frame, raising at most one error kind. -/
  | facetFrameDecode (c : CoreId) (launch : W32) (node : Fin 4096) (frame : W32)
  /-- CORE_ENG_RESET (R110): A write to CORE_ENG_RESET requests a reset of each engine named. -/
  | coreEngReset (c : CoreId) (engs : BitVec 8)
  /-- GENERATE (R115): The loop processors consume and check a GENERATE request and queue it for admission or reject it. -/
  | generate (q : Fin 4096)
  /-- SCORE (R115): The loop processors consume and check a SCORE request and queue it for a micro-batch or reject it. -/
  | score (q : Fin 4096)
  /-- CANCEL (R124): The loop processors consume a CANCEL request and queue it for the next planning. -/
  | cancel (q : Fin 4096)
  /-- STEP_PLAN (R128): A service handles CANCELs, admits, plans, allocates pages, writes the batch table and launches MAIN_ROUTINE. -/
  | stepPlan (svc : W32) (c : PlanChoice)
  /-- STEP_LAUNCH_DONE (R127): The step's launch completes without error and sampling begins. -/
  | stepLaunchDone (svc : W32)
  /-- STEP_LAUNCH_FAILED (R127): The step's launch fails; page lists are restored and it is launched again, or its sequences fail on the second failure. -/
  | stepLaunchFailed (svc : W32)
  /-- SAMPLE_COMPLETE (R138): All rows are sampled; drafts are verified, stops detected and KV rolled back. -/
  | sampleComplete (svc : W32)
  /-- STEP_COMMIT (R127): Amber records are appended, then responses posted and meters counted, and the step reaches its boundary. -/
  | stepCommit (svc : W32)
  /-- MICRO_BATCH_LAUNCH (R146): A scoring service launches a micro-batch of up to SCORE_BATCH oldest waiting requests. -/
  | microBatchLaunch (svc : W32) (inputs outputs : W64)
  /-- SCORE_WINDOW_EXPIRY (R146): The oldest waiting SCORE request reaches SCORE_WINDOW_US and a micro-batch becomes ready. -/
  | scoreWindowExpiry (svc : W32)
  /-- SCORE_DEADLINE_EXPIRY (R147): A waiting SCORE request passes its deadline and is dropped or marked LATE. -/
  | scoreDeadlineExpiry (svc : W32) (q : Fin 4096) (req : W64)
  /-- PARK_GRANT (R387): A pool's GRANT gives HANDLE and ADDR for parking, or refuses. -/
  | parkGrant (p : PortId)
  /-- PARK_CLOSE_ACK (R276): A pool's CLOSE_ACK makes the record PARKED and frees the pages. -/
  | parkCloseAck (p : PortId)
  /-- PARK_RESTORE_RSP (R278): A pool's RESTORE_RSP restores the sequence or declares its state lost. -/
  | parkRestoreRsp (p : PortId)
  /-- PARK_XFER_PROPOSE (R277): A pool proposes a transfer; the device writes TRANSFERRING and directs the copy, or refuses. -/
  | parkXferPropose (p : PortId)
  /-- PARK_XFER_CONFIRM (R277): The new pool confirms; the record moves to it and the old pool is told to free. -/
  | parkXferConfirm (p : PortId)
  /-- PARK_CLAIM (R278): A pool claims ownership; the device answers from its record alone. -/
  | parkClaim (p : PortId)
  /-- HBM_READ (R156): A controller reads an ECC unit, corrects or poisons it and checks the MAC in SEALED. -/
  | hbmRead (line : LineId) (err : EccErr) (pc : Fin 2) (row : W32) (tc : Fin 8)
  /-- HBM_WRITE (R152): A controller writes an ECC unit, merging partial writes and recomputing metadata. -/
  | hbmWrite (line : LineId) (off : Fin 128) (data : List Byte) (poison : Bool) (tc : Fin 8)
  /-- ECC_CONVERSION_DONE (R157): A conversion finishes a channel, and a queued conversion may start. -/
  | eccConversionDone (c : ChanId)
  /-- PATROL_SCRUB_START (R161): A patrol pass begins on a stack at its period. -/
  | patrolScrubStart (n : StackId)
  /-- PATROL_LATE (R161): A patrol pass has not finished within its period and is reported late. -/
  | patrolLate (n : StackId)
  /-- ZERO_FILL_COMPLETE (R163): A zero-fill completes; pairs may bind, fenced on failure, and waiting teardown or posture change proceeds. -/
  | zeroFillComplete (f : FillOf) (failed : BitVec 64)
  /-- READ_SHARED (R170): A home handles a ReadShared request, NACKing, parking or serving it. -/
  | readShared (c : CoreId) (line : LineId)
  /-- READ_UNIQUE (R170): A home handles a ReadUnique request. -/
  | readUnique (c : CoreId) (line : LineId)
  /-- UPGRADE (R170): A home handles an Upgrade request from a holder in S or O. -/
  | upgrade (c : CoreId) (line : LineId)
  /-- WRITE_BACK (R170): A home records dirty data from an owner giving up the line and answers WBAck. -/
  | writeBack (c : CoreId) (line : LineId)
  /-- EVICT (R170): A home records that a clean holder dropped the line. -/
  | evict (c : CoreId) (line : LineId)
  /-- FWD_S (R170): An owner receives FwdS and, after any hold, sends Data(S). -/
  | fwdS (c : CoreId) (line : LineId) (crossed : Bool)
  /-- FWD_M (R170): An owner receives FwdM and, after any hold, sends Data(M) and drops to I. -/
  | fwdM (c : CoreId) (line : LineId) (crossed : Bool)
  /-- COH_INV (R169): A holder receives Inv and drops the line. -/
  | cohInv (c : CoreId) (line : LineId)
  /-- BINV (R164): A holder receives BInv for LLC eviction and returns dirty data with its acknowledgement. -/
  | binv (c : CoreId) (line : LineId)
  /-- INV_ACK (R170): A home receives InvAck from a holder. -/
  | invAck (c : CoreId) (line : LineId)
  /-- FWD_DONE (R170): A home receives FwdDone from an owner. -/
  | fwdDone (c : CoreId) (line : LineId)
  /-- SNOOP_MISS (R175): A home receives SnoopMiss and sends the data from a crossing WriteBack or the LLC. -/
  | snoopMiss (c : CoreId) (line : LineId)
  /-- COMP_ACK (R170): A home receives CompAck, closing the transaction and starting any parked request. -/
  | compAck (c : CoreId) (line : LineId)
  /-- DATA_RECEIVED (R173): A core receives Data(E), Data(S) or Data(M), starts any hold and sends CompAck. -/
  | dataReceived (c : CoreId) (line : LineId)
  /-- GRANT_M (R173): A core receives GrantM and starts its hold. -/
  | grantM (c : CoreId) (line : LineId)
  /-- COH_NACK (R171): A core receives a NACK and counts it towards escalation. -/
  | cohNack (c : CoreId) (line : LineId)
  /-- WB_ACK (R170): A core receives WBAck and frees a write-back buffer entry. -/
  | wbAck (c : CoreId) (line : LineId)
  /-- HOLD_EXPIRY (R173): A core's hold on a line ends and its waiting snoops are answered. -/
  | holdExpiry (c : CoreId) (line : LineId)
  /-- NACK_RETRY_EXPIRY (R171): A core retries a NACKed request after RETRY_GAP. -/
  | nackRetryExpiry (c : CoreId) (line : LineId)
  /-- FLUSH_DONE (R174): A home slice receives FlushDone and removes the core from the scope after open broadcasts close. -/
  | flushDone (c : CoreId) (d : DieId)
  /-- FAULT_RECORD_POST (R198): 128 N-cycles after a fault opens its record is posted to the fault ring, or waits for room. -/
  | faultRecordPost (id : W32)
  /-- XLT_RESUME_RETRY (R200): A resume with ACTION RETRY replays each waiter's access after a fresh walk. -/
  | xltResumeRetry (fn : FnId) (id : W32)
  /-- XLT_RESUME_ABORT (R200): A resume with ACTION ABORT fails each waiter's work with cause translation fault. -/
  | xltResumeAbort (fn : FnId) (id : W32)
  /-- FAULT_TIMEOUT (R201): An open fault without a resume for FAULT_TIMEOUT is ended as ABORT. -/
  | faultTimeout (id : W32)
  /-- INV_RANGE (R191): An invalidation slot of KIND 1 starts a range invalidation. -/
  | invRange (fn : FnId) (n : Fin 64) (r : InvReq)
  /-- INV_CONTEXT (R191): An invalidation slot of KIND 2 invalidates a whole context. -/
  | invContext (fn : FnId) (n : Fin 64) (r : InvReq)
  /-- INV_FUNCTION (R191): An invalidation slot of KIND 3 invalidates every context of the function. -/
  | invFunction (fn : FnId) (n : Fin 64) (r : InvReq)
  /-- INV_COMPLETE (R191): Stale descriptors have crossed a chunk boundary; the invalidation completes and its fence signals. -/
  | invComplete (id : W32)
  /-- INV_LIMIT_EXPIRY (R192): Step 4 overruns INV_LIMIT; the holding descriptors are squashed and the invalidation completes. -/
  | invLimitExpiry (id : W32)
  /-- DESCRIPTOR_CHUNK_BOUNDARY (R187): A bulk agent crosses a chunk boundary, retranslating if the epoch changed. -/
  | descriptorChunkBoundary (d : W32)
  /-- ATS_TRANSLATION_COMPLETION (R196): A Translation Completion arrives; refusals send a Page Request or raise HOST_REFUSED. -/
  | atsTranslationCompletion (fn : FnId) (page : W64) (ans : Option (W64 × Bool))
  /-- PAGE_REQUEST_RESPONSE (R196): A PRG response arrives; Success retries the translation, others fault. -/
  | pageRequestResponse (fn : FnId) (page : W64) (ok : Bool)
  /-- ATS_INVALIDATE_REQUEST (R195): An ATS Invalidate Request drops entries, runs a KIND 3 invalidation and returns a completion. -/
  | atsInvalidateRequest (fn : FnId) (addr size : W64) (tag : Nat)
  /-- MOVE_ENTRY_START (R204): A move-list entry is checked, marked MIG and invalidated. -/
  | moveEntryStart (m k : W32)
  /-- MOVE_ENTRY_FINISH (R204): A move entry's copy completes and the entry is swapped to the new DPA with its RESULT. -/
  | moveEntryFinish (m n : W32)
  /-- DLOG_SWAP (R209): A write of XLT_DLOG_CTL.SWAP switches logging to the other set. -/
  | dlogSwap (fn : FnId)
  /-- DLOG_SWAP_DONE (R209): Earlier writes have their bits set; SWAP_DONE sets and ACTIVE flips. -/
  | dlogSwapDone (fn : FnId)
  /-- URGENCY_CHANGE (R226): An arbiter receives an urgency level change on the URG channel. -/
  | urgencyChange (m : UrgMaster) (level : Fin 4)
  /-- WHEEL_ACTIVATE (R222): A shadow wheel takes effect at the next start of slot 0. -/
  | wheelActivate (w : Fin 32)
  /-- LINK_FRAME_ACTIVATE (R220): A new link frame takes effect at a router's next frame start. -/
  | linkFrameActivate (r : CoreId)
  /-- NET_TXN_TIMEOUT (R216): A request's 65,536 N-cycle transaction timeout expires and its work fails with cause network. -/
  | netTxnTimeout (w : TxnWho)
  /-- ROUTER_FAULT (R238): A faulty router is detected and Beryl halts injection on the die. -/
  | routerFault (r : CoreId)
  /-- ROUTER_DRAIN_DONE (R238): In-flight packets have drained; the router is isolated, its CG fenced and detour tables loaded. -/
  | routerDrainDone (r : CoreId)
  /-- RELAY_ARRIVAL (R232): A router or sink holds a Relay arrival and combines when every expected contribution has come. -/
  | relayArrival (r : CoreId) (g block seg : W16)
  /-- RELAY_WAIT_EXPIRY (R232): RELAY_WAIT passes since a segment's first arrival and held partials are combined and forwarded. -/
  | relayWaitExpiry (r : CoreId) (g block seg : W16)
  /-- MC_COPY_RECEIVE (R235): A target ingress accepts or refuses a multicast copy and sends ACK or NACK. -/
  | mcCopyReceive (m : W32) (t : CoreId) (room : Bool)
  /-- MC_ACK (R235): A sender records a target's acknowledgement and completes when all have acknowledged. -/
  | mcAck (m : W32) (t : CoreId)
  /-- MC_NACK (R235): A sender receives a NACK and requests the target's reserved entry. -/
  | mcNack (m : W32) (t : CoreId)
  /-- MC_GRANT (R235): A sender receives a reserved-entry grant and sends a unicast retry. -/
  | mcGrant (m : W32) (t : CoreId)
  /-- MC_RETRY_RECEIVE (R235): A target accepts a unicast retry, or discards it if its grant was cancelled. -/
  | mcRetryReceive (m : W32) (t : CoreId)
  /-- MC_TIMEOUT (R235): MC_TIMEOUT passes; the completion carries a delivery bitmap error. -/
  | mcTimeout (m : W32)
  /-- CREATE_SLICE (R244): Composition request that carves a slice from free units. -/
  | createSlice (src : DSrc)
  /-- DESTROY_SLICE (R245): Composition request that zero-fills a slice and returns it to the pool. -/
  | destroySlice (src : DSrc)
  /-- CREATE_VD (R246): Composition request that creates VD n with a tag, key set and posture. -/
  | createVd (src : DSrc)
  /-- DESTROY_VD (R247): Composition request that tears down VD n. -/
  | destroyVd (src : DSrc)
  /-- BIND (R253): Composition request that binds a slice to a VD and holds acceptance. -/
  | bindSlice (src : DSrc)
  /-- BIND_HOLD_REACHED (R254): The VD enters HELD; keys load, cores join, ways change and the bind is released. -/
  | bindHoldReached (v : VdId) (seedOk : Bool)
  /-- UNBIND (R255): Composition request that unbinds a slice, starting the memory or compute phase. -/
  | unbind (src : DSrc)
  /-- MOVE_DONE (R256): A write of CMP_VD_CTL.MOVE_DONE starts the compute phase. -/
  | moveDone (v : VdId) (vector : Fin 64) (en : Bool)
  /-- UNBIND_DEADLINE (R256): DEADLINE_MS passes without MOVE_DONE and the unbind ends with DEADLINE. -/
  | unbindDeadline (v : VdId)
  /-- UNBIND_HOLD_REACHED (R257): The compute phase reaches HELD and resident tasks on leaving CGs are stopped. -/
  | unbindHoldReached (v : VdId)
  /-- RESIDENT_WAIT_EXPIRY (R257): A resident task fails to wait within RESIDENT_WAIT and the unbind ends ABORTED. -/
  | residentWaitExpiry (v : VdId)
  /-- UNBIND_RELEASE (R257): Leaving CGs flush, homes write back, ways and keys unload and the unbind is released. -/
  | unbindRelease (v : VdId)
  /-- ABORT_UNBIND (R257): Composition request that ends an unbind before t2 with ABORTED. -/
  | abortUnbind (src : DSrc)
  /-- SET_LANE (R263): Composition request that forms or dissolves a Sprint lane. -/
  | setLane (src : DSrc)
  /-- SET_QP_LANE (R264): Composition request that binds a queue pair to a lane or to bulk. -/
  | setQpLane (src : DSrc)
  /-- SET_SHARE (R261): Composition request that gives a SHARED slice its time-sharing group. -/
  | setShare (src : DSrc)
  /-- CG_FAILURE (R258): A CG fails and is fenced; a spare takes over or running launches fail and retry. -/
  | cgFailure (g : CgId) (lost : List LineId)
  /-- QUANTUM_EXPIRY (R261): The holding VD's quantum ends and the switch waits for its next step boundary. -/
  | quantumExpiry (k : Fin 128)
  /-- METER_PERIOD_EXPIRY (R271): METER_PERIOD passes and each VD's meter window closes with a statement. -/
  | meterPeriodExpiry
  /-- LREAD (R384): A Lift LREAD entry is taken and waits for LEN/256 free read units. -/
  | lread (q : Fin 1536)
  /-- LIFT_UNITS_AVAILABLE (R274): Enough read units free and a waiting LREAD is issued as an RD_REQ. -/
  | liftUnitsAvailable (p : PortId)
  /-- LWRITE (R384): A Lift LWRITE entry is sent as WR_REQ frames in address order. -/
  | lwrite (q : Fin 1536)
  /-- LFLUSH (R384): A Lift LFLUSH waits for earlier writes' WR_ACKs then sends FLUSH. -/
  | lflush (q : Fin 1536)
  /-- LIFT_TIMEOUT (R274): A Lift frame gets no response within LIFT_TIMEOUT and completes with far memory timeout. -/
  | liftTimeout (p : PortId) (write : Bool) (tag : W32)
  /-- DOORBELL_WRITE (R284): A DB write sets TAIL and PEND after the overrun check and posts a wake if the endpoint is armed or idle. -/
  | doorbellWrite (f : FnId) (page off : Fin 4096) (v : W32)
  /-- RING_FETCH_COMPLETE (R289): A fetched entry returns, HEAD advances and the idle handshake decides whether to continue. -/
  | ringFetchComplete (r : RingId)
  /-- RING_AGING_PROMOTE (R293): A ring that had a packet ready for 4,096 S0 cycles is served at priority 3. -/
  | ringAgingPromote (r : RingId)
  /-- COMPLETION_POST (R295): A completion entry is written when ring space allows, before the fence and vector. -/
  | completionPost (r : RingId)
  /-- ADMIN_RING_ENABLE (R287): Setting GFE_ADMIN_CFG.EN makes the admin ring live. -/
  | adminRingEnable (f : FnId) (sq cq : Fin 16) (vector : Fin 2048)
  /-- ADMIN_RING_DISABLE (R287): Clearing GFE_ADMIN_CFG.EN destroys the admin ring. -/
  | adminRingDisable (f : FnId) (sq cq : Fin 16) (vector : Fin 2048)
  /-- NOP (R297): Work packet that only waits and signals. -/
  | nop (r : RingId)
  /-- LAUNCH_ROUTINE (R303): Launch packet that builds the constant buffer and starts a routine's nodes. -/
  | launchRoutine (r : RingId)
  /-- LAUNCH_KERNEL (R303): Launch packet that runs one program as a single PROGRAM node. -/
  | launchKernel (r : RingId)
  /-- TRANSFER (R300): Packet that runs a COPY, FILL or STRIDED transfer descriptor. -/
  | transfer (r : RingId)
  /-- PATCH (R310): Packet that writes bytes of a routine's current parameter page. -/
  | patch (r : RingId)
  /-- PHASE_HINT (R318): Packet that passes a phase hint to the power controller. -/
  | phaseHint (r : RingId)
  /-- MOVE_LIST (R204): Packet that runs a list of page-move entries. -/
  | moveList (r : RingId)
  /-- CREATE_CONTEXT (R327): Admin packet that creates a context and claims its fence range. -/
  | createContext (r : RingId)
  /-- DESTROY_CONTEXT (R339): Admin packet that starts a context's forced abort. -/
  | destroyContext (r : RingId)
  /-- CREATE_RING (R288): Admin packet that creates a command ring and its doorbell pages. -/
  | createRing (r : RingId)
  /-- DESTROY_RING (R321): Admin packet that destroys a ring, discarding unaccepted packets. -/
  | destroyRing (r : RingId)
  /-- REGISTER_ROUTINE (R308): Admin packet that copies and verifies a routine image. -/
  | registerRoutine (r : RingId)
  /-- NEW_GENERATION (R312): Admin packet that installs a new routine generation. -/
  | newGeneration (r : RingId)
  /-- RETIRE_ROUTINE (R312): Admin packet that frees a routine's current generation once its launches complete. -/
  | retireRoutine (r : RingId)
  /-- REGISTER_PROGRAM (R313): Admin packet that copies and checks a program image. -/
  | registerProgram (r : RingId)
  /-- RELEASE_PROGRAM (R321): Admin packet that releases a program not named by routines or tasks. -/
  | releaseProgram (r : RingId)
  /-- START_RESIDENT (R315): Admin packet that starts a resident task on a named engine. -/
  | startResident (r : RingId)
  /-- STOP_RESIDENT (R315): Admin packet that ends a resident task. -/
  | stopResident (r : RingId)
  /-- CREATE_WQ (R314): Admin packet that creates a work queue. -/
  | createWq (r : RingId)
  /-- DESTROY_WQ (R314): Admin packet that destroys a work queue. -/
  | destroyWq (r : RingId)
  /-- REGISTER_SERVICE (R112): Admin packet that checks and registers a service descriptor. -/
  | registerService (r : RingId)
  /-- DEREGISTER_SERVICE (R113): Admin packet that fails the service's requests and deregisters it at the next boundary. -/
  | deregisterService (r : RingId)
  /-- CREATE_QP (R265): Admin packet that creates a service queue pair. -/
  | createQp (r : RingId)
  /-- DESTROY_QP (R298): Admin packet that destroys a queue pair, erroring the fences of its requests. -/
  | destroyQp (r : RingId)
  /-- CREATE_LIFTQ (R273): Admin packet that creates a Lift queue on a port. -/
  | createLiftq (r : RingId)
  /-- DESTROY_LIFTQ (R298): Admin packet that destroys a Lift queue. -/
  | destroyLiftq (r : RingId)
  /-- SET_NUMERICS (R328): Admin packet that sets a context's numerics mode for later launches. -/
  | setNumerics (r : RingId)
  /-- MEMOBJ_CREATE (R330): Admin packet that creates a memory object or adds a mapping reference. -/
  | memobjCreate (r : RingId)
  /-- MEMOBJ_DROP (R331): Admin packet that ends a reference and releases the object at its last one. -/
  | memobjDrop (r : RingId)
  /-- RESIDENT_TASK_WAKE (R316): A tail arrives at a waiting resident task's CSQ and the task resumes. -/
  | residentTaskWake (t : W32)
  /-- SIGNAL_SLOT_SIGNAL (R337): A 64-bit write to a slot's SIGNAL signals the selected fence. -/
  | signalSlotSignal (f : FnId) (n : Fin 64) (v : W64)
  /-- SIGNAL_SLOT_ARM (R340): A 64-bit write to a slot's ARM arms the selected fence. -/
  | signalSlotArm (f : FnId) (n : Fin 64) (v : W64)
  /-- MIRROR_ENABLE (R336): Setting INT_FENCE_CFG.EN writes every mirror entry from device state. -/
  | mirrorEnable (f : FnId)
  /-- ABORT_DRAIN_END (R339): The forced abort's drain ends and the squash begins. -/
  | abortDrainEnd (f : FnId) (c : Fin 4096)
  /-- ABORT_SQUASH_DONE (R339): The squash ends; fences error, references end, objects are destroyed and DESTROY_CONTEXT completes. -/
  | abortSquashDone (f : FnId) (c : Fin 4096)
  /-- FUNCTION_RESET (R343): A function reset stops the function's inputs and starts every context's forced abort. -/
  | functionReset (f : FnId)
  /-- FUNCTION_RESET_CLEAR (R343): Once every context is destroyed, fences, pages and registers are cleared and the reset completes. -/
  | functionResetClear (f : FnId)
  /-- LASER_LOCK_TIMEOUT (R360): A line fails to report LOCK within 500 ms of ENABLE. -/
  | laserLockTimeout (t : Fin 4) (locked : Fin 512)
  /-- LASER_POLL (R360): Every 10 ms the readbacks are read, bias adjusted and bad readings counted. -/
  | laserPoll (t : Fin 4) (fault : Bool) (lines : List LaserReading)
  /-- LASER_READ_TIMEOUT (R360): A module read fails to complete within 5 ms and counts as bad. -/
  | laserReadTimeout (t : Fin 4)
  /-- DATA_BLOCK_RECEIVE (R365): A DATA block is delivered in SEQ order, or discarded and NAKed. -/
  | dataBlockReceive (p : PortId) (seq : Fin 4096) (good : Bool) (frames : List WireFrame)
  /-- DATA_BLOCK_SEND (R363): A sender sends a DATA block when frames wait and the replay window allows. -/
  | dataBlockSend (p : PortId)
  /-- LINK_BLOCK_DUE (R364): 128 blocks pass without a LINK block and one is sent. -/
  | linkBlockDue (p : PortId)
  /-- LINK_ACK (R364): An ACK frees replay-buffer blocks up to its SEQ. -/
  | linkAck (p : PortId) (seq : Fin 4096)
  /-- LINK_NAK (R365): A NAK starts replay from the named SEQ within 96 O-cycles. -/
  | linkNak (p : PortId) (seq : Fin 4096)
  /-- NAK_REPEAT_EXPIRY (R365): 256 O-cycles pass without replay and the NAK is repeated. -/
  | nakRepeatExpiry (p : PortId)
  /-- LINK_CREDIT (R366): A CREDIT message updates the cumulative credits of each VC. -/
  | linkCredit (p : PortId) (req rsp relay ctrl : W32)
  /-- LINK_LANE_REQUEST (R368): A LANE request asks the sender to move a failed lane to the spare. -/
  | linkLaneRequest (p : PortId) (lane : Fin 9) (seq : Fin 4096)
  /-- LINK_LANE_CONFIRM (R368): A LANE confirm completes the switch to lane 8 from the named block. -/
  | linkLaneConfirm (p : PortId) (lane : Fin 9) (seq : Fin 4096)
  /-- LINK_ECHO_REQUEST (R364): An ECHO request is answered with a reply carrying the turnaround. -/
  | linkEchoRequest (p : PortId) (cycle : W64) (turn : W32)
  /-- LINK_ECHO_REPLY (R370): An ECHO reply gives the flight round trip and reach class. -/
  | linkEchoReply (p : PortId) (cycle : W64) (turn : W32) (now : W64)
  /-- LINK_CAPS (R371): A CAPS message is resolved into a mode, or while up starts renegotiation. -/
  | linkCaps (p : PortId) (c : Caps)
  /-- LINK_COMMIT (R372): A COMMIT record is compared with the local one; a mismatch restarts negotiation. -/
  | linkCommit (p : PortId) (record : List Byte)
  /-- LINK_SPDM (R374): An SPDM link message carries a fragment of the port's session exchange. -/
  | linkSpdm (p : PortId) (last : Bool) (bytes : List Byte)
  /-- LINK_DOWN (R373): A DOWN message takes the port down with the partner's reason. -/
  | linkDown (p : PortId) (reason : Fin 16)
  /-- LANE_FAILURE (R368): A data lane fails; parity rebuilds or replay covers it and a LANE request is sent. -/
  | laneFailure (p : PortId) (lane : Fin 9)
  /-- PORT_TRAINING_DONE (R370): Lane training ends and echo and CAPS exchange begins. -/
  | portTrainingDone (p : PortId) (lanes : Fin 512)
  /-- PORT_SESSION_DONE (R374): The port's SPDM session completes, keys are derived and the port goes UP. -/
  | portSessionDone (p : PortId) (root : List Byte)
  /-- KEY_UPDATE_DUE (R375): A frame counter nears 2^40 or 24 h pass and the requester starts KEY_UPDATE. -/
  | keyUpdateDue (p : PortId)
  /-- RD_REQ (R385): A remote read request is served through an export window or answered with an error. -/
  | rdReq (p : PortId)
  /-- RD_DATA (R378): Read data for outstanding units arrives and the units complete. -/
  | rdData (p : PortId)
  /-- WR_REQ (R385): A remote write request is served through an export window or answered with an error. -/
  | wrReq (p : PortId)
  /-- WR_ACK (R384): A write acknowledgement completes an outstanding write. -/
  | wrAck (p : PortId)
  /-- FLUSH (R378): A FLUSH request is answered with FLUSH_ACK. -/
  | flush (p : PortId)
  /-- FLUSH_ACK (R384): A FLUSH_ACK completes an LFLUSH. -/
  | flushAck (p : PortId)
  /-- RELAY_FRAME (R389): A RELAY frame from a peer is combined at the port under the group's rules. -/
  | relayFrame (p : PortId)
  /-- RELAY_DONE (R389): A RELAY_DONE completes a non-root member's launch. -/
  | relayDone (p : PortId)
  /-- RELAY_ABORT (R390): A RELAY_ABORT fails a member's launch with Relay contributor lost. -/
  | relayAbort (p : PortId)
  /-- PEER_WAIT_EXPIRY (R390): The root's segments are incomplete after PEER_WAIT; it aborts the instance. -/
  | peerWaitExpiry (g : W16)
  /-- RELAY_DONE_TIMEOUT (R390): A non-root member gets no RELAY_DONE within 2 x PEER_WAIT and fails its launch. -/
  | relayDoneTimeout (g : W16)
  /-- DEV_ID_WRITE (R382): A write of the Talko device ID takes effect and renegotiates every live port. -/
  | devIdWrite (src : DSrc)
  /-- PORT_RENEG (R373): A manager RENEG write renegotiates a port. -/
  | portReneg (src : DSrc)
  /-- FLR_VF (R399): An FLR of a VF runs the function reset. -/
  | flrVf (f : FnId)
  /-- FLR_PF0 (R399): An FLR of PF0 resets PF0 and clears VF Enable. -/
  | flrPf0
  /-- VF_ENABLE_CLEAR (R399): Clearing VF Enable resets each VF of that function. -/
  | vfEnableClear (p : PhysFn)
  /-- VF_ENABLE_SET (R248): Setting VF Enable makes the VFs reachable, serving absent VDs in the limited mode. -/
  | vfEnableSet (p : PhysFn) (n : Fin 64)
  /-- HOT_RESET (R399): A Hot Reset or DL_Down resets every function the link carries. -/
  | hotReset (h : Fin 2)
  /-- D3HOT_TO_D0 (R399): A D3hot to D0 transition runs the function reset. -/
  | d3hotToD0 (p : PhysFn)
  /-- CONFIG_REQUEST (R500): A configuration request is answered or completes with Request Retry Status. -/
  | configRequest (f : LinkFn) (op : CfgOp)
  /-- BAR4_READ (R406): A BAR4 read is served at the LLC home, returns all-ones in SEALED, or is refused. -/
  | bar4Read (f : FnId) (off : W64) (n : Fin 4097)
  /-- BAR4_WRITE (R406): A BAR4 write is served at the LLC home, discarded in SEALED, or logged as unsupported. -/
  | bar4Write (f : FnId) (off : W64) (data : List Byte) (ep : Bool)
  /-- BAR4_ATOMIC (R410): A BAR4 AtomicOp runs indivisibly at the LLC home or is refused. -/
  | bar4Atomic (f : FnId) (bar : BarId) (off : W64) (op : AtomicOp) (size : AtomicSize)
  /-- BAR4_RESIZE (R408): A BAR4 resize clears DV_WIN.BASE. -/
  | bar4Resize (p : PhysFn) (vf : Bool) (n : Fin 10)
  /-- DEVICE_REQ_COMPLETION (R409): A completion to a device request arrives; EP, UR or CA fails the agent's work. -/
  | deviceReqCompletion (a : HostAgent) (c : CplIn)
  /-- COMPLETION_TIMEOUT (R409): A device request's Completion Timeout fails the agent's work with cause network. -/
  | completionTimeout (a : HostAgent)
  /-- DOE_OBJECT (R413): A DOE data object is dispatched to its protocol or answered empty. -/
  | doeObject (f : LinkFn) (o : DoeKind)
  /-- PRI_DISABLE (R412): Clearing PRI Enable or setting Reset ends waiting Page Requests as refusals. -/
  | priDisable (f : FnId) (reset : Bool)
  /-- POWER_WINDOW_START (R428): At each 1 ms window DVFS decides points, boost, cap steps and proxy calibration. -/
  | powerWindowStart (w : WindowReads)
  /-- OP_POINT_CHANGE_DONE (R420): A voltage and clock slew to a new operating point completes. -/
  | opPointChangeDone (g : CgId)
  /-- RAIL_CONTROL_TICK (R423): Every 40 S0 cycles proxies are summed and each CG's issue duty set. -/
  | railControlTick (t : RailTick)
  /-- REFCLK_ALARM (R421): A reference outside tolerance sets the alarm and PLLs hold. -/
  | refclkAlarm (stood : List (CgId × OpStep))
  /-- REFCLK_HOLD_EXPIRY (R421): The reference stays invalid for 100 µs; issue stops and stacks self-refresh until cold reset. -/
  | refclkHoldExpiry
  /-- GLIDE_ENTRY (R433): An engine stops issuing and enters Glide at the CG's held current. -/
  | glideEntry (e : EngId) (prior : Fin 1048576)
  /-- GLIDE_HOLD_EXPIRY (R433): The Glide hold ends and current ramps down at GLIDE_SLOPE. -/
  | glideHoldExpiry (g : CgId)
  /-- HINT_PHASE_START (R435): A hinted phase begins and its effect on DVFS and Glide applies. -/
  | hintPhaseStart (v : VdId) (n : Fin 4)
  /-- HINT_WINDOW_END (R435): A hint window ends and its effect lapses. -/
  | hintWindowEnd (v : VdId) (n : Fin 8)
  /-- SENSOR_SAMPLE (R438): Every 100 µs thermal sensors are read, filtered and checked. -/
  | sensorSample (d0 d1 : List SensorRead) (temps : List Int)
  /-- AVS_SAMPLE (R438): Every 50 µs AVSBus current and voltage are read and checked. -/
  | avsSample (r : Fin 4) (x : Option AvsRead)
  /-- PMBUS_POLL (R438): Every 1 ms each VR's PMBus status and telemetry are read. -/
  | pmbusPoll (r : RailId) (x : Option AvsRead)
  /-- THERMAL_TRIP (R442): A trip comparator fires; THERMTRIP_N latches, clocks stop and stacks self-refresh. -/
  | thermalTrip (d : DieId) (c : Fin 16)
  /-- THROTTLE_N_ASSERT (R443): THROTTLE_N goes low and every working CG runs at duty 1/16. -/
  | throttleNAssert
  /-- THROTTLE_N_DEASSERT (R443): THROTTLE_N goes high and normal throttling resumes. -/
  | throttleNDeassert
  /-- LC_REQUEST (R450): A life-cycle transition is authorised, recorded, burned and followed by cold reset. -/
  | lcRequest (src : DSrc) (target : Fin 6) (good : Bool)
  /-- SVN_COMMIT (R461): A write raises the OTP SVN counters to the running images. -/
  | svnCommit (src : DSrc)
  /-- REVOCATION (R461): A signed revocation object burns an image key's revocation bit. -/
  | revocation (src : DSrc) (key : Option (Fin 4))
  /-- RNG_HEALTH_FAIL (R453): An entropy health test fails; key generation stops and RNG_FAULT sets. -/
  | rngHealthFail
  /-- SPDM_GET_VERSION (R467): SPDM GET_VERSION request. -/
  | spdmGetVersion (w : SpdmEnd)
  /-- SPDM_GET_CAPABILITIES (R467): SPDM GET_CAPABILITIES request. -/
  | spdmGetCapabilities (w : SpdmEnd) (minor : Fin 16)
  /-- SPDM_NEGOTIATE_ALGORITHMS (R467): SPDM NEGOTIATE_ALGORITHMS request. -/
  | spdmNegotiateAlgorithms (w : SpdmEnd) (suite : Bool)
  /-- SPDM_GET_DIGESTS (R467): SPDM GET_DIGESTS request. -/
  | spdmGetDigests (w : SpdmEnd)
  /-- SPDM_GET_CERTIFICATE (R466): SPDM GET_CERTIFICATE request for slot 0 or 1. -/
  | spdmGetCertificate (w : SpdmEnd) (slot : Fin 8) (off len : W16)
  /-- SPDM_CHALLENGE (R467): SPDM CHALLENGE request, signed with both algorithms. -/
  | spdmChallenge (w : SpdmEnd) (slot : Fin 8) (nonce : List Byte)
  /-- SPDM_GET_MEASUREMENTS (R468): SPDM GET_MEASUREMENTS request scoped by the function it arrives on. -/
  | spdmGetMeasurements (w : SpdmEnd) (ask : MeasAsk) (signed : Bool) (nonce : List Byte)
  /-- SPDM_KEY_EXCHANGE (R467): SPDM KEY_EXCHANGE request. -/
  | spdmKeyExchange (w : SpdmEnd) (nonce : List Byte)
  /-- SPDM_FINISH (R467): SPDM FINISH request. -/
  | spdmFinish (w : SpdmEnd) (session : Fin 8) (good : Bool)
  /-- SPDM_KEY_UPDATE (R375): SPDM KEY_UPDATE; new keys apply from the first frame after the acknowledgement. -/
  | spdmKeyUpdate (w : SpdmEnd) (session : Fin 8)
  /-- SPDM_HEARTBEAT (R467): SPDM HEARTBEAT request. -/
  | spdmHeartbeat (w : SpdmEnd) (session : Fin 8)
  /-- SPDM_END_SESSION (R467): SPDM END_SESSION request. -/
  | spdmEndSession (w : SpdmEnd) (session : Fin 8)
  /-- SPDM_CHUNK (R467): SPDM CHUNK_SEND or CHUNK_GET message. -/
  | spdmChunk (w : SpdmEnd) (k : SpdmChunk)
  /-- TOKEN_REFILL (R464): A signing bucket gains a token at its refill period. -/
  | tokenRefill (v : VdId)
  /-- POSTURE_WRITE (R472): A posture write holds the VD, destroys keys, retags cores and starts the zero-fill. -/
  | postureWrite (src : DSrc) (good : Bool)
  /-- KEY_BLOB (R475): A wrapped model key is unwrapped into a volatile slot and a handle returned. -/
  | keyBlob (src : DSrc) (good : Bool) (mk : Option (List Byte))
  /-- UNSEAL_START (R477): An unseal of a sealed package starts through Garnet's AES-GCM engines. -/
  | unsealStart (src : DSrc) (good : Bool)
  /-- UNSEAL_COMPLETE (R477): An unseal ends; a LOAD record is appended and DONE or FAILED reported. -/
  | unsealComplete (v : VdId) (bad : Option W32)
  /-- AMBER_CONS_WRITE (R484): A write of SEC_AMBER_CONS reclaims slots and lets held appends proceed. -/
  | amberConsWrite (seq : W64)
  /-- AMBER_REGION_WRITE (R483): A write of an Amber region row sets or moves the region and flushes VD0's buffer. -/
  | amberRegionWrite (src : DSrc)
  /-- PUSH_WRITE (R483): A write of a VD's push row configures the push ring or returns space. -/
  | pushWrite (src : DSrc)
  /-- BATCH_CLOSE (R487): At the end of AMBER_SIGN_PERIOD with leaves queued a batch is signed and written. -/
  | batchClose
  /-- CLOSE_BATCH (R487): The manager closes a batch at once. -/
  | closeBatch (src : DSrc)
  /-- CHECKPOINT_NOW (R486): A write forms a checkpoint leaf on demand. -/
  | checkpointNow (src : DSrc)
  /-- HOSTCOR_T1 (R489): The host writes T1 and receives the S0 count. -/
  | hostcorT1 (src : DSrc)
  /-- HOSTCOR_T2 (R489): The host writes T2 and a HOSTCOR record is appended. -/
  | hostcorT2 (src : DSrc)
  /-- HOSTCOR_TIMEOUT (R489): T2 is not written within 1 s and no record is made. -/
  | hostcorTimeout (v : VdId)
  /-- BOOT_ROM (R497): Boot step 1: ROM self-check and start of Garnet. -/
  | bootRom (ok : Bool) (us : W32)
  /-- BOOT_PUF_KEYS (R451): Boot step 2: read the PUF, derive the root and keys, restore slots. -/
  | bootPufKeys (fails : Fin 4) (badSlots : List (Fin 128)) (us : W32)
  /-- BOOT_IMAGE_VERIFY (R460): Boot step 3: choose the image set and verify its images. -/
  | bootImageVerify (us : W32)
  /-- BOOT_MGMT_FIRMWARE (R497): Boot step 4: start Beryl and check security-table tags. -/
  | bootMgmtFirmware (fails : Fin 3) (other tagsOk : Bool) (us : W32)
  /-- BOOT_PLLS (R497): Boot step 5: lock PLL families, negotiate with VRs, set floor points. -/
  | bootPlls (cgBad : BitVec 48) (stackBad : BitVec 8) (halt : Bool) (us : W32)
  /-- BOOT_HBM_TRAINING (R153): Boot step 6: train stacks from records or in full and repair rows. -/
  | bootHbmTraining (runs : List HbmRun) (unrepaired : List (ChanId × Fin 2 × W32)) (us : W32)
  /-- BOOT_CORE_BIST (R497): Boot step 7: BIST every CG site and router. -/
  | bootCoreBist (cgBad : BitVec 48) (routers : List CoreId) (engBad : List (CoreId × BitVec 8)) (us : W32)
  /-- BOOT_PCIE (R497): Boot step 8: lock H PLLs and train the host link halves. -/
  | bootPcie (h0 h1 : HalfRun) (attempts : BitVec 8) (us : W32)
  /-- BOOT_PHOTONICS (R497): Boot step 9: bring up laser modules and calibrate lanes. -/
  | bootPhotonics (tiles : List LaserRun) (lanesBad : List (PortId × Fin 512)) (us : W32)
  /-- BOOT_TALKO (R370): Boot step 10: negotiate every port. -/
  | bootTalko (us : W32)
  /-- BOOT_COMPOSITION_RESTORE (R499): Boot step 11: restore slices, VDs, keys and chains, leaving out unrestorable VDs. -/
  | bootCompositionRestore (badSeeds badFill : BitVec 64) (us : W32)
  /-- BOOT_READY (R497): Boot step 12: open host functions and set ADMIN_READY. -/
  | bootReady (us : W32)
  /-- ENGINE_RESET (R506): An engine is stopped and cleared; its tiles return to the queue or restart. -/
  | engineReset (e : EngId) (cause : EngCause)
  /-- CORE_RESET (R507): A core is sampled and reset; stolen tiles re-issue and launches it originated fail. -/
  | coreReset (c : CoreId) (cause : CoreCause) (late : Bool)
  /-- WARM_RESET (R508): A device warm reset samples cores, resets functions, flushes and reruns start-up from saved state. -/
  | warmReset (cause : WarmCause)
  /-- PERST_ASSERT (R505): Assertion of PERST# triggers a device warm reset. -/
  | perstAssert (half : Fin 2)
  /-- COLD_RESET (R505): Power-on or DEV_RST_N assertion starts a device cold reset. -/
  | coldReset (cause : ColdCause)
  /-- RESET_RELEASE (R498): Release of DEV_RST_N and PERST0_N starts the boot steps. -/
  | resetRelease (pin : ResetPin)
  /-- PWR_OK_ASSERT (R559): The board declares every rail good. -/
  | pwrOkAssert
  /-- PWR_OK_DEASSERT (R560): PWR_OK deasserts; every clock stops and outputs reset within 10 µs. -/
  | pwrOkDeassert
  /-- BERYL_HEARTBEAT_TIMEOUT (R510): A Beryl core misses its heartbeat and is reset, or a second miss starts a warm reset. -/
  | berylHeartbeatTimeout (core : Fin 4)
  /-- CROSS_WATCHDOG_TIMEOUT (R510): Garnet or Beryl misses its 100 ms heartbeat and a warm reset starts. -/
  | crossWatchdogTimeout
  /-- CONTROL_STATE_ECC_ERROR (R510): An uncorrectable ECC error in Beryl or Garnet state starts a warm reset. -/
  | controlStateEccError (garnet : Bool)
  /-- LOOP_PROCESSOR_SILENCE (R511): A loop processor silent for 100 ms is restarted and its step fails one attempt. -/
  | loopProcessorSilence (svcs : List W32)
  /-- WATCHDOG_FIRE (R514): An engine's progress watchdog fires and the hang sequence begins. -/
  | watchdogFire (e : EngId)
  /-- STEP_BUDGET_OVERRUN (R514): A core exceeds a launch's step budget and the launch is found guilty. -/
  | stepBudgetOverrun (c : CoreId) (launch : W32)
  /-- REPLAY_TILE_DONE (R515): A replayed suspect tile completes and the next suspect is replayed. -/
  | replayTileDone (e : EngId)
  /-- REPLAY_WATCHDOG_FIRE (R516): A replayed tile's watchdog fires; its context is guilty and its launch fails. -/
  | replayWatchdogFire (e : EngId)
  /-- DUNIR_READ (R526): Dunir READ of an object or table row. -/
  | dunirRead (src : DSrc)
  /-- DUNIR_WRITE (R526): Dunir WRITE of an object or row without an action of its own. -/
  | dunirWrite (src : DSrc)
  /-- DUNIR_DESCRIBE (R526): Dunir DESCRIBE returning an object's descriptor. -/
  | dunirDescribe (src : DSrc)
  /-- DUNIR_VERSION (R526): Dunir VERSION returning the accepted version range. -/
  | dunirVersion (src : DSrc)
  /-- MBX_GO (R535): A write of MBX_CTRL.GO submits the mailbox request. -/
  | mbxGo (f : FnId) (vector : Fin 2048) (en : Bool)
  /-- MCTP_PACKET_TIMEOUT (R532): A message's next MCTP packet arrives over 100 ms late and the message is discarded. -/
  | mctpPacketTimeout (ep : Fin 256) (tag : Fin 8)
  /-- PERSIST_COMMIT_DONE (R531): A persistent object commit to flash completes or sets FLASH_FAULT. -/
  | persistCommitDone (ok : Bool)
  /-- RESET_REQUEST_CORE (R505): A Dunir reset request of KIND 1 resets a core. -/
  | resetRequestCore (src : DSrc) (late : Bool)
  /-- RESET_REQUEST_WARM (R505): A Dunir reset request of KIND 2 starts a device warm reset. -/
  | resetRequestWarm (src : DSrc)
  /-- RESET_REQUEST_COLD (R505): A Dunir reset request of KIND 3 starts a device cold reset. -/
  | resetRequestCold (src : DSrc)
  /-- SET_COMMIT (R495): A write commits the inactive image set as a trial set. -/
  | setCommit (src : DSrc) (good : List (Bool × Bool × Bool))
  /-- TRACE_CTL_WRITE (R547): A write of TRACE_CTL starts or stops performance tracing per die. -/
  | traceCtlWrite (src : DSrc)
  /-- REGISTER_WRITE (R7): A write to a register that has no row of its own, under its access code and range rule. -/
  | registerWrite (f : FnId) (off : BitVec 26) (wide : Bool) (v : W64)
  /-- REFCLK_VALID_AGAIN (R421): The reference clock becomes valid again within 100 µs of the alarm and the PLLs resume from their held settings. -/
  | refclkValidAgain
  /-- PATROL_PASS_COMPLETE (R161): A patrol pass over a stack ends, the stack's error-check-and-scrub counts are read and reported, and the next pass may begin. -/
  | patrolPassComplete (n : StackId) (ecs : List Nat)
  /-- DEADLINE_HALF_USED (R148): The oldest waiting SCORE request has used half its deadline, so the lane's urgency becomes 3 and a micro-batch may launch at once. -/
  | deadlineHalfUsed (svc : W32)
  /-- TALKO_KEYING_TIMEOUT (R464): A Talko session that waits in keying for a signing token gets none within 10 s, and the port goes down with KEY_FAIL. -/
  | talkoKeyingTimeout (p : PortId)
  /-- WQ_WAIT (R316): A resident task executes its wait on its work queue; the wait counts as progress, the task is stopped there if a stop is pending, or it sleeps under the handshake. -/
  | wqWait (t : W32) (n : Fin 4097)
  /-- RESIDENT_TASK_EXIT (R315): A resident task ends by program exit, freeing its engine and signalling its START_RESIDENT fence. -/
  | residentTaskExit (t : W32)
  /-- TRANSFER_COMPLETE (R300): A transfer descriptor's last chunk finishes: the RECORD load record is appended, the extent-list slot returns, and the packet completes and signals. -/
  | transferComplete (d : W32)
  /-- PCIE_LINK_UP (R394): A host-link half finishes training at runtime, for example after a Hot Reset or DL_Down, and DV_STAT.SLOW follows its settled rate. -/
  | pcieLinkUp (h : Fin 2) (rate : LinkRate) (width : LinkWidth) (flit : Bool)
  /-- PARK_RESTORE_TIMEOUT (R278): A restore's owning pool gives no answer within LIFT_TIMEOUT, and the parked state is treated as lost. -/
  | parkRestoreTimeout (key : W64)
deriving DecidableEq, Repr

end Sys2Proof
end

