-- ==== Sys2Proof/Config.lean ====
section
/-! DEFINITION. What the spec leaves open: free values, as constants with no body. -/

namespace Sys2Proof.Config

/-- A free 32-bit value of a 32-bit shift by 32 or more: R66 gives no result there (DESIGN CHOICE, log 4). -/
opaque shiftOver : Nat → W32 → W32 → W32

/-- The revision-1 table of the special-function unit: R69 bounds each result and does not give it (DESIGN CHOICE, log 5). -/
opaque sfuResult : Nat → W32 → W32

/-- The slice of a die's LLC that holds a line: R164 makes the hash no part of the interface. -/
opaque homeSlice : Nat → Nat

/-- The data a controller delivers for an error its layout does not detect for certain: R155 guarantees nothing there. -/
opaque eccGuess : Nat → LineData

/-- Whether an error that a layout does not detect for certain is detected this time (R155). -/
opaque eccSeen : Nat → Bool

/-- A destination byte of a transfer whose source and destination overlap, by draw and position: R300 calls it undefined. -/
opaque overlapByte : Nat → Nat → BitVec 8

/-- The token a row gives where a logit is NaN or the highest one is infinite: R139 states no result there (DESIGN CHOICE, log 26). -/
opaque freeToken : Nat → Nat

/-- The log-probability reported for such a row (DESIGN CHOICE, log 26). -/
opaque freeLogprob : Nat → W32

/-- SR_SEED of a launch by the loop processors: R303 gives it for ring launches alone (DESIGN CHOICE, log 27). -/
opaque serviceSeed : Nat → W64

/-- The tag AES-256-GCM gives a frame under a port's keys, its counter, its header and its payload (R375); the model does
not compute the cipher (DESIGN CHOICE, log 31). -/
opaque gcmTag : List Byte → Nat → List Byte → List Byte → List Byte

/-- The keys a session derives, by port and session number (R374; DESIGN CHOICE, log 31). -/
opaque talkoKeys : Nat → Nat → List Byte

/-- The SHA-384 of the Novbin root certificate authority, which PEER_POLICY accepts by default (DESIGN CHOICE, log 32). -/
opaque novbinRoot : List Byte

/-- A configuration register whose content the base specification owns: R394 leaves it to that document (PRESUMED, log 36). -/
opaque cfgWord : Nat → BitVec 32

/-- A byte of a poisoned unit that a BAR4 access returns: R409 calls it undefined. -/
opaque poisonByte : Nat → Nat → BitVec 8

/-- A secret of a given length that Garnet's DRBG draws (R453). -/
opaque drbg : Nat → List Byte

/-- A key derived from the Opal root of a life-cycle code and transition count, by label number (R451, R452). -/
opaque rootKey : Nat → Nat → Nat → List Byte

/-- An ECDSA P-384 signature under a private key over a message, by the count of its random number (R462). -/
opaque ecdsaSig : Nat → List Byte → List Byte → List Byte

/-- An HSS signature under a seed: top index, lower index and message (R462). -/
opaque hssSig : List Byte → Nat → Nat → List Byte → List Byte

/-- The uncompressed public key of a P-384 private key (R470). -/
opaque publicKey : List Byte → List Byte

/-- The plaintext of a chunk of a sealed package under a model key: header, chunk number and ciphertext (R476). -/
opaque gcmPlain : List Byte → List Byte → Nat → List Byte → List Byte

/-- The certificate chain of an SPDM slot in a life-cycle state (R466). -/
opaque certChain : Nat → Nat → List Byte

/-- The SHA-384 of the ROM, fused at manufacture (R470). -/
opaque romDigest : List Byte

/-- DETAIL of a boot journal entry: R501 makes it a code of its step and lists no codes. -/
opaque journalDetail : Nat → Nat

/-- DATA of a boot journal entry: R501 makes it data of its step and does not list them. -/
opaque journalData : Nat → List Byte

/-- The service stops of the mesh as (KIND, INDEX, ROUTER_A, ROUTER_B): R213 leaves their places to the capability table. -/
opaque serviceStops : List (Nat × Nat × Nat × Nat)

/-- A counter of wheel slots, bridge bytes or photonic bytes: R229 counts traffic that has no command. -/
opaque trafficCount : Nat → Nat → W64

end Sys2Proof.Config
end

