-- ==== Sys2Proof/Machine/Bits.lean ====
section
/-! DEFINITION. Bit fields, byte order, sign and rounding-free integer helpers (R4). -/

namespace Sys2Proof.Machine

/-- `n` bits of `x` from bit `lo` up. -/
def fld (x lo n : Nat) : Nat := (x >>> lo) % 2 ^ n

/-- Bit `i` of `x`. -/
def bitAt (x i : Nat) : Bool := x.testBit i

def b2n (b : Bool) : Nat := if b then 1 else 0

/-- A list of bytes read as a little-endian number (R4). -/
def leNat : List Byte → Nat
  | [] => 0
  | b :: bs => b.toNat + 256 * leNat bs

/-- The `n` little-endian bytes of a number (R4). -/
def natLe : Nat → Nat → List Byte
  | 0, _ => []
  | n + 1, x => BitVec.ofNat 8 x :: natLe n (x / 256)

/-- A list of bytes read as a big-endian number. -/
def beNat (bs : List Byte) : Nat := leNat bs.reverse

/-- The `n` big-endian bytes of a number. -/
def natBe (n x : Nat) : List Byte := (natLe n x).reverse

/-- `n` bytes of a byte list from offset `o`; missing bytes read as 0. -/
def sliceB (bs : List Byte) (o n : Nat) : List Byte :=
  let t := (bs.drop o).take n
  t ++ List.replicate (n - t.length) 0

/-- A little-endian field of `n` bytes at offset `o`. -/
def fieldAt (bs : List Byte) (o n : Nat) : Nat := leNat (sliceB bs o n)

/-- The byte list with the bytes `v` placed at offset `o`. -/
def pokeB (bs : List Byte) (o : Nat) (v : List Byte) : List Byte :=
  bs.take o ++ List.replicate (o - bs.length) 0 ++ v ++ bs.drop (o + v.length)

/-- The two's-complement reading of the low `n` bits. -/
def sgn (x n : Nat) : Int :=
  let y := x % 2 ^ n
  if y ≥ 2 ^ (n - 1) then (y : Int) - (2 ^ n : Nat) else y

/-- The low `n` bits of the two's-complement form of an integer. -/
def unsgn (x : Int) (n : Nat) : Nat := (x % (2 ^ n : Nat)).toNat

/-- Least multiple of `b` that is at least `a`. -/
def roundUp (a b : Nat) : Nat := if b = 0 then a else (a + b - 1) / b * b

def ceilDiv (a b : Nat) : Nat := if b = 0 then 0 else (a + b - 1) / b

/-- Whether every element of a list of bytes is zero. -/
def allZero (bs : List Byte) : Bool := bs.all (· == 0)

/-- The numbers of the set bits of a mask of `n` bits. -/
def bitsOf (n : Nat) (x : Nat) : List Nat := (List.range n).filter (x.testBit ·)

/-- The mask with the listed bits set. -/
def maskOf (xs : List Nat) : Nat := xs.foldl (fun a i => a ||| (1 <<< i)) 0

/-- Saturating add at a field of `n` bits. -/
def satAdd (n x d : Nat) : Nat := min (x + d) (2 ^ n - 1)

/-- Byte `i` of a line. -/
def lineByte (l : LineData) (i : Nat) : Byte := (l >>> (8 * i)).setWidth 8

/-- The line with bytes `bs` placed from byte `i` on. -/
def lineSet (l : LineData) (i : Nat) (bs : List Byte) : LineData :=
  let n := 8 * bs.length
  let m : LineData := BitVec.ofNat 1024 ((2 ^ n - 1) <<< (8 * i))
  (l &&& ~~~ m) ||| (BitVec.ofNat 1024 (leNat bs <<< (8 * i)) &&& m)

/-- The 128 bytes of a line. -/
def lineBytes (l : LineData) : List Byte := natLe 128 l.toNat

/-- The line of 128 bytes. -/
def lineOf (bs : List Byte) : LineData := BitVec.ofNat 1024 (leNat (bs.take 128))

/-- The integer square root, by fuel of one bit each. -/
def isqrtAux : Nat → Nat → Nat → Nat
  | 0, _, r => r
  | f + 1, n, r =>
    let c := r + 2 ^ f
    isqrtAux f n (if c * c ≤ n then c else r)

def isqrt (n : Nat) : Nat := isqrtAux (Nat.log2 n / 2 + 1) n 0

end Sys2Proof.Machine
end

