-- ==== Sys2Proof/Machine/Crypto.lean ====
section
/-! DEFINITION. Digests and check codes the spec names by standard: SHA-384, CRC-32C, CRC-8. -/

namespace Sys2Proof.Machine

/-- The integer cube root, by fuel of one bit each. -/
def icbrtAux : Nat → Nat → Nat → Nat
  | 0, _, r => r
  | f + 1, n, r =>
    let c := r + 2 ^ f
    icbrtAux f n (if c * c * c ≤ n then c else r)

/-- The first primes, by trial division. -/
def primesUpTo (n : Nat) : List Nat :=
  (List.range n).filter (fun p => 2 ≤ p && (List.range p).all (fun d => d < 2 || p % d ≠ 0))

/-- The 80 round constants of SHA-384: the fractional parts of the cube roots of the first primes. -/
def shaK : List Nat := ((primesUpTo 410).take 80).map (fun p => icbrtAux 68 (p <<< 192) 0 % 2 ^ 64)

/-- The initial state of SHA-384: the fractional parts of the square roots of the ninth to sixteenth primes. -/
def shaInit : List Nat := (((primesUpTo 60).drop 8).take 8).map (fun p => isqrt (p <<< 128) % 2 ^ 64)

def rotr64 (x n : Nat) : Nat := (x >>> n ||| x <<< (64 - n)) % 2 ^ 64

/-- The message schedule, newest word first. -/
def shaSchedule : Nat → List Nat → List Nat
  | 0, w => w
  | n + 1, w =>
    let a := w.getD 1 0
    let b := w.getD 14 0
    let s1 := rotr64 a 19 ^^^ rotr64 a 61 ^^^ (a >>> 6)
    let s0 := rotr64 b 1 ^^^ rotr64 b 8 ^^^ (b >>> 7)
    shaSchedule n ((s1 + w.getD 6 0 + s0 + w.getD 15 0) % 2 ^ 64 :: w)

def shaRound (st : List Nat) (kw : Nat × Nat) : List Nat :=
  match st with
  | [a, b, c, d, e, f, g, h] =>
    let s1 := rotr64 e 14 ^^^ rotr64 e 18 ^^^ rotr64 e 41
    let ch := (e &&& f) ^^^ ((2 ^ 64 - 1 - e) &&& g)
    let t1 := h + s1 + ch + kw.1 + kw.2
    let s0 := rotr64 a 28 ^^^ rotr64 a 34 ^^^ rotr64 a 39
    let mj := (a &&& b) ^^^ (a &&& c) ^^^ (b &&& c)
    [(t1 + s0 + mj) % 2 ^ 64, a, b, c, (d + t1) % 2 ^ 64, e, f, g]
  | st => st

def shaBlock (h : List Nat) (blk : List Byte) : List Nat :=
  let w0 := (List.range 16).map (fun i => beNat (sliceB blk (8 * i) 8))
  let w := (shaSchedule 64 w0.reverse).reverse
  let r := (shaK.zip w).foldl shaRound h
  (h.zip r).map (fun p => (p.1 + p.2) % 2 ^ 64)

def shaBlocks : Nat → List Nat → List Byte → List Nat
  | 0, h, _ => h
  | n + 1, h, m => shaBlocks n (shaBlock h (m.take 128)) (m.drop 128)

/-- SHA-384 of a message. -/
def sha384 (m : List Byte) : List Byte :=
  let n := m.length
  let pad := (240 - (n + 1) % 128) % 128
  let msg := m ++ [0x80#8] ++ List.replicate pad 0 ++ natBe 16 (8 * n)
  ((shaBlocks (msg.length / 128) shaInit msg).take 6).flatMap (natBe 8)

/-- One bit step of a reflected CRC. -/
def crcBits : Nat → Nat → Nat → Nat
  | 0, _, c => c
  | n + 1, poly, c => crcBits n poly (if c.testBit 0 then (c >>> 1) ^^^ poly else c >>> 1)

/-- CRC-32C: Castagnoli polynomial, reflected, initial and final XOR of all ones (R45). -/
def crc32c (m : List Byte) : Nat :=
  (m.foldl (fun c b => crcBits 8 0x82F63B78 (c ^^^ b.toNat)) 0xFFFFFFFF) ^^^ 0xFFFFFFFF

/-- One bit step of the CRC-8 of R154. -/
def crc8Bits : Nat → Nat → Nat
  | 0, c => c
  | n + 1, c => crc8Bits n (if c.testBit 7 then ((c <<< 1) ^^^ 0x07) % 256 else (c <<< 1) % 256)

def crc8 (m : List Byte) : Nat := m.foldl (fun c b => crc8Bits 8 (c ^^^ b.toNat)) 0

end Sys2Proof.Machine
end

