-- ==== Sys2Proof/Machine/Map.lean ====
section
/-! DEFINITION. Sparse tables: reading, writing and erasing one key, in canonical (strictly rising) order. -/

namespace Sys2Proof.Machine

/-- The entry of a key, if the table lists one. -/
def look {α : Type} : Map α → Nat → Option α
  | [], _ => none
  | (k, v) :: m, q => if k = q then some v else look m q

/-- The entry of a key, or `d` where the table lists none. -/
def lookD {α : Type} (m : Map α) (q : Nat) (d : α) : α :=
  (look m q).getD d

/-- The table without a key. -/
def del {α : Type} (m : Map α) (q : Nat) : Map α :=
  m.filter (fun p => p.1 ≠ q)

/-- Insert a pair before the first larger key. -/
def insertSorted {α : Type} (q : Nat) (v : α) : Map α → Map α
  | [] => [(q, v)]
  | (k, w) :: m => if q < k then (q, v) :: (k, w) :: m else (k, w) :: insertSorted q v m

/-- The table with a key set. -/
def put {α : Type} (m : Map α) (q : Nat) (v : α) : Map α :=
  insertSorted q v (del m q)

/-- The table with a key set, where an unlisted key stands for `d`: writing `d` erases the key. -/
def putD {α : Type} [DecidableEq α] (m : Map α) (q : Nat) (v d : α) : Map α :=
  if v = d then del m q else put m q v

/-- Change the entry of a key where there is one. -/
def adjust {α : Type} (m : Map α) (q : Nat) (f : α → α) : Map α :=
  m.map (fun p => if p.1 = q then (p.1, f p.2) else p)

/-- Change every entry. -/
def mapVals {α β : Type} (m : Map α) (f : Nat → α → β) : Map β :=
  m.map (fun p => (p.1, f p.1 p.2))

/-- The keys that hold an entry. -/
def keys {α : Type} (m : Map α) : List Nat := m.map (·.1)

/-- Whether a key holds an entry. -/
def has {α : Type} (m : Map α) (q : Nat) : Bool := (look m q).isSome

/-- The lowest number from `lo` on that is no key, searching `fuel` numbers. -/
def lowestFree {α : Type} (m : Map α) (lo : Nat) : Nat → Option Nat
  | 0 => none
  | f + 1 => if has m lo then lowestFree m (lo + 1) f else some lo

/-- Keys strictly rise. -/
def sortedKeys {α : Type} : Map α → Bool
  | [] => true
  | [_] => true
  | a :: b :: m => (a.1 < b.1) && sortedKeys (b :: m)

end Sys2Proof.Machine
end

