-- ==== Sys2Proof/Machine/CoreTypes.lean ====
section
/-! DEFINITION. State of engines and cores (R74–R110): stores with ownership tags, tiles, queues and the core window. -/

namespace Sys2Proof.Machine

/-- One 128-byte LOS line with its tag and written bit (R80). -/
structure LosLine where
  tag : BitVec 12 := 0
  written : Bool := false
  data : LineData := 0
deriving DecidableEq, Repr

/-- One 4 KiB scratchpad block: tag, 32 written bits and its sub-lines (R80). -/
structure SpBlock where
  tag : BitVec 12 := 0
  written : W32 := 0
  lines : Map LineData := []
deriving DecidableEq, Repr

/-- A tile entry (R88); `relay` marks a Relay contributor tile (R91). -/
structure Tile where
  launch : Nat := 0
  node : Nat := 0
  pinned : Bool := false
  noKsplit : Bool := false
  figures : Bool := false
  canon : Bool := false
  integer : Bool := false
  matrix : Bool := true
  relay : Bool := false
  origin : Nat := 0
  mBlock : Nat := 0
  nBlock : Nat := 0
  kBegin : Nat := 0
  kEnd : Nat := 0
  tag : BitVec 12 := 0
  slot : Nat := 0xFF
  cbOff : Nat := 0
deriving DecidableEq, Repr

/-- One output element's accumulator: the exact one of R59, or a running FP32 sum (none before the first product). -/
inductive Acc where
  | exact (n : Int) (nan pinf ninf : Bool)
  | fp (v : Option W32)
deriving DecidableEq, Repr

/-- A thief of a running tile: its partial slot, its split point, the K end it was given and its engine (R92). -/
structure Thief where
  slot : Nat := 0
  split : Nat := 0
  oldEnd : Nat := 0
  eng : Nat := 0
deriving DecidableEq, Repr

/-- A running tile: `chunk` is the end of the 256-element chunk being computed (R92), `done` the K reached by `accs`. -/
structure RunTile where
  tile : Tile := {}
  chunk : Nat := 0
  done : Nat := 0
  accs : List Acc := []
  thieves : List Thief := []
  combined : Bool := false
  stalled : Option Nat := none
deriving DecidableEq, Repr

/-- The conversion parameters of a VCVT (R52, R53, R78). -/
structure CvtParams where
  round : RMode := .rne
  ovf : Ovf := .default
  seed : W64 := 0
  tensor : W32 := 0
deriving DecidableEq, Repr

/-- An engine: vector, mask and scalar registers, conversion parameters, numerics status, LOS, private queue. -/
structure Eng where
  vregs : Map (List W32) := []
  masks : Map W64 := []
  sregs : Map W64 := []
  cvt : CvtParams := {}
  nsw : W16 := 0
  los : Map LosLine := []
  queue : List Tile := []
  run : Option RunTile := none
  claimWait : Bool := false
  ordPoints : Nat := 0
  atBarrier : Bool := false
  glide : Option Nat := none
  held : List Tile := []
  replaying : Bool := false
  hangReason : Nat := 0
  hangs : List Nat := []
deriving DecidableEq, Repr

/-- STATE of CORE_STATE (R103). -/
inductive CoreSt where
  | off | idle | running | switching | fenced | reset
deriving DecidableEq, Repr

/-- A partial slot at the top of the scratchpad (R93). -/
structure PSlot where
  used : Bool := false
  ready : Bool := false
  launch : Nat := 0
  accs : List Acc := []
deriving DecidableEq, Repr

/-- States of a line in a core data cache (R167). -/
inductive Moesi where
  | i | s | e | m | o
deriving DecidableEq, Repr

/-- One core data cache line; a hold is open while `held` (R173). -/
structure CacheLine where
  st : Moesi := .i
  tag : BitVec 12 := 0
  data : LineData := 0
  poison : Bool := false
  held : Bool := false
deriving DecidableEq, Repr

/-- A snoop that waits in a core's snoop buffer for a hold to end (R173). -/
inductive SnoopKind where
  | fwdS | fwdM | inv | binv
deriving DecidableEq, Repr

/-- The requests a core sends to a home (R169). -/
inductive CohReq where
  | readShared | readUnique | upgrade
deriving DecidableEq, Repr

/-- An engine's scalar access (R183), kept while it waits and replayed in full. -/
structure ScalarAcc where
  eng : Nat := 0
  store : Bool := false
  dst : Nat := 0
  ctx : Nat := 0
  va : Nat := 0
  size : Nat := 4
  value : Nat := 0
  uncached : Bool := false
deriving DecidableEq, Repr

/-- A core's own open request for a line: its kind, NACKs received, whether a retry waits for RETRY_GAP, and the
engine access it serves. -/
structure Mshr where
  req : CohReq := .readShared
  nacks : Nat := 0
  waitRetry : Bool := false
  sent : Bool := false
  waiting : List ScalarAcc := []
deriving DecidableEq, Repr

/-- A cached translation (R183): the level and key of the entry and the entry itself. -/
structure XEntry where
  fn : Nat := 0
  ctx : Nat := 0
  level : Nat := 1
  key : Nat := 0
  pte : W64 := 0
deriving DecidableEq, Repr

/-- What a fully idle core's cross-core request is doing (R95, R96). -/
inductive XReqSt where
  | none
  | asked (victim : Nat)
  | backoff
deriving DecidableEq, Repr

/-- A core: scratchpad, partial slots, tile queue, the registers of the core window, data cache and translation
cache. -/
structure Core where
  st : CoreSt := .off
  curTag : BitVec 12 := 0
  switchGen : W32 := 0
  engOk : BitVec 8 := 0xFF
  sp : Map SpBlock := []
  slots : Map PSlot := []
  tq : List Tile := []
  backlog : List Tile := []
  tqHigh : Nat := 0
  peekIdx : Nat := 0
  lastPull : Nat := 7
  engStealEn : Bool := true
  ksplitEn : Bool := true
  xcoreEn : Bool := true
  ksplitMin : Nat := 8
  xcoreMax : Nat := 16
  xcoreKeep : Nat := 4
  engSteals : Nat := 0
  ksplits : Nat := 0
  xcoreOut : Nat := 0
  xcoreIn : Nat := 0
  drops : Nat := 0
  facetErr : BitVec 4 := 0
  facetCount : Nat := 0
  facetInfo0 : W32 := 0
  facetInfo1 : W32 := 0
  facetTables : List Nat := []
  wdogLog2 : Nat := 27
  dcache : Map CacheLine := []
  hostLines : Map CacheLine := []
  mshrs : Map Mshr := []
  snoops : List (Nat × SnoopKind × Nat) := []
  wb : Map CacheLine := []
  xtlb : List XEntry := []
  xreq : XReqSt := .none
  xlast : Nat := 3
  xdenied : List Nat := []
  granted : List (Nat × Tile) := []
  cbUsed : BitVec 32 := 0
  ingress : List (Nat × List Byte) := []
  reserve : List Nat := []
  resets : Nat := 0
deriving DecidableEq, Repr

/-- A message between cores on the control network (R95–R97). -/
inductive XMsg where
  | request (thief victim : Nat)
  | grant (thief victim : Nat) (tiles : List Tile)
  | deny (thief victim : Nat)
  | done (thief origin : Nat) (tile : Tile)
  | resetNotice (thief origin : Nat)
deriving DecidableEq, Repr

end Sys2Proof.Machine
end

