-- ==== Sys2Proof/Machine/HostTypes.lean ====
section
/-! DEFINITION. State of address translation, host objects, the front end and the serving loop
(R176–R211, R283–R354, R111–R148). -/

namespace Sys2Proof.Machine

/-- An error record (R338); `detail` holds bytes 8 to 31. -/
structure ErrRec where
  cause : Nat := 0
  source : Nat := 0
  report : Bool := false
  ref : Nat := 0
  detail : List Byte := []
deriving DecidableEq, Repr

/-- A fence: value, LOWER count, error record, arm and the WARNED flag (R333–R340). -/
structure Fence where
  value : W64 := 0
  lower : Nat := 0
  err : Option ErrRec := none
  arm : Option (Nat × Nat) := none
  warned : Bool := false
deriving DecidableEq, Repr

/-- Where a packet came from: a function's admin ring or a command ring by handle (R287, R288). -/
inductive RingRef where
  | admin (fn : Nat)
  | cmd (ring : Nat)
deriving DecidableEq, Repr

/-- An accepted packet: what its completion needs (R290, R295). -/
structure PktRef where
  ring : RingRef := .admin 0
  opcode : Nat := 0
  tag : Nat := 0
  cqe : Bool := false
  signal : Option (Nat × Nat) := none
  sqHead : Nat := 0
  seq : Nat := 0
deriving DecidableEq, Repr

/-- Who waits on a translation fault (R198). -/
inductive Waiter where
  | engine (e : Nat)
  | desc (d : Nat)
  | scalar (a : ScalarAcc)
  | coreUnit (c : Nat)
deriving DecidableEq, Repr

/-- An open fault (R198). -/
structure OpenFault where
  fn : Nat := 0
  ctx : Nat := 0
  page : Nat := 0
  kind : Nat := 1
  write : Bool := false
  host : Bool := false
  waiters : List Waiter := []
  agent : Nat := 0
  launch : Nat := 0
  posted : Bool := false
deriving DecidableEq, Repr

/-- An invalidation slot of BAR2 page 0 (R189, R190): the words written and the state read back through GO. -/
structure InvSlot where
  words : List Byte := []
  seq : Nat := 0
  st : Nat := 0
  err : Nat := 0
  epoch : Nat := 0
deriving DecidableEq, Repr

/-- Where a running invalidation came from (R189, R195, R204). -/
inductive InvSrc where
  | slot (n : Nat)
  | ats (tag : Nat)
  | move (list entry : Nat)
deriving DecidableEq, Repr

/-- A running invalidation; `waits` are the descriptors of step 4 (R191). -/
structure Inval where
  fn : Nat := 0
  src : InvSrc := .slot 0
  kind : Nat := 1
  ctxs : List Nat := []
  lo : Nat := 0
  hi : Nat := 0
  fence : Option (Nat × Nat) := none
  waits : List Nat := []
  held : Bool := false
deriving DecidableEq, Repr

/-- What a transfer descriptor belongs to. -/
inductive DescOwner where
  | packet (p : PktRef)
  | node (launch node : Nat)
deriving DecidableEq, Repr

/-- An extent (R185). -/
structure Extent where
  addr : Nat := 0
  len : Nat := 0
  space : Nat := 0
  dst : Bool := false
deriving DecidableEq, Repr

/-- An accepted transfer descriptor (R184, R186, R299). -/
structure Desc where
  fn : Nat := 0
  ctx : Nat := 0
  owner : DescOwner := .node 0 0
  va : Nat := 0
  kind : Nat := 1
  record : Bool := false
  tc : Nat := 0
  rows : Nat := 1
  src : Nat := 0
  dst : Nat := 0
  len : Nat := 0
  srcStride : Int := 0
  dstStride : Int := 0
  pattern : Nat := 0
  epoch : Nat := 0
  pos : Nat := 0
  chunkEnd : Nat := 0
  chunks : Nat := 0
  exts : List Extent := []
  slot : Option Nat := none
  stalled : Option Nat := none
  done : Bool := false
  uncached : Bool := false
deriving DecidableEq, Repr

/-- A running move list (R203, R204): per entry a result, 0 while not ended; `running` are entries past step 3's
start. -/
structure MoveList where
  pkt : PktRef := {}
  fn : Nat := 0
  ctx : Nat := 0
  va : Nat := 0
  entries : List (List Byte) := []
  results : List Nat := []
  olds : Map Nat := []
  running : List Nat := []
  copied : List (Nat × Nat) := []
  timedOut : List Nat := []
deriving DecidableEq, Repr

/-- An access-counter cache entry (R205). -/
structure HotCount where
  dev : Bool := false
  fn : Nat := 0
  ctx : Nat := 0
  region : Nat := 0
  count : Nat := 0
  writes : Nat := 0
deriving DecidableEq, Repr

/-- A ring the device writes for a function: fault ring or notify ring (R211). -/
structure RecRing where
  base : Nat := 0
  log2 : Nat := 6
  vector : Nat := 0
  en : Bool := false
  prod : Nat := 0
  cons : Nat := 0
  waiting : List Nat := []
deriving DecidableEq, Repr

/-- The dirty-log registers of a VF (R207, R211). -/
structure Dlog where
  en : Bool := false
  swapping : Bool := false
  swapDone : Bool := false
  active : Bool := false
  hostOvf : Bool := false
  hbase : Nat := 0
  hpages : Nat := 0
  set0 : Nat := 0
  set1 : Nat := 0
deriving DecidableEq, Repr

/-- The XLT block of a function (R211). -/
structure XltFn where
  fring : RecRing := {}
  nring : RecRing := {}
  faultTimeout : Nat := 1000
  invLimit : Nat := 10
  fullStalls : Nat := 0
  badResume : Nat := 0
  invIgnored : Nat := 0
  hotHost : Nat := 0
  hotDev : Nat := 0
  dropped : Nat := 0
  evicted : Nat := 0
  slots : Map InvSlot := []
deriving DecidableEq, Repr

/-- A Page Request that waits for its response (R196). -/
structure PageReq where
  fn : Nat := 0
  ctx : Nat := 0
  page : Nat := 0
  addr : Nat := 0
  write : Bool := false
  retried : Bool := false
  sent : Bool := false
  waiters : List Waiter := []
deriving DecidableEq, Repr

/-- An address translation cache entry of host memory (R194). -/
structure AtcEntry where
  fn : Nat := 0
  page : Nat := 0
  addr : Nat := 0
  write : Bool := false
deriving DecidableEq, Repr

/-- Translation state shared by the device. -/
structure Xlt where
  walkCache : List XEntry := []
  atc : List AtcEntry := []
  faults : Map OpenFault := []
  nextFault : Nat := 1
  stalledNoEntry : List (Nat × Waiter) := []
  migWaiters : List (Nat × Waiter) := []
  invals : Map Inval := []
  nextInval : Nat := 1
  descs : Map Desc := []
  nextDesc : Nat := 1
  moves : Map MoveList := []
  nextMove : Nat := 1
  hot : List HotCount := []
  dlog : Map Dlog := []
  pageReqs : List PageReq := []
  atsDone : List (Nat × Nat) := []
  loopTlb : Map (List XEntry) := []
deriving DecidableEq, Repr

/-- The states of a producer-index endpoint (R286, R289, R323). -/
inductive EpSt where
  | active | armed | idle | error | destroying
deriving DecidableEq, Repr

/-- The idle handshake's four values (R289). -/
structure Shake where
  tail : Nat := 0
  head : Nat := 0
  pend : Bool := false
  st : EpSt := .idle
deriving DecidableEq, Repr

/-- A completion entry that waits to be written, with the fence signal behind it (R295). -/
structure Cqe where
  status : Nat := 0
  opcode : Nat := 0
  nsw : Nat := 0
  tag : Nat := 0
  result : Nat := 0
  amberSeq : Nat := 0
  sqHead : Nat := 0
  detail : Nat := 0
  post : Bool := true
  signal : Option (Nat × Nat) := none
  err : Option ErrRec := none
deriving DecidableEq, Repr

/-- A command ring, or an admin ring (R287, R288). -/
structure Ring where
  fn : Nat := 0
  ctx : Nat := 0
  sqLog2 : Nat := 6
  cqLog2 : Nat := 6
  prio : Nat := 0
  vector : Nat := 0
  sqBase : Nat := 0
  cqBase : Nat := 0
  report : Nat := 0
  reportSeq : Nat := 0
  sqPage : Nat := 0
  cqPage : Nat := 0
  sh : Shake := {}
  fetched : List (List Byte) := []
  accepted : Nat := 0
  waitFence : Option Nat := none
  boosted : Bool := false
  cqProd : Nat := 0
  cqCons : Nat := 0
  waiting : List Cqe := []
  inflight : List Nat := []
deriving DecidableEq, Repr

/-- What a doorbell page of BAR2 belongs to (R285). -/
inductive Endpoint where
  | ringSq (ring : Nat)
  | ringCq (ring : Nat)
  | qpReq (qp : Nat)
  | qpRsp (qp : Nat)
  | liftq (q : Nat)
  | wq (w : Nat)
deriving DecidableEq, Repr

/-- States of a context (R328), and the phases of its forced abort (R339). -/
inductive CtxSt where
  | live | draining | squashing
deriving DecidableEq, Repr

/-- A context (R326). -/
structure Ctx where
  st : CtxSt := .live
  root : Nat := 0
  mirror : Int := 0
  extPool : Nat := 0
  extSlots : Nat := 0
  extUsed : List Nat := []
  hostEn : Bool := false
  priEn : Bool := false
  acEn : Bool := false
  fenceFirst : Nat := 0
  fenceCount : Nat := 0
  figures : Bool := false
  counterSet : Option Nat := none
  ptag : Nat := 0
  epoch : Nat := 0
  rootHeld : Bool := false
  destroyPkt : Option PktRef := none
deriving DecidableEq, Repr

/-- A memory object and its origin (R330); a reference names the object. -/
structure MemObj where
  size : Nat := 0
  host : Bool := false
  fence : Option (Nat × Nat) := none
deriving DecidableEq, Repr

structure MemRef where
  ctx : Nat := 0
  obj : Nat := 0
  va : Nat := 0
deriving DecidableEq, Repr

/-- A counter set (R350). -/
structure CounterSet where
  fn : Nat := 0
  ctx : Nat := 0
  launches : Nat := 0
  tiles : Nat := 0
  enginePs : Nat := 0
  xferBytes : Nat := 0
  faults : Nat := 0
  failed : Nat := 0
  memPeak : Nat := 0
deriving DecidableEq, Repr

/-- A signal slot's SEL word (R354). -/
structure SelWord where
  fence : Nat := 0
  vector : Nat := 0
deriving DecidableEq, Repr

/-- The INT block of a function (R354). -/
structure IntFn where
  fenceBase : Nat := 0
  fenceEn : Bool := false
  lower : Nat := 0
  rejected : Nat := 0
  warn : Bool := false
  spent : Bool := false
  mirrorFault : Bool := false
  info : Nat := 0
  eventVector : Nat := 0
  eventEn : Bool := false
  sel : Map SelWord := []
deriving DecidableEq, Repr

/-- The GFE block of a function (R323). -/
structure GfeFn where
  sqBase : Nat := 0
  cqBase : Nat := 0
  sqLog2 : Nat := 6
  cqLog2 : Nat := 6
  vector : Nat := 0
  en : Bool := false
  overrun : Bool := false
  fetchFault : Bool := false
  cqFault : Bool := false
  adminErr : Bool := false
  errRing : Nat := 0
  errIndex : Nat := 0
  ringSel : Nat := 0
  stray : Nat := 0
  overruns : Nat := 0
deriving DecidableEq, Repr

/-- A node of a routine (R305). -/
structure Node where
  kind : Nat := 0
  flags : Nat := 0
  fmtA : Nat := 0
  fmtB : Nat := 0
  fmtOut : Nat := 0
  relay : Nat := 0xFFFF
  m : Nat := 0
  n : Nat := 0
  k : Nat := 0
  tensor : Nat := 0
  aP : Nat := 0xFFFF
  bP : Nat := 0xFFFF
  outP : Nat := 0xFFFF
  saP : Nat := 0xFFFF
  sbP : Nat := 0xFFFF
  tableP : Nat := 0xFFFF
  streamTag : Nat := 0
  lda : Nat := 0
  ldb : Nat := 0
  ldo : Nat := 0
  epi : Nat := 0
  epiScaleP : Nat := 0xFFFF
  epiBiasP : Nat := 0xFFFF
  epiResP : Nat := 0xFFFF
  program : Nat := 0
  tileElems : Nat := 0
  elems : Nat := 0
  deps : List Nat := []
  xferP : Nat := 0xFFFF
  nTables : Nat := 0
  round : Nat := 0
  ovf : Nat := 0
deriving DecidableEq, Repr

/-- A Relay group entry of a routine (R307). -/
structure RelayGrp where
  node : Nat := 0
  n : Nat := 0
  type : Nat := 0
  ks : Nat := 0
  peer : Nat := 0
deriving DecidableEq, Repr

/-- One generation of a routine (R309, R312). -/
structure RoutineGen where
  gen : Nat := 0
  ctx : Nat := 0
  store : Nat := 0
  len : Nat := 0
  nodes : List Node := []
  relays : List RelayGrp := []
  programs : List Nat := []
  budget : Nat := 1
  service : Bool := false
  retired : Bool := false
deriving DecidableEq, Repr

/-- A registered routine: its current generation, if any, and an older one still running. -/
structure Routine where
  fn : Nat := 0
  cur : Option RoutineGen := none
  old : Option RoutineGen := none
  nextGen : Nat := 1
deriving DecidableEq, Repr

/-- A registered program (R313). -/
structure Program where
  fn : Nat := 0
  ctx : Nat := 0
  store : Nat := 0
  codeLen : Nat := 0
  entry : Nat := 0
  losBytes : Nat := 0
  spBytes : Nat := 0
deriving DecidableEq, Repr

/-- States of a resident task (R315–R317). -/
inductive TaskSt where
  | running | waiting | moving
deriving DecidableEq, Repr

structure Task where
  fn : Nat := 0
  ctx : Nat := 0
  program : Nat := 0
  wq : Nat := 0
  engine : Nat := 0
  successor : Option Nat := none
  st : TaskSt := .running
  stopPend : Bool := false
  stopSrc : Nat := 0
  signal : Option (Nat × Nat) := none
  cbSlot : Nat := 0
  cb : List Byte := []
  restarts : Nat := 0
  stopPkts : List PktRef := []
deriving DecidableEq, Repr

/-- A work queue (R314). -/
structure Wq where
  fn : Nat := 0
  ctx : Nat := 0
  log2 : Nat := 4
  base : Nat := 0
  page : Option Nat := none
  sh : Shake := {}
  task : Option Nat := none
deriving DecidableEq, Repr

/-- A launch in flight (R292, R303, R306). -/
structure Launch where
  fn : Nat := 0
  ctx : Nat := 0
  vd : Nat := 0
  owner : Option PktRef := none
  service : Option Nat := none
  routine : Nat := 0
  gen : Nat := 0
  nodes : List Node := []
  relays : List RelayGrp := []
  programs : List Nat := []
  budget : Nat := 1
  figures : Bool := false
  seed : Nat := 0
  cores : List Nat := []
  slots : List Nat := []
  cb : List Byte := []
  started : List Nat := []
  doneNodes : List Nat := []
  left : Map Nat := []
  failed : Option ErrRec := none
  nsw : W16 := 0
  ring : Option Nat := none
  relayed : List Nat := []
  attempt : Nat := 0
deriving DecidableEq, Repr

/-- Kinds of service (R111). -/
structure Svc where
  fn : Nat := 0
  ctx : Nat := 0
  vd : Nat := 0
  scoring : Bool := false
  kvFormat : Nat := 1
  draftMode : Nat := 0
  draftCap : Nat := 0
  lookupN : Nat := 0
  vocab : Nat := 2
  nLayers : Nat := 1
  nKvHeads : Nat := 1
  headDim : Nat := 16
  contextMax : Nat := 16
  liveMax : Nat := 1
  pageBytes : Nat := 4096
  pagePool : Nat := 0
  pageCount : Nat := 2
  stepTokens : Nat := 16
  stepSeqs : Nat := 1
  prefillChunk : Nat := 16
  prefillReserve : Nat := 0
  admitHeadroom : Nat := 0
  seqTable : Nat := 0
  pageList : Nat := 0
  tokLog : Nat := 0
  mainRoutine : Nat := 0
  scoreBatch : Nat := 1
  scoreWindow : Nat := 0
  inputBytes : Nat := 1
  outputBytes : Nat := 1
deriving DecidableEq, Repr

/-- Stages of a service's step machine (R127). -/
inductive StepSt where
  | wait | plan | run | sample | commit | boundary | held
deriving DecidableEq, Repr

/-- A GENERATE request's parameters (R115). -/
structure GenReq where
  entry : List Byte := []
  qp : Nat := 0
  reqId : Nat := 0
  flags : Nat := 0
  draftMax : Nat := 0
  promptLen : Nat := 0
  promptAddr : Nat := 0
  outAddr : Nat := 0
  maxNew : Nat := 0
  topK : Nat := 0
  seed : Nat := 0
  temperature : W32 := 0
  topP : W32 := 0
  minP : W32 := 0
  repPenalty : W32 := 0
  presPenalty : W32 := 0
  repWindow : Nat := 0
  maskAddr : Nat := 0
  maskStart : Nat := 0
  fence : Nat := 0xFFFFFFFF
  fenceValue : Nat := 0
  stops : List Nat := []
  stopSeq0 : List Nat := []
  stopSeq1 : List Nat := []
deriving DecidableEq, Repr

/-- States of a sequence (R125). -/
inductive SeqSt where
  | prefill | decode | preempted | parked | done
deriving DecidableEq, Repr

/-- A sequence (R125); `toks` mirrors the accepted tokens of the token log and `pages` the page list. -/
structure Seq where
  req : GenReq := {}
  svc : Nat := 0
  st : SeqSt := .prefill
  order : Nat := 0
  slot : Option Nat := none
  toks : List Nat := []
  prefilled : Nat := 0
  pages : List Nat := []
  drafts : List Nat := []
  mask : Nat := 0
  epoch : Nat := 0
  generated : Nat := 0
  accepted : Nat := 0
  stepToks : List Nat := []
  stepLps : List W32 := []
  finish : Nat := 0
  planned : Nat := 0
  plannedDrafts : Nat := 0
  sampleRows : Nat := 0
  draftRows : Nat := 0
  rowBase : Nat := 0
  pagesBefore : Nat := 0
  failing : Option Nat := none
deriving DecidableEq, Repr

/-- A SCORE request waiting or running (R146, R147). -/
structure ScoreReq where
  entry : List Byte := []
  qp : Nat := 0
  reqId : Nat := 0
  flags : Nat := 0
  inAddr : Nat := 0
  outAddr : Nat := 0
  deadline : Nat := 0
  fence : Nat := 0xFFFFFFFF
  fenceValue : Nat := 0
  late : Bool := false
  half : Bool := false
  windowOver : Bool := false
  order : Nat := 0
deriving DecidableEq, Repr

/-- A response entry that waits (R117, R123), with what follows its posting (R122). -/
structure RspEntry where
  bytes : List Byte := []
  fence : Option (Nat × Nat) := none
  err : Option ErrRec := none
deriving DecidableEq, Repr

/-- A service queue pair (R114, R265). -/
structure Qp where
  fn : Nat := 0
  ctx : Nat := 0
  service : Nat := 0
  reqLog2 : Nat := 4
  rspLog2 : Nat := 6
  reqRing : Nat := 0
  rspRing : Nat := 0
  liveQuota : Nat := 1
  pageQuota : Nat := 1
  admitDepth : Nat := 1
  retain : Bool := false
  vector : Nat := 0
  parkPool : Nat := 0xFFFF
  parkPort : Nat := 0xFF
  reqPage : Nat := 0
  rspPage : Nat := 0
  sh : Shake := {}
  rspProd : Nat := 0
  rspCons : Nat := 0
  overflow : List RspEntry := []
  lane : Nat := 0xFF
  laneNext : Option Nat := none
  queue : List GenReq := []
  cancels : List (Nat × Nat) := []
deriving DecidableEq, Repr

/-- A service with its batching state (R127–R129, R146). -/
structure Service where
  d : Svc := {}
  idx : Nat := 0
  st : StepSt := .wait
  seqs : Map Seq := []
  nextOrder : Nat := 0
  plan : List Nat := []
  launch : Option Nat := none
  attempt : Nat := 0
  steps : Nat := 0
  rrQp : Nat := 0
  scores : List ScoreReq := []
  batch : List ScoreReq := []
  dereg : Option PktRef := none
  outcome : Option (Option ErrRec) := none
  urgency : Nat := 0
  table : Nat := 0
  logits : Nat := 0
deriving DecidableEq, Repr

/-- STATE of a parking record (R275). -/
inductive ParkSt where
  | parking | parked | restoring | transferring
deriving DecidableEq, Repr

/-- An ownership record of a parked sequence, keyed by PARK_KEY (R275). -/
structure ParkRec where
  svc : Nat := 0
  seq : Nat := 0
  pool : Nat := 0
  port : Nat := 0
  epoch : Nat := 0
  handle : Nat := 0
  addr : Nat := 0
  st : ParkSt := .parking
  nextPool : Nat := 0
deriving DecidableEq, Repr

/-- The front end's device-wide state. -/
structure Gfe where
  rings : Map Ring := []
  admins : Map Ring := []
  pages : Map Endpoint := []
  routines : Map Routine := []
  programs : Map Program := []
  tasks : Map Task := []
  wqs : Map Wq := []
  launches : Map Launch := []
  nextLaunch : Nat := 1
  services : Map Service := []
  qps : Map Qp := []
  parks : Map ParkRec := []
  csqSel : Nat := 0
deriving DecidableEq, Repr

/-- Host objects of every function. -/
structure HostObj where
  ctxs : Map Ctx := []
  fences : Map Fence := []
  objs : Map MemObj := []
  refs : Map MemRef := []
  sets : Map CounterSet := []
deriving DecidableEq, Repr

/-- A function's registers (GFE, XLT, INT blocks) and the progress of a function reset (R343). -/
structure Fn where
  gfe : GfeFn := {}
  xlt : XltFn := {}
  int : IntFn := {}
  resetting : Bool := false
deriving DecidableEq, Repr

end Sys2Proof.Machine
end

