-- ==== Sys2Proof/Machine/CmpTypes.lean ====
section
/-! DEFINITION. State of composition, meters and the Amber chain (R243–R282, R479–R489). -/

namespace Sys2Proof.Machine

/-- States of a slice (R245). -/
inductive SliceSt where
  | carved
  | bound (vd : Nat)
  | marked (vd : Nat)
  | shared
  | releasing
deriving DecidableEq, Repr

/-- A slice (R244); `group` is the time-sharing group of R261 with quanta in ms. -/
structure Slice where
  cgs : BitVec 48 := 0
  pairs : BitVec 64 := 0
  ports : BitVec 24 := 0
  isShared : Bool := false
  st : SliceSt := .carved
  group : List (Nat × Nat) := []
  nextGroup : Option (List (Nat × Nat)) := none
  holder : Nat := 0
  quantumOver : Bool := false
deriving DecidableEq, Repr

/-- The pool: the enabled CG sites, the slices, the fenced sets, and the ports held aside (R243). -/
structure Pool where
  cgReady : BitVec 48 := 0
  pairReady : BitVec 64 := 0
  slices : Map Slice := []
  cgFenced : BitVec 48 := 0
  pairFenced : BitVec 64 := 0
  portAside : BitVec 24 := 0xFFFFFF
deriving DecidableEq, Repr

/-- Stages of an open composition request or posture change. -/
inductive ReqStage where
  | accepted | memory | compute | held
deriving DecidableEq, Repr

/-- An open composition request (R251, R252). -/
structure OpenReq where
  op : Nat := 0
  slice : Nat := 0
  ways0 : BitVec 16 := 0
  ways1 : BitVec 16 := 0
  stage : ReqStage := .accepted
  lane : Nat := 0
  cgs : BitVec 48 := 0
  sealed : Bool := false
  group : List (Nat × Nat) := []
deriving DecidableEq, Repr

/-- The open meter window of a VD, in picoseconds and bytes (R269, R270). -/
structure Meter where
  window : Nat := 0
  s0Begin : Nat := 0
  cgPs : Nat := 0
  sparePs : Nat := 0
  enginePs : Nat := 0
  pairPs : Nat := 0
  portPs : Nat := 0
  hbmRd : Nat := 0
  hbmWr : Nat := 0
  linkTx : Nat := 0
  linkRx : Nat := 0
  hostBytes : Nat := 0
  steps : Nat := 0
  compGen : Nat := 0
deriving DecidableEq, Repr

/-- What waits for an Amber append (R484): a completion entry of a function's ring, a response of a queue pair, the end of a
context by its key, or the end of a VD, and an unseal. -/
inductive Deferred where
  | none
  | cqe (fn : Nat) (ring : RingRef) (c : Cqe)
  | rsp (qp : Nat) (r : RspEntry)
  | destroyDone (ctx : Nat)
  | closeVd (vd : Nat)
  | unsealDone (vd : Nat)
deriving DecidableEq, Repr

/-- A record whose append waits for a free slot under HOLD (R484). -/
structure HeldAppend where
  type : Nat := 0
  ctx : Nat := 0xFFFF
  payload : List Byte := []
  after : Deferred := .none
deriving DecidableEq, Repr

/-- A queued checkpoint leaf (R486). -/
structure Leaf where
  body : List Byte := []
  digest : List Byte := []
deriving DecidableEq, Repr

/-- A tenant's push ring (R483). -/
structure PushRing where
  en : Bool := false
  base : Nat := 0
  log2 : Nat := 0
  vector : Nat := 0
  pos : Nat := 0
  cons : Nat := 0
deriving DecidableEq, Repr

/-- A VD's Amber chain (R479–R486): `signedNext` and `signedHash` are its last signed head, `jumps` the SEQ ranges that no
record took at a resume. -/
structure Chain where
  opened : Bool := false
  closed : Bool := false
  seq : Nat := 0
  head : List Byte := []
  creation : Nat := 0
  dpa : Nat := 0
  sizeLog2 : Nat := 0
  drop : Bool := false
  cons : Nat := 0
  tail : Nat := 0
  loads : List (List Byte) := []
  buffer : List (List Byte) := []
  lost : Option (Nat × Nat) := none
  gaps : Nat := 0
  held : List HeldAppend := []
  push : PushRing := {}
  leaves : List Leaf := []
  lastLeaf : Nat := 0
  ckptNo : Nat := 0
  signedNext : Nat := 0
  signedHash : List Byte := []
  loadChain : List Byte := []
  reserved : Nat := 0
  jumps : List (Nat × Nat) := []
  hostcor : Option (Nat × Nat × Nat) := none
deriving DecidableEq, Repr

/-- A virtual device (R246, R282). -/
structure Vd where
  live : Bool := false
  tag : BitVec 12 := 0
  posSealed : Bool := false
  keyGen : Nat := 0
  spares : List Nat := []
  lanes : Map (List Nat) := []
  held : Bool := false
  holdAccept : Bool := false
  teardown : Bool := false
  gen : Nat := 0
  lastStatus : Nat := 0
  req : Option OpenReq := none
  posture : Option Bool := none
  ways0 : BitVec 16 := 0
  ways1 : BitVec 16 := 0
  leaving : Bool := false
  changed : Bool := false
  spareUsed : Bool := false
  laneChanged : Bool := false
  vector : Nat := 0
  noticeEn : Bool := false
  leave : BitVec 64 := 0
  cls : Nat := 0
  need : Nat := 0
  hold : Nat := 128
  telemetry : Bool := false
  rrSvc : Nat := 0
  meter : Meter := {}
deriving DecidableEq, Repr

/-- Composition parameters (R279) and tags (R79, R85). -/
structure Cmp where
  vds : Map Vd := []
  residentWait : Nat := 2000
  liftTimeout : Nat := 1000
  meterPeriod : Nat := 60
  tagsLive : List Nat := [1]
  tagsRetired : List Nat := []
  nextTag : Nat := 2
  sweeping : Option (List Nat) := none
  tagWaiters : List (Nat × Bool × Bool) := []
  keyGen : Nat := 0
  capGen : Nat := 0
deriving DecidableEq, Repr

end Sys2Proof.Machine
end

