-- ==== Sys2Proof/Machine/LinkTypes.lean ====
section
/-! DEFINITION. State of the PCIe host link and its functions (R394–R415). -/

namespace Sys2Proof.Machine

/-- An MSI-X table entry; every vector is masked after reset (R405). -/
structure MsixVec where
  addr : Nat := 0
  data : W32 := 0
  masked : Bool := true
deriving DecidableEq, Repr

/-- A DOE mailbox (R413): the responses to be read, the Dunir message that waits, and the refused objects. -/
structure DoeBox where
  dunir : Option (List Byte) := none
  rsp : List (List Byte) := []
  intEn : Bool := false
  intStatus : Bool := false
  refused : Nat := 0
deriving DecidableEq, Repr

/-- Power states of R401. -/
inductive DevPm where
  | d0 | d3hot
deriving DecidableEq, Repr

/-- A PCIe function's configuration state; key 64 of the table is the companion function C1 (R397). `numVfs` and `ariHier`
are those of its SR-IOV capability. -/
structure PcieFn where
  msixEn : Bool := false
  msixMask : Bool := false
  vecs : Map MsixVec := []
  pba : List Nat := []
  dvBase : Nat := 0
  vfEn : Bool := false
  numVfs : Nat := 0
  ariHier : Bool := false
  atsEn : Bool := false
  priEn : Bool := false
  pm : DevPm := .d0
  doe : DoeBox := {}
  aerUr : Bool := false
  aerPoisonEgress : Bool := false
  aerPoisonRx : Bool := false
  aerTimeout : Bool := false
  sealedDrops : Nat := 0
deriving DecidableEq, Repr

/-- One half of the controller (R394, R396, R414): its rate in units of 0.5 GT/s, its width, and the keys of its IDE
streams. -/
structure Half where
  up : Bool := false
  rate : Nat := 0
  width : Nat := 0
  flit : Bool := false
  ideKeys : List (Nat × List Byte) := []
deriving DecidableEq, Repr

/-- Completion statuses of the base specification that this manual names. -/
inductive CplStatus where
  | success | unsupported | abort | retry
deriving DecidableEq, Repr

/-- A completion that the device returned: `poison` is the EP bit. -/
structure Cpl where
  fn : Nat := 0
  status : CplStatus := .success
  poison : Bool := false
  data : List Byte := []
deriving DecidableEq, Repr

/-- The host link; `cpl` is the completion returned last. -/
structure Pcie where
  fns : Map PcieFn := []
  halves : List Half := [{}, {}]
  split : Bool := false
  splitPoint : Nat := 31
  bar4Log2 : Nat := 36
  vfBar4Log2 : Nat := 36
  c1Bar4Log2 : Nat := 36
  subsystem : Nat := 0
  cpl : Option Cpl := none
  sentMsgs : List (Nat × Nat × Nat × Nat) := []
deriving DecidableEq, Repr

end Sys2Proof.Machine
end

