-- ==== Sys2Proof/Machine/MemTypes.lean ====
section
/-! DEFINITION. State of device memory, the last-level cache and coherence (R149–R175). -/

namespace Sys2Proof.Machine

/-- ECC layouts of R154; `scrubbed` is the key-less state of R162. -/
inductive Layout where
  | standard | strong | sealed | scrubbed
deriving DecidableEq, Repr

/-- Metadata of a 64-byte unit that differs from the scrubbed state: `nz` says Z = 0, and POISON (R154, R162). -/
structure UnitMeta where
  nz : Bool := false
  poison : Bool := false
deriving DecidableEq, Repr

/-- An ECC conversion of one channel: watermark, old and new layout (R157). -/
structure Conv where
  mark : Nat := 0
  old : Layout := .standard
  new : Layout := .standard
deriving DecidableEq, Repr

/-- A channel: its layout, a running and a queued conversion, error counts, and per row the S0 counts of its corrections of the
last 24 h (R156, R157); a row number is the pseudo-channel × 2^32 plus its row. -/
structure Chan where
  layout : Layout := .scrubbed
  conv : Option Conv := none
  queued : Option Layout := none
  corr : Nat := 0
  uncorr : Nat := 0
  rows : Map (List Nat) := []
  degrading : List Nat := []
  ecs : Nat := 0
  macFail : Nat := 0
  fenced : Bool := false
deriving DecidableEq, Repr

/-- A channel pair: the key generation loaded in its controllers and its zero-fill state (R158, R163). -/
structure PairMem where
  keyGen : Option Nat := none
  filling : Bool := false
deriving DecidableEq, Repr

/-- The training record of a stack (R153). -/
structure TrainRec where
  stackId : Nat := 0
  bin : Nat := 0
  temp : Int := 0
  pins : List Nat := []
  fwMajor : Nat := 0
  crc : W32 := 0
deriving DecidableEq, Repr

/-- A stack: bin, source of training, patrol period and pass, on-die error-check-and-scrub counts (R151–R153, R161). -/
structure Stack where
  trained : Bool := false
  bin : Nat := 0
  fromRecord : Bool := false
  serial : Nat := 0
  patrolHours : Nat := 24
  patrolOn : Bool := false
  patrolLate : Bool := false
  patrolPasses : Nat := 0
  record : Option TrainRec := none
  selfRefresh : Bool := false
deriving DecidableEq, Repr

/-- Directory states of R167. -/
inductive DState where
  | i | s | e | m | o
deriving DecidableEq, Repr

/-- An open transaction of a home (R170). -/
structure Txn where
  req : CohReq := .readShared
  core : Nat := 0
  invLeft : List Nat := []
  fwd : Option Nat := none
  answered : Bool := false
  escalated : Bool := false
  bcast : Bool := false
deriving DecidableEq, Repr

/-- An LLC line with its directory entry (R167); `ptrs` are the valid pointers, the owner first in E, M and O. -/
structure LlcLine where
  valid : Bool := false
  tag : BitVec 12 := 0
  dst : DState := .i
  dirty : Bool := false
  ptrs : List Nat := []
  ovf : Bool := false
  txn : Option Txn := none
  rsv : Option (Nat × CohReq) := none
  binvLeft : List Nat := []
  poison : Bool := false
  data : LineData := 0
deriving DecidableEq, Repr

/-- Why a home refused a request (R169). -/
inductive NackWhy where
  | busy | notSharer | reserved
deriving DecidableEq, Repr

/-- A coherence message in flight (R169). -/
inductive CohMsg where
  | request (k : CohReq) (line core : Nat) (esc : Bool)
  | snoop (k : SnoopKind) (line core req : Nat)
  | invAck (line core : Nat) (dirty : Option (LineData × Bool))
  | fwdDone (line core : Nat) (dirty : Bool)
  | snoopMiss (line core : Nat)
  | data (line core : Nat) (st : Moesi) (d : LineData) (poison : Bool)
  | grantM (line core : Nat)
  | compAck (line core : Nat)
  | nack (line core : Nat) (why : NackWhy)
  | wbAck (line core : Nat)
  | flushDone (core die tag : Nat)
deriving DecidableEq, Repr

/-- Device memory, its controllers and stacks, both LLC halves and the coherence messages in flight. -/
structure Mem where
  hbm : List Host.Cell := []
  units : Map UnitMeta := []
  chans : Map Chan := []
  pairs : Map PairMem := []
  stackUnits : Map Stack := []
  llc : Map LlcLine := []
  llcDrops : List Nat := [0, 0]
  scope : List (Nat × Nat × Nat) := []
  msgs : List CohMsg := []
  macFails : List Nat := []
  retryGap : Nat := 32
  convShare : Nat := 10
  degradeAt : Nat := 16
deriving DecidableEq, Repr

end Sys2Proof.Machine
end

