-- ==== Sys2Proof/Machine/NetTypes.lean ====
section
/-! DEFINITION. State of the on-chip network: Relay groups and packets, multicasts, wheels and link frames
(R212–R242). -/

namespace Sys2Proof.Machine

/-- A Relay group that a launch set up (R231): `n` contributors in all, of which `loc` run here with indices from `base`
on. For a peer group (R388, R389) `root` says whether this device converts, `inst` is the INSTANCE, and `members` are
the ports and sources that peer partials came from. -/
structure RelayGroup where
  launch : Nat := 0
  node : Nat := 0
  type : Nat := 0
  tree : Bool := false
  n : Nat := 2
  cores : List Nat := []
  entries : List Nat := []
  peer : Nat := 0
  loc : Nat := 2
  base : Nat := 0
  root : Bool := true
  inst : Nat := 0
  egress : Nat := 0
  members : List (Nat × Nat) := []
  written : List Nat := []
  sent : List (Nat × Nat) := []
deriving DecidableEq, Repr

/-- A Relay packet (R232): its coverage is COUNT for order ANY and the node (level, index) for TREE. -/
structure RelayPkt where
  group : Nat := 0
  block : Nat := 0
  seg : Nat := 0
  count : Nat := 1
  level : Nat := 0
  idx : Nat := 0
  vals : List Acc := []
deriving DecidableEq, Repr

/-- Packets of one segment held at a router, or at the destination's sink. -/
structure RelayHold where
  router : Nat := 0
  pkts : List RelayPkt := []
deriving DecidableEq, Repr

/-- A multicast in flight (R234–R236): the targets asked for, those left after the check at issue, copies on their way,
answers not yet received, acknowledged targets, grants asked for and given, and retries on their way. -/
structure Mcast where
  sender : Nat := 0
  vd : Nat := 0
  tag : BitVec 12 := 0
  payload : List Byte := []
  dest : McDest := .facet 0
  asked : List Nat := []
  targets : List Nat := []
  copies : List Nat := []
  answers : List (Nat × Bool) := []
  acked : List Nat := []
  granted : List Nat := []
  retries : List Nat := []
deriving DecidableEq, Repr

/-- A wheel of R221 with its shadow copy and AUTO mark (R222, R223). -/
structure Wheel where
  slots : List Nat := List.replicate 256 0x8000
  shadow : Option (Nat × List Nat) := none
  auto : Bool := false
  len : Nat := 8
deriving DecidableEq, Repr

/-- The class settings of a VD (R218). -/
structure VdTc where
  bulk : Nat := 3
  sprint : Nat := 0
  move : Nat := 6
  allowed : Nat := 0x88
deriving DecidableEq, Repr

/-- Queue shares of one class at a channel (R225). -/
structure Share where
  resvRd : Nat := 0
  resvWr : Nat := 0
  capRd : Nat := 64
  capWr : Nat := 32
deriving DecidableEq, Repr

/-- The default shares of a channel (R225). -/
def defaultShares : List Share :=
  (List.range 8).map (fun t => if t = 0 ∨ t = 4 then { resvRd := 8, resvWr := 4 }
    else if t = 1 ∨ t = 2 then { resvRd := 4, resvWr := 2 } else {})

/-- The default link frame: the positions of R219 for TC0 to TC7. -/
def defaultFrame : List Nat := [0, 0, 1, 1, 2, 3, 3, 3, 3, 3, 3, 4, 4, 5, 6, 7]

/-- Kinds of classes: 0 GUARANTEED, 1 ELASTIC, 2 BEST_EFFORT; the defaults of R219. -/
def defaultKinds : List Nat := [1, 1, 1, 1, 0, 1, 2, 2]

/-- The wheels after reset: 0 to 15 are the controllers', AUTO; 16 to 31 are the bridge ports' (R221, R223). -/
def defaultWheels : Map Wheel := (List.range 32).map (fun k => (k, if k < 16 then { auto := true } else { len := 16 }))

/-- The on-chip network. -/
structure Net where
  groups : Map RelayGroup := []
  pkts : List (Nat × RelayPkt) := []
  holds : List RelayHold := []
  relayDiscards : Nat := 0
  relayWait : Nat := 4096
  mcTimeout : Nat := 1000
  mcasts : Map Mcast := []
  nextMc : Nat := 1
  kinds : List Nat := defaultKinds
  frame : List Nat := defaultFrame
  routerFrame : Map (List Nat) := []
  vdTc : Map VdTc := []
  wheels : Map Wheel := defaultWheels
  shares : Map (List Share) := []
  urgency : Map Nat := []
  chanBytes : Map (List Nat) := []
  txnTimeouts : Nat := 0
  fenced : List Nat := []
  faulty : List Nat := []
  halted : List Nat := []
  droppedPkts : Nat := 0
  unroutable : Bool := false
deriving DecidableEq, Repr

end Sys2Proof.Machine
end

