-- ==== Sys2Proof/Machine/TalkoTypes.lean ====
section
/-! DEFINITION. State of the Talko optical fabric and of the Lift queues (R273, R274, R355–R393). -/

namespace Sys2Proof.Machine

/-- A transport frame before encryption (R377, R378). -/
structure Frame where
  type : Nat := 0
  vc : Nat := 0
  ttl : Nat := 8
  dst : Nat := 0
  src : Nat := 0
  tag : Nat := 0
  status : Nat := 0
  addr : Nat := 0
  aux : Nat := 0
  payload : List Byte := []
deriving DecidableEq, Repr

/-- A resolved mode record (R372); `spare` is the lane left over, if any. -/
structure LinkMode where
  version : Nat := 0
  map : Nat := 0
  active : Nat := 0
  parity : Bool := false
  lowFec : Bool := false
  enc : Bool := false
  cold : Bool := false
  lowId : Nat := 0
  highId : Nat := 0
  spare : Option Nat := none
deriving DecidableEq, Repr

/-- States of a port (R393). -/
inductive PortSt where
  | off | training | negotiating | keying | up | renegotiating | down
deriving DecidableEq, Repr

/-- A link message that a port has to send or has sent (R364). -/
inductive LinkMsg where
  | ack (seq : Nat)
  | nak (seq : Nat)
  | credit (freed : List Nat)
  | lane (confirm : Bool) (failed seq : Nat)
  | echo (reply : Bool) (cycle turn : Nat)
  | caps (c : Caps)
  | commit (record : List Byte)
  | spdm (last : Bool) (bytes : List Byte)
  | down (reason : Nat)
deriving DecidableEq, Repr

/-- A DATA block: its SEQ and the frames that end in it, with the SEQ of the block each began in (R362, R363). -/
structure DataBlock where
  seq : Nat := 0
  frames : List (Nat × Frame) := []
deriving DecidableEq, Repr

/-- What a read unit or write tag of a port belongs to: a Lift operation or a parking record, with the byte offset. -/
structure UnitRef where
  op : Nat := 0
  off : Nat := 0
deriving DecidableEq, Repr

/-- A port (R355–R376, R393); `calBad` are the lanes that failed calibration at start. -/
structure Port where
  st : PortSt := .off
  reason : Nat := 0
  trained : Nat := 0
  calBad : Nat := 0
  laneMap : List Nat := []
  spare : Option Nat := none
  spareUsed : Bool := false
  laneDown : Option Nat := none
  reach : Nat := 0
  echoed : Bool := false
  peerCaps : Option Caps := none
  mode : Option LinkMode := none
  peerRecord : List Byte := []
  attempts : Nat := 0
  keys : List Byte := []
  session : Bool := false
  spdmIn : List Byte := []
  keyUpdate : Bool := false
  keyGen : Nat := 0
  txCount : Nat := 0
  rxCount : Nat := 0
  tagFails : List Nat := []
  rx : List Frame := []
  rxSkip : Option Nat := none
  sending : Option (Frame × Nat × Nat) := none
  txSeq : Nat := 0
  acked : Nat := 0
  replay : List DataBlock := []
  replaying : Option Nat := none
  naks : Nat × Nat := (0, 0)
  rxNext : Nat := 0
  nakSent : Option Nat := none
  sinceLink : Nat := 0
  credits : List Nat := [0, 0, 0, 0]
  used : List Nat := [0, 0, 0, 0]
  freed : List Nat := [0, 0, 0, 0]
  queue : List Frame := []
  sentMsgs : List LinkMsg := []
  reads : Map UnitRef := []
  writes : Map UnitRef := []
  nextTag : Nat := 0
  errLane : Bool := false
  errLaser : Bool := false
  errTag : Bool := false
  errNeg : Bool := false
  errLink : Bool := false
  replays : Nat := 0
  uncorr : Nat := 0
  dropForward : Nat := 0
  dropPeer : Nat := 0
  encPolicy : Nat := 2
  fecPolicy : Nat := 0
  peerPolicy : List Byte := List.replicate 64 0
deriving DecidableEq, Repr

/-- A laser line of a module: its settings, the bad readings in a row, and whether it failed (R359, R360). -/
structure LaserLine where
  trim : Int := 0
  power : Nat := 160
  bias : Nat := 150
  bad : Nat := 0
  failed : Bool := false
deriving DecidableEq, Repr

/-- A laser-source module of a photonic tile (R358–R360). -/
structure Laser where
  enabled : Bool := false
  locked : Bool := false
  statusBad : Nat := 0
  failed : Bool := false
  lines : List LaserLine := List.replicate 9 {}
deriving DecidableEq, Repr

/-- A Lift queue (R273). -/
structure LiftQ where
  fn : Nat := 0
  ctx : Nat := 0
  port : Nat := 0
  log2 : Nat := 4
  base : Nat := 0
  report : Nat := 0
  reportSeq : Nat := 0
  page : Nat := 0
  sh : Shake := {}
deriving DecidableEq, Repr

/-- What a transport operation serves: a Lift queue, or the parking or restoring of a sequence (R273, R276). -/
inductive OpOwner where
  | queue (q : Nat)
  | park (key : Nat)
  | restore (key : Nat)
deriving DecidableEq, Repr

/-- A transport operation of the device: `left` are its outstanding offsets, `ok` those that succeeded (R274, R319,
R384). `waiting` marks a read without its units or an LFLUSH behind earlier writes; `next` is the first offset not issued. -/
structure LiftOp where
  owner : OpOwner := .queue 0
  fn : Nat := 0
  ctx : Nat := 0
  port : Nat := 0
  op : Nat := 0
  pool : Nat := 0
  len : Nat := 0
  addr : Nat := 0
  va : Nat := 0
  epoch : Nat := 0
  fence : Option (Nat × Nat) := none
  waiting : Bool := false
  next : Nat := 0
  left : List Nat := []
  ok : List Nat := []
  failed : Option ErrRec := none
deriving DecidableEq, Repr

/-- A routing entry (R380). -/
structure Route where
  ports : Nat := 0
  valid : Bool := false
  direct : Bool := false
deriving DecidableEq, Repr

/-- An export window (R385); an all-zero window is unused. -/
structure Window where
  vd : Nat := 0
  base : Nat := 0
  len : Nat := 0
  dpa : Nat := 0
  sources : List Nat := []
deriving DecidableEq, Repr

/-- A peer group (R388): `instance_` counts the launches accepted for it. -/
structure PeerGroup where
  group : Nat := 0
  vd : Nat := 0
  nDev : Nat := 0
  rank : Nat := 0
  root : Nat := 0
  egress : Nat := 0
  counts : List Nat := []
  instance_ : Nat := 0
deriving DecidableEq, Repr

/-- The Talko fabric: a frame a partner receives stands in `sent` with its port. -/
structure Talko where
  devId : Nat := 0xFFFF
  ports : Map Port := []
  routes : Map Route := []
  windows : Map Window := []
  peers : Map PeerGroup := []
  lasers : Map Laser := []
  liftqs : Map LiftQ := []
  ops : Map LiftOp := []
  nextOp : Nat := 1
  peerWait : Nat := 10000
  portSel : Nat := 0
  sent : List (Nat × Frame) := []
deriving DecidableEq, Repr

/-- A phase hint of a VD (R318, R435). -/
structure Hint where
  vd : Nat := 0
  phase : Nat := 1
  level : Nat := 0
  start : Nat := 0
  stop : Nat := 0
  active : Bool := false
deriving DecidableEq, Repr

end Sys2Proof.Machine
end

