-- ==== Sys2Proof/Machine/PowTypes.lean ====
section
/-! DEFINITION. State of power, clocks and thermal control (R417–R447). -/

namespace Sys2Proof.Machine

/-- The parameters of R444: a written set, and the set in force. -/
structure PwrParams where
  opCap : Nat := 2400
  mgrCap : Nat := 2200
  laserAllow : Nat := 0
  fixed : Bool := false
  budgets : Map Nat := []
  i10 : List Nat := List.replicate 11 90
  i1ms : List Nat := List.replicate 11 80
  boostEn : Bool := true
  glideFrac : Nat := 14
  glideLow : Nat := 8
  glideHold : Nat := 5
  glideSlope : Nat := 25
  memFloor : W32 := 0x3F19999A
  alarmMask : Nat := 0x1FF
deriving DecidableEq, Repr

/-- The power state of a CG site: `step` counts 12.5 MHz, `goal` is a change of operating point under way, `thrift` the
duty of R430, `thr` says that the CG was throttled in the window, `prior` and `glide` the currents of R433 in mA. -/
structure CgPow where
  step : Nat := 32
  volt : Nat := 600
  goal : Option Nat := none
  duty : Nat := 16
  shed : Nat := 16
  capLimited : Bool := false
  therm : Bool := false
  thr : Bool := false
  prior : Nat := 0
  glide : Nat := 0
  ramp : Bool := false
deriving DecidableEq, Repr

/-- A thermal sensor: its last good reading in 0.1 °C, discards in a row, and the bad mark (R438). -/
structure Sensor where
  temp : Int := 0
  discards : Nat := 0
  bad : Bool := false
deriving DecidableEq, Repr

/-- A rail of R422 as its VR and its controller report it (R423, R438–R440, R447); `avsMa` is the last AVSBus current that was
not discarded. -/
structure Rail where
  current : Nat := 0
  avsMa : Nat := 0
  setMv : Nat := 0
  readMv : Nat := 0
  power : Nat := 0
  gain : Nat := 1000
  clamped : Nat := 0
  timeouts : Nat := 0
  off : Nat := 0
  voltBad : Bool := false
  pmbusFails : Nat := 0
  comm : Bool := true
  proxyOnly : Bool := false
  thrNow : Bool := false
  thrCount : Nat := 0
  thrLast : Nat := 0
  charge10 : Nat := 0
  hit10 : Bool := false
deriving DecidableEq, Repr

/-- The state of the reference clock (R421). -/
inductive RefClk where
  | valid | alarm | lost
deriving DecidableEq, Repr

/-- The figures of one VD over the last window (R544, object 7003.02). -/
structure VdPow where
  minMhz : Nat := 0
  maxMhz : Nat := 0
  throttledUs : Nat := 0
  hintsReplaced : Nat := 0
deriving DecidableEq, Repr

/-- Power and clocks. `cycles` counts each domain in 64ths of a cycle, `log` its changes of frequency in steps of 12.5 MHz,
`written` are the parameters as the objects hold them and `cur` those in force. -/
structure Pow where
  written : PwrParams := {}
  cur : PwrParams := {}
  locked : Bool := false
  cycles : Map Nat := []
  log : List (Nat × Nat × Nat) := []
  cgs : Map CgPow := []
  rails : Map Rail := []
  sensors : Map Sensor := []
  vds : Map VdPow := []
  window : Nat := 0
  board : List Nat := []
  capUnmet : Bool := false
  shedding : Bool := false
  alarm : Nat := 0
  throttleIn : Bool := false
  ref : RefClk := .valid
  tripped : Bool := false
  hot : List Nat := []
  hbmHot : List Nat := []
  ticks : Nat := 0
  railSel : Nat := 0
  cgSel : Nat := 0
deriving DecidableEq, Repr

/-- Performance tracing on one die (R547): records by index, the ring's NEXT, and the readouts of 9004.02. -/
structure TraceDie where
  en : Bool := false
  next : Nat := 0
  wrapped : Bool := false
  stopWhy : Nat := 0
  lost : Nat := 0
  s0Start : Nat := 0
  s0Stop : Nat := 0
  recs : Map (List Byte) := []
deriving DecidableEq, Repr

/-- Tracing: the selection of 9004.01, and per core the A-cycle of its last record and whether it dropped events since. -/
structure Trace where
  dies : List TraceDie := [{}, {}]
  cgMask : BitVec 48 := 0
  events : Nat := 0
  last : Map Nat := []
  dropped : List Nat := []
deriving DecidableEq, Repr

end Sys2Proof.Machine
end

