-- ==== Sys2Proof/Machine/SecTypes.lean ====
section
/-! DEFINITION. State of Garnet: the life cycle, the key store, signing, sessions, and what OTP and boot flash hold
(R448–R503). -/

namespace Sys2Proof.Machine

/-- A key slot (R454); `handle` numbers a model key. -/
structure KeySlot where
  key : List Byte := []
  bits : Nat := 0
  type : Nat := 0
  owner : Nat := 0xFF
  policy : Nat := 0
  keyGen : Nat := 0
  model : List Byte := []
  handle : Nat := 0
deriving DecidableEq, Repr

/-- The fuses (R448–R463): life-cycle code, transitions, refurbishments, image counters, revocation bits, and the count of
used top HSS trees. -/
structure Otp where
  lc : Nat := 2
  transitions : Nat := 2
  refurb : Nat := 0
  svn : List Nat := [0, 0, 0, 0]
  revoked : List Nat := []
  hssTop : Nat := 0
deriving DecidableEq, Repr

/-- A firmware image of a set (R459) with the outcomes of the checks over its bytes (R460). -/
structure Image where
  cls : Nat := 1
  version : Nat := 1
  svn : Nat := 0
  keyId : Nat := 0
  digest : List Byte := []
  keyHash : Bool := true
  ecdsa : Bool := true
  hss : Bool := true
  body : Bool := true
deriving DecidableEq, Repr

/-- An image set (R495); `tried` says that a trial set was chosen at a start, and `streak` is one more than the number of the
start at which the set last reached ready. -/
structure ImageSet where
  valid : Bool := false
  seq : Nat := 0
  trial : Bool := false
  rejected : Bool := false
  tried : Bool := false
  images : List Image := []
  streak : Nat := 0
deriving DecidableEq, Repr

/-- The set a device leaves the factory with. -/
def factorySet : ImageSet :=
  { valid := true, seq := 1, images := [{ cls := 1 }, { cls := 2 }, { cls := 3 }, { cls := 4 }] }

/-- The next-start policy state of a stack (R502). -/
structure StackPol where
  bin : Nat := 0
  starts : Nat := 0
deriving DecidableEq, Repr

/-- Boot flash (R494), apart from composition and training records, which stand with their units. `objs` are the persistent
objects committed so far by object and row, `raw` the rows written to the inactive set's region. -/
structure Flash where
  sets : List ImageSet := [factorySet, {}]
  raw : Map (List Byte) := []
  journal : Map (List Byte) := []
  nextEntry : Nat := 0
  startNo : Nat := 0
  hssRes : Nat := 0
  batchNo : Nat := 0
  objs : Map (List Byte) := []
  repairs : List (Nat × Nat) := []
  stackPol : Map StackPol := []
deriving DecidableEq, Repr

/-- Reasons of an SPDM ERROR response. -/
inductive SpdmErr where
  | busy | unexpected | invalid | unsupported | sessionLimit | unspecified
deriving DecidableEq, Repr

/-- An SPDM response (R467), with the pair of signatures where it is signed (R462). -/
inductive SpdmRsp where
  | version (vs : List Nat)
  | capabilities
  | algorithms
  | digests (ds : List (List Byte))
  | certificate (portion : List Byte) (left : Nat)
  | challengeAuth (slot : Nat) (sig : List Byte × List Byte)
  | measurements (blocks : List (List Byte)) (sig : Option (List Byte × List Byte))
  | keyExchange (session : Nat) (sig : List Byte × List Byte)
  | finish (session : Nat)
  | keyUpdateAck (session : Nat)
  | heartbeatAck (session : Nat)
  | endSessionAck (session : Nat)
  | chunkSendAck (chunk : Nat)
  | chunkResponse (chunk : Nat)
  | error (e : SpdmErr)
deriving DecidableEq, Repr

/-- The SPDM connection of one requester: how far negotiation has come, its minor version, and its sessions with whether FINISH
came and their KEY_UPDATE generation. `large` assembles a chunked message. -/
structure SpdmConn where
  stage : Nat := 0
  minor : Nat := 0
  sessions : Map (Bool × Nat) := []
  large : List Byte := []
  chunks : Nat := 0
deriving DecidableEq, Repr

/-- An unseal (R477). -/
structure Unseal where
  st : Nat := 0
  ctx : Nat := 0
  handle : Nat := 0
  src : Nat := 0
  dst : Nat := 0
  seq : Nat := 0
deriving DecidableEq, Repr

/-- Garnet. `shared` and `tokens` are the buckets of R464, `failedSlots` the slots whose TAG failed a check at this start
(R456), `lower` the next lower HSS index, `spdmOut` the response sent last, `postSt` the STATE of 4002.01 and `postWhy` the
reason of a refusal. -/
structure Sec where
  shared : Nat := 32
  tokens : Map Nat := []
  slots : Map KeySlot := []
  rootOk : Bool := false
  rngFault : Bool := false
  tableFault : Bool := false
  lmsLow : Bool := false
  slotFail : Nat := 0
  slotValid : Bool := false
  failedSlots : List Nat := []
  amberSel : Nat := 0
  lower : Nat := 0
  signPeriod : Nat := 30
  nonce : List Byte := []
  conns : List (SpdmEnd × SpdmConn) := []
  spdmOut : Option (SpdmEnd × SpdmRsp) := none
  postSt : Map Nat := []
  postWhy : Map Nat := []
  unseals : Map Unseal := []
deriving DecidableEq, Repr

/-- Start-up and recovery. `done` are the steps that ended, `kind` and `cause` the reset that led to this start, `active`
the set in use. -/
structure Boot where
  pwrOk : Bool := false
  devRst : Bool := true
  perst0 : Bool := true
  perst1 : Bool := true
  running : Bool := false
  done : List Nat := []
  halted : Bool := false
  ready : Bool := false
  kind : Nat := 1
  cause : Nat := 1
  active : Nat := 0
  beryl : Map Nat := []
  coreResets : Map (List Nat) := []
deriving DecidableEq, Repr

/-- A sample record (R519), kept as the slot it was written to: die, SAMPLE_SEQ, the VD its core had, and its bytes. -/
structure Sample where
  die : Nat := 0
  seq : Nat := 0
  vd : Nat := 64
  bytes : List Byte := []
deriving DecidableEq, Repr

/-- Samples and dump regions (R518). -/
structure Dump where
  region : List Nat := [0, 0]
  next : List Nat := [0, 0]
  sram : List Sample := []
  slots : List Sample := []
deriving DecidableEq, Repr

/-- A mailbox of the MBX block (R534, R535). -/
structure Mbx where
  vector : Nat := 0
  irqEn : Bool := false
  busy : Bool := false
  done : Bool := false
  ignored : Nat := 0
  req : Map Byte := []
  rsp : List Byte := []
deriving DecidableEq, Repr

/-- A response kept for RETRY (R532): requester, TAG, the S0 count it was given at, and the response. -/
structure Kept where
  who : Nat := 0
  tag : Nat := 0
  at_ : Nat := 0
  rsp : List Byte := []
deriving DecidableEq, Repr

/-- Dunir: mailboxes, MCTP messages not yet whole, kept responses, MCTP and Vendor responses, persistent writes not yet
committed, and the written values of objects that act at the next cold start only (9002.01, 9002.02). -/
structure Dun where
  mbx : Map Mbx := []
  parts : Map (List Byte) := []
  kept : List Kept := []
  out : List (Nat × List Byte) := []
  commits : List (Nat × List Byte) := []
  flashFault : Bool := false
  vals : Map (List Byte) := []
deriving DecidableEq, Repr

/-- Pins of R553 that carry state of their own. -/
structure Pins where
  mpio : List Nat := [2, 3, 0, 0]
  level : Nat := 0
deriving DecidableEq, Repr

end Sys2Proof.Machine
end

