-- ==== Sys2Proof/Machine/State.lean ====
section
/-! DEFINITION. The whole state of the block as plain data, the reasons to stop, and the state after reset. -/

namespace Sys2Proof.Machine

/-- Faults of the model. -/
inductive Fault where
  /-- No meaning answers it: the spec names no access that stops the whole device (safe). -/
  | none
deriving DecidableEq, Repr

/-- Refusals of the model. -/
inductive Refusal where
  /-- The dispatch answers it for a command whose meaning is not written yet (safe). -/
  | notModelled (mnemonic : String)
deriving DecidableEq, Repr

/-- The block's state. -/
structure State where
  pending : List Instr := []
  free : Nat := 0
  s0 : Nat := 0
  cores : Map Core := []
  engs : Map Eng := []
  xmsgs : List XMsg := []
  mem : Mem := {}
  host : List Host.Cell := []
  xlt : Xlt := {}
  gfe : Gfe := {}
  obj : HostObj := {}
  fns : Map Fn := []
  pool : Pool := {}
  cmp : Cmp := {}
  chains : Map Chain := []
  ready : List (Deferred × Nat) := []
  pcie : Pcie := {}
  net : Net := {}
  talko : Talko := {}
  pow : Pow := {}
  trace : Trace := {}
  sec : Sec := {}
  otp : Otp := {}
  flash : Flash := {}
  boot : Boot := {}
  dump : Dump := {}
  dun : Dun := {}
  pins : Pins := {}
  hints : List Hint := []
  reports : List (Nat × Nat × Nat) := []
deriving DecidableEq, Repr

/-- The state after reset. -/
def State.reset : State := {}

end Sys2Proof.Machine
end

