-- ==== Sys2Proof/Machine/Ops.lean ====
section
/-! DEFINITION. The named operations over units, registers and memory: every meaning reads and writes State through
these. -/

namespace Sys2Proof.Machine

/- Ending a command. -/

/-- A command's next state: its effect, with the queue as the command found it. -/
def done (s t : State) : Host.Outcome State Fault Refusal := .next { t with pending := s.pending }

/-- A command's next state where the command touches neither the queue nor the slices, pools and fenced sets. -/
def doneKeep (s t : State) : Host.Outcome State Fault Refusal := .next { t with pending := s.pending, pool := s.pool }

/- Units (R12). -/

def coreRow (c : Nat) : Nat := c % 96 / 12
def coreCol (c : Nat) : Nat := c % 12
def coreDie (c : Nat) : Nat := c / 96
/-- The core group of a core (R12). -/
def coreCg (c : Nat) : Nat := coreDie c * 24 + coreRow c / 2 * 6 + coreCol c / 2
/-- The four cores of a core group, ascending (R12). -/
def cgCores (g : Nat) : List Nat :=
  let b := g / 24 * 96 + g % 24 / 6 * 24 + g % 6 * 2
  [b, b + 1, b + 12, b + 13]
def engCore (e : Nat) : Nat := e / 8
def engIdx (e : Nat) : Nat := e % 8
def coreEngs (c : Nat) : List Nat := (List.range 8).map (8 * c + ·)
/-- The size of a channel pair in bytes (R149). -/
def pairBytes : Nat := 0x180000000
def dpaLimit : Nat := 0x6000000000
def dpaPair (a : Nat) : Nat := a / pairBytes
/-- The channel of a device physical address (R150). -/
def dpaChan (a : Nat) : Nat := 2 * dpaPair a + a % pairBytes / 2048 % 2
/-- The channel-local address (R150). -/
def dpaLocal (a : Nat) : Nat := a % pairBytes / 4096 * 2048 + a % pairBytes % 2048
def chanStack (c : Nat) : Nat := c / 16
def pairDie (p : Nat) : Nat := p / 32
def cgBit (m : BitVec 48) (g : Nat) : Bool := m.toNat.testBit g
def pairBit (m : BitVec 64) (p : Nat) : Bool := m.toNat.testBit p
def portBit (m : BitVec 24) (p : Nat) : Bool := m.toNat.testBit p

/- Record access. -/

def State.core (s : State) (c : Nat) : Core := lookD s.cores c {}
def State.setCore (s : State) (c : Nat) (v : Core) : State := { s with cores := putD s.cores c v {} }
def State.modCore (s : State) (c : Nat) (f : Core → Core) : State := s.setCore c (f (s.core c))
def State.eng (s : State) (e : Nat) : Eng := lookD s.engs e {}
def State.setEng (s : State) (e : Nat) (v : Eng) : State := { s with engs := putD s.engs e v {} }
def State.modEng (s : State) (e : Nat) (f : Eng → Eng) : State := s.setEng e (f (s.eng e))
def State.fn (s : State) (f : Nat) : Fn := lookD s.fns f {}
def State.setFn (s : State) (f : Nat) (v : Fn) : State := { s with fns := putD s.fns f v {} }
def State.modFn (s : State) (f : Nat) (g : Fn → Fn) : State := s.setFn f (g (s.fn f))
def State.vd (s : State) (v : Nat) : Vd := lookD s.cmp.vds v {}
def State.setVd (s : State) (v : Nat) (x : Vd) : State := { s with cmp := { s.cmp with vds := putD s.cmp.vds v x {} } }
def State.modVd (s : State) (v : Nat) (f : Vd → Vd) : State := s.setVd v (f (s.vd v))
def State.chain (s : State) (v : Nat) : Chain := lookD s.chains v {}
def State.setChain (s : State) (v : Nat) (x : Chain) : State := { s with chains := putD s.chains v x {} }
def State.modChain (s : State) (v : Nat) (f : Chain → Chain) : State := s.setChain v (f (s.chain v))
def State.pf (s : State) (f : Nat) : PcieFn := lookD s.pcie.fns f {}
def State.setPf (s : State) (f : Nat) (x : PcieFn) : State := { s with pcie := { s.pcie with fns := putD s.pcie.fns f x {} } }
def State.modPf (s : State) (f : Nat) (g : PcieFn → PcieFn) : State := s.setPf f (g (s.pf f))
def State.chan (s : State) (c : Nat) : Chan := lookD s.mem.chans c {}
def State.modChan (s : State) (c : Nat) (f : Chan → Chan) : State :=
  { s with mem := { s.mem with chans := putD s.mem.chans c (f (s.chan c)) {} } }
def State.pairMem (s : State) (p : Nat) : PairMem := lookD s.mem.pairs p {}
def State.modPair (s : State) (p : Nat) (f : PairMem → PairMem) : State :=
  { s with mem := { s.mem with pairs := putD s.mem.pairs p (f (s.pairMem p)) {} } }
def State.stack (s : State) (n : Nat) : Stack := lookD s.mem.stackUnits n {}
def State.modStack (s : State) (n : Nat) (f : Stack → Stack) : State :=
  { s with mem := { s.mem with stackUnits := putD s.mem.stackUnits n (f (s.stack n)) {} } }
/-- The fence number `i` of a function: one table for all 64 functions (R324). -/
def fenceKey (fn i : Nat) : Nat := fn * 65536 + i
def State.fence (s : State) (fn i : Nat) : Fence := lookD s.obj.fences (fenceKey fn i) {}
def State.setFence (s : State) (fn i : Nat) (x : Fence) : State :=
  { s with obj := { s.obj with fences := putD s.obj.fences (fenceKey fn i) x {} } }
def ctxKey (fn c : Nat) : Nat := fn * 4096 + c
def State.ctx? (s : State) (fn c : Nat) : Option Ctx := look s.obj.ctxs (ctxKey fn c)
def State.setCtx (s : State) (fn c : Nat) (x : Ctx) : State :=
  { s with obj := { s.obj with ctxs := put s.obj.ctxs (ctxKey fn c) x } }
def State.modCtx (s : State) (fn c : Nat) (f : Ctx → Ctx) : State :=
  match s.ctx? fn c with
  | some x => s.setCtx fn c (f x)
  | none => s
/-- The context numbers of a function. -/
def State.fnCtxs (s : State) (fn : Nat) : List Nat :=
  ((keys s.obj.ctxs).filter (fun k => k / 4096 = fn)).map (· % 4096)

/- Composition as the other units see it (R243–R249). -/

/-- The VD that a slice serves: the one it is bound to, or the holder of a shared slice. -/
def Slice.vd? (x : Slice) : Option Nat :=
  match x.st with
  | .bound v => some v
  | .shared => (x.group[x.holder]?).map (·.1)
  | _ => none

def State.sliceList (s : State) : List (Nat × Slice) := s.pool.slices

/-- The slice that holds a core group, if any. -/
def State.cgSlice (s : State) (g : Nat) : Option (Nat × Slice) := s.pool.slices.find? (fun p => cgBit p.2.cgs g)
def State.pairSlice (s : State) (p : Nat) : Option (Nat × Slice) := s.pool.slices.find? (fun q => pairBit q.2.pairs p)
def State.portSlice (s : State) (p : Nat) : Option (Nat × Slice) := s.pool.slices.find? (fun q => portBit q.2.ports p)
def State.cgVd (s : State) (g : Nat) : Option Nat := (s.cgSlice g).bind (fun p => p.2.vd?)
def State.coreVd (s : State) (c : Nat) : Option Nat := s.cgVd (coreCg c)
def State.engVd (s : State) (e : Nat) : Option Nat := s.coreVd (engCore e)
/-- The VD a pair is bound to; pairs of MARKED slices are bound to none (R245). -/
def State.pairVd (s : State) (p : Nat) : Option Nat := (s.pairSlice p).bind (fun q => q.2.vd?)
/-- The VD whose ciphertext a pair holds: bound or MARKED (R245). -/
def State.pairOwner (s : State) (p : Nat) : Option Nat :=
  (s.pairSlice p).bind (fun q => match q.2.st with | .marked v => some v | _ => q.2.vd?)
def State.portVd (s : State) (p : Nat) : Option Nat := (s.portSlice p).bind (fun q => q.2.vd?)
/-- The unfenced core groups bound to a VD, ascending; c of R249 is their number. -/
def State.vdCgs (s : State) (v : Nat) : List Nat :=
  (List.range 48).filter (fun g => s.cgVd g = some v ∧ !cgBit s.pool.cgFenced g)
def State.vdPairs (s : State) (v : Nat) : List Nat := (List.range 64).filter (fun p => s.pairVd p = some v)
def State.vdPorts (s : State) (v : Nat) : List Nat := (List.range 24).filter (fun p => s.portVd p = some v)
/-- Core groups of a VD that work: neither a hot spare nor fenced (R249). -/
def State.vdWorking (s : State) (v : Nat) : List Nat := (s.vdCgs v).filter (fun g => !(s.vd v).spares.contains g)
def State.cgShared (s : State) (g : Nat) : Bool := ((s.cgSlice g).map (fun p => decide (p.2.st = .shared))).getD false
/-- The lane of a VD that a core group belongs to (R263). -/
def State.cgLane (s : State) (v g : Nat) : Option Nat := ((s.vd v).lanes.find? (fun p => p.2.contains g)).map (·.1)
/-- Working core groups outside every lane (R301). -/
def State.vdBulk (s : State) (v : Nat) : List Nat := (s.vdWorking v).filter (fun g => (s.cgLane v g).isNone)
/-- The tag a VD's accesses carry (R79). -/
def State.vdTag (s : State) (v : Nat) : BitVec 12 := (s.vd v).tag
/-- The tag of the accesses of a core (R81). -/
def State.coreTag (s : State) (c : Nat) : BitVec 12 := (s.core c).curTag
/-- Whether a core group site is enabled (R101). -/
def State.coreOn (s : State) (c : Nat) : Bool := cgBit s.pool.cgReady (coreCg c)

/- Functions that the host reaches (R248, R397–R399, R500). -/

/-- Whether VF `n` is enabled on the link half that carries it, and reachable without ARI where the hierarchy has none
(R397, R398). -/
def vfOn (s : State) (n : Nat) : Bool :=
  let on (p : PcieFn) (i : Nat) : Bool := p.vfEn && decide (1 ≤ i ∧ i ≤ p.numVfs) && (p.ariHier || decide (i ≤ 7))
  if s.pcie.split ∧ s.pcie.splitPoint < n then on (s.pf 64) (n - s.pcie.splitPoint) else on (s.pf 0) n

/-- Whether a function serves memory requests: after step 12, and PF0 in D0 or an enabled VF (R399, R500). -/
def fnOpen (s : State) (f : Nat) : Bool :=
  s.boot.ready && (if f = 0 then decide ((s.pf 0).pm = .d0) else vfOn s f)

/-- A memory request that is not served is logged as an Unsupported Request (R406, R500). -/
def logUr (s : State) (f : Nat) : State := s.modPf f (fun p => { p with aerUr := true })

/-- Serve a write to a BAR where its function is open; else it is an Unsupported Request (R500). -/
def hostGate (s : State) (f : Nat) (k : State → State) : State := if fnOpen s f then k s else logUr s f

/- Performance tracing (R547). -/

/-- The A-cycle count of a core group: its domain counts in 64ths (R418). -/
def aCycles (s : State) (g : Nat) : Nat := lookD s.pow.cycles g 0 / 64

def State.traceDie (s : State) (d : Nat) : TraceDie := s.trace.dies.getD d {}
def State.modTrace (s : State) (d : Nat) (f : TraceDie → TraceDie) : State :=
  { s with trace := { s.trace with dies := s.trace.dies.mapIdx (fun i x => if i = d then f x else x) } }

/-- Record an event of a core where its die traces, its group is selected and the kind is; a core writes at most one record
per 4 A-cycles, and its next one says that events were dropped (R547). -/
def traceEv (s : State) (core eng kind launch a0 a1 : Nat) : State :=
  let t := s.traceDie (coreDie core)
  if !t.en || !cgBit s.trace.cgMask (coreCg core) || !s.trace.events.testBit kind then s
  else
    let now := aCycles s (coreCg core)
    let early : Bool := match look s.trace.last core with | some x => decide (now < x + 4) | none => false
    if early then
      if s.trace.dropped.contains core then s else { s with trace := { s.trace with dropped := s.trace.dropped ++ [core] } }
    else
      let rcd := natLe 8 now ++ natLe 1 (kind + 128 * b2n (s.trace.dropped.contains core)) ++ natLe 1 core ++ natLe 1 eng ++ [0]
        ++ natLe 4 launch ++ natLe 8 a0 ++ natLe 8 a1
      let s := { s with trace := { s.trace with last := put s.trace.last core now, dropped := s.trace.dropped.erase core } }
      s.modTrace (coreDie core) (fun t => { t with
        recs := put t.recs (t.next % 65536) rcd, next := (t.next + 1) % 2 ^ 32, wrapped := t.wrapped || decide (65536 ≤ t.next + 1) })

/-- An event of an engine that runs a tile. -/
def traceEng (s : State) (e kind launch a0 a1 : Nat) : State := traceEv s (engCore e) (engIdx e) kind launch a0 a1

/-- Tracing on a die stops for a reason; the last one to stop ends the window of TRACE_TRIG (R547). -/
def traceStop (s : State) (d why : Nat) : State :=
  if !(s.traceDie d).en then s
  else
    let s := s.modTrace d (fun t => { t with en := false, stopWhy := why })
    if s.trace.dies.any (fun t => t.en) then s
    else { s with trace := { s.trace with dies := s.trace.dies.map (fun t => { t with s0Stop := s.s0 }) } }

/-- Tracing on a die starts: its ring is empty again, and the first to start opens the window of TRACE_TRIG (R547). -/
def traceStart (s : State) (d : Nat) : State :=
  let first := !s.trace.dies.any (fun t => t.en)
  let s := s.modTrace d (fun t => { t with en := true, next := 0, wrapped := false, stopWhy := 0, lost := 0 })
  if first then { s with trace := { s.trace with dies := s.trace.dies.map (fun t => { t with s0Start := s.s0 }) } } else s

/-- The words of a tile's record (R547 kinds 0 and 1). -/
def tileArg0 (t : Tile) : Nat := t.mBlock % 65536 + 2 ^ 16 * (t.nBlock % 65536) + 2 ^ 32 * (t.kBegin % 2 ^ 32)
def tileArg1 (t : Tile) : Nat := t.kEnd % 2 ^ 32 + 2 ^ 32 * (t.node % 65536)

/- Byte tables. -/

def readCells (m : List Host.Cell) (a n : Nat) : List Byte := (List.range n).map (fun i => lookD m (a + i) 0)

def writeCells : List Host.Cell → Nat → List Byte → List Host.Cell
  | m, _, [] => m
  | m, a, b :: bs => writeCells (putD m a b 0) (a + 1) bs

/-- Keys strictly rise and no entry equals what an unlisted address reads as. -/
def cellsWf (m : List Host.Cell) : Bool := sortedKeys m && m.all (fun p => p.2 ≠ 0)

/-- The canonical form of both memories. -/
def State.memWf (s : State) : Bool := cellsWf s.mem.hbm && cellsWf s.host

/- LOS and scratchpad under ownership tags (R81). -/

/-- Read `n` bytes of a LOS line under a tag. -/
def losRead (e : Eng) (tag : BitVec 12) (a n : Nat) : List Byte :=
  let l := lookD e.los (a / 128) {}
  if l.tag = tag ∧ l.written then (List.range n).map (fun i => lineByte l.data (a % 128 + i)) else List.replicate n 0

/-- Write bytes within one LOS line under a tag: a line of another tag is taken over and reads as zero elsewhere. -/
def losWrite (e : Eng) (tag : BitVec 12) (a : Nat) (bs : List Byte) : Eng :=
  let l := lookD e.los (a / 128) {}
  let base : LineData := if l.tag = tag ∧ l.written then l.data else 0
  { e with los := putD e.los (a / 128) { tag := tag, written := true, data := lineSet base (a % 128) bs } {} }

/-- Read `n` bytes within one 128-byte sub-line of the scratchpad under a tag. -/
def spRead (c : Core) (tag : BitVec 12) (a n : Nat) : List Byte :=
  let b := lookD c.sp (a / 4096) {}
  let l := a % 4096 / 128
  if b.tag = tag ∧ b.written.toNat.testBit l then
    (List.range n).map (fun i => lineByte (lookD b.lines l 0) (a % 128 + i))
  else List.replicate n 0

/-- Write bytes within one sub-line of the scratchpad under a tag (R81). -/
def spWrite (c : Core) (tag : BitVec 12) (a : Nat) (bs : List Byte) : Core :=
  let b := lookD c.sp (a / 4096) {}
  let b : SpBlock := if b.tag = tag then b else { tag := tag }
  let l := a % 4096 / 128
  let old : LineData := if b.written.toNat.testBit l then lookD b.lines l 0 else 0
  let b := { b with written := b.written ||| BitVec.ofNat 32 (1 <<< l), lines := putD b.lines l (lineSet old (a % 128) bs) 0 }
  { c with sp := putD c.sp (a / 4096) b {} }

/-- Split a byte range at multiples of `g`: (address, length) pieces, by fuel. -/
def pieces (g : Nat) : Nat → Nat → Nat → List (Nat × Nat)
  | 0, _, _ => []
  | f + 1, a, n =>
    if n = 0 then [] else
      let k := min n (g - a % g)
      (a, k) :: pieces g f (a + k) (n - k)

def piecesOf (g a n : Nat) : List (Nat × Nat) := pieces g (n / g + 2) a n

def spReadN (c : Core) (tag : BitVec 12) (a n : Nat) : List Byte :=
  (piecesOf 128 a n).flatMap (fun p => spRead c tag p.1 p.2)

def spWriteN (c : Core) (tag : BitVec 12) (a : Nat) (bs : List Byte) : Core :=
  (piecesOf 128 a bs.length).foldl (fun c p => spWrite c tag p.1 ((bs.drop (p.1 - a)).take p.2)) c

/- Device memory behind the LLC (R82, R156, R164). -/

def State.llcLine (s : State) (line : Nat) : LlcLine := lookD s.mem.llc line {}
def State.setLlc (s : State) (line : Nat) (l : LlcLine) : State :=
  { s with mem := { s.mem with llc := putD s.mem.llc line l {} } }
def State.dcLine (s : State) (c line : Nat) : CacheLine := lookD (s.core c).dcache line {}
def State.setDc (s : State) (c line : Nat) (l : CacheLine) : State :=
  s.modCore c (fun k => { k with dcache := putD k.dcache line l {} })
def unitMeta (s : State) (u : Nat) : UnitMeta := lookD s.mem.units u {}
/-- Whether either 64-byte half of a line is stored poisoned. -/
def hbmPoison (s : State) (line : Nat) : Bool := (unitMeta s (2 * line)).poison || (unitMeta s (2 * line + 1)).poison
def hbmLine (s : State) (line : Nat) : LineData := lineOf (readCells s.mem.hbm (line * 128) 128)

/-- The bytes of an ECC unit at an address: 64 in the standard layout, else 128 (R154). -/
def unitBytes (s : State) (a : Nat) : Nat :=
  let ch := s.chan (dpaChan a)
  let lay := match ch.conv with
    | some cv => if dpaLocal a < cv.mark then cv.new else cv.old
    | none => ch.layout
  match lay with
  | .standard => 64
  | _ => 128

/-- Store bytes of one line in HBM: a write of every byte of a unit clears its poison, a partial one keeps it, and
poisoned data poisons the units it touches (R156). -/
def hbmWrite (s : State) (a : Nat) (bs : List Byte) (poison : Bool) : State :=
  let u := unitBytes s a
  let step (m : Map UnitMeta) (i : Nat) : Map UnitMeta :=
    let lo := max a (64 * i / u * u)
    let old := lookD m i {}
    let full := a ≤ 64 * i / u * u ∧ 64 * i / u * u + u ≤ a + bs.length
    if lo < a + bs.length then
      putD m i { nz := true, poison := poison || (old.poison && !full) } {}
    else m
  let first := a / u * u / 64
  let last := ((a + bs.length - 1) / u * u + u - 1) / 64
  { s with mem := { s.mem with
      hbm := writeCells s.mem.hbm a bs
      units := ((List.range (last + 1 - first)).map (first + ·)).foldl step s.mem.units } }

/-- The copy an owner holds: its cache, a Data message on its way to it, or its write-back buffer (R167, R170). -/
def ownerCopy (s : State) (line c : Nat) : Option (LineData × Bool) :=
  let l := s.dcLine c line
  if l.st ≠ .i ∧ l.st ≠ .s then some (l.data, l.poison)
  else
    match s.mem.msgs.findSome? (fun m => match m with
      | .data l' c' _ d p => if l' = line ∧ c' = c then some (d, p) else none
      | _ => none) with
    | some x => some x
    | none => (look (s.core c).wb line).map (fun w => (w.data, w.poison))

/-- The coherent content of a line for an access under a tag: an owner's copy, the LLC, or HBM (R82, R164). -/
def readLine (s : State) (tag : BitVec 12) (line : Nat) : LineData × Bool :=
  let l := s.llcLine line
  if l.valid ∧ l.tag = tag then
    match l.dst, l.ptrs with
    | .e, o :: _ | .m, o :: _ | .o, o :: _ => (ownerCopy s line o).getD (l.data, l.poison)
    | _, _ => (l.data, l.poison)
  else (hbmLine s line, hbmPoison s line)

/-- Drop every core copy of a line, in caches, write-back buffers and Data messages. -/
def dropCopies (s : State) (line : Nat) : State :=
  let s := { s with cores := mapVals s.cores (fun _ c => { c with dcache := del c.dcache line, wb := del c.wb line }) }
  { s with mem := { s.mem with msgs := s.mem.msgs.filter (fun m => match m with | .data l' _ _ _ _ => l' ≠ line | _ => true) } }

/-- A line of another tag is dropped without write-back, and a dirty one counts (R82). -/
def dropStale (s : State) (tag : BitVec 12) (line : Nat) : State :=
  let l := s.llcLine line
  if l.valid ∧ l.tag ≠ tag then
    let die := pairDie (dpaPair (line * 128))
    let s := dropCopies s line
    let s := if l.dirty then
        { s with mem := { s.mem with llcDrops := s.mem.llcDrops.mapIdx (fun i x => if i = die then satAdd 32 x 1 else x) } }
      else s
    s.setLlc line {}
  else s

/-- A write of one line's bytes by an agent that is no core: it takes effect at the home (R164). A core copy ends. -/
def writeLinePart (s : State) (tag : BitVec 12) (a : Nat) (bs : List Byte) (poison : Bool) : State :=
  let line := a / 128
  let s := dropStale s tag line
  let l := s.llcLine line
  if l.valid then
    let (d, p) := readLine s tag line
    let s := dropCopies s line
    s.setLlc line { l with data := lineSet d (a % 128) bs, dirty := true, dst := .i, ptrs := [], ovf := false,
                           poison := poison || (p && bs.length < 128) }
  else hbmWrite s a bs poison

/-- Read device memory under a tag: the bytes, and the first poisoned address met (R156). -/
def readDpa (s : State) (tag : BitVec 12) (a n : Nat) : List Byte × Option Nat :=
  (piecesOf 128 a n).foldl (fun (acc : List Byte × Option Nat) p =>
    let (d, po) := readLine s tag (p.1 / 128)
    (acc.1 ++ (List.range p.2).map (fun i => lineByte d (p.1 % 128 + i)),
      if acc.2.isNone ∧ po then some p.1 else acc.2)) ([], none)

/-- Write device memory under a tag. -/
def writeDpaRaw (s : State) (tag : BitVec 12) (a : Nat) (bs : List Byte) (poison : Bool) : State :=
  (piecesOf 128 a bs.length).foldl (fun s p => writeLinePart s tag p.1 ((bs.drop (p.1 - a)).take p.2) poison) s

/- Dirty logging (R207, R208). -/

/-- Set one bit of a bitmap in VD0 memory. -/
def setLogBit (s : State) (base i : Nat) : State :=
  let a := base + i / 8
  let b := ((readDpa s (s.vdTag 0) a 1).1.headD 0)
  writeDpaRaw s (s.vdTag 0) a [b ||| BitVec.ofNat 8 (1 <<< (i % 8))] false

def logHostBytes (d : Dlog) : Nat := roundUp (ceilDiv d.hpages 8) 65536
def logBase (d : Dlog) : Nat := if d.active ^^ d.swapping then d.set1 else d.set0

/-- Log the 64 KiB granules of a device-memory write on a function's behalf (R208). -/
def logDev (s : State) (fn a n : Nat) : State :=
  match look s.xlt.dlog fn with
  | some d => if d.en ∧ n > 0 then
      ((List.range ((a + n - 1) / 65536 + 1 - a / 65536)).map (a / 65536 + ·)).foldl
        (fun s i => setLogBit s (logBase d + logHostBytes d) i) s
    else s
  | none => s

/-- Log the 4 KiB pages of a host-memory write on a function's behalf (R207, R208). -/
def logHost (s : State) (fn a n : Nat) : State :=
  match look s.xlt.dlog fn with
  | some d => if d.en ∧ n > 0 then
      ((List.range ((a + n - 1) / 4096 + 1 - a / 4096)).map (a / 4096 + ·)).foldl
        (fun s p =>
          if d.hbase / 4096 ≤ p ∧ p < d.hbase / 4096 + d.hpages then setLogBit s (logBase d) (p - d.hbase / 4096)
          else { s with xlt := { s.xlt with dlog := adjust s.xlt.dlog fn (fun d => { d with hostOvf := true }) } }) s
    else s
  | none => s

/-- Write device memory for a VD: through the LLC under its tag, with dirty logging of its function. -/
def writeDpa (s : State) (vd a : Nat) (bs : List Byte) : State :=
  logDev (writeDpaRaw s (s.vdTag vd) a bs false) vd a bs.length

/-- Read device memory for a VD. -/
def readDpaVd (s : State) (vd a n : Nat) : List Byte × Option Nat := readDpa s (s.vdTag vd) a n

def readHost (s : State) (a n : Nat) : List Byte := readCells s.host a n

/-- Write host memory for a function, with dirty logging and HOST_BYTES (R208, R269). -/
def writeHost (s : State) (fn a : Nat) (bs : List Byte) : State :=
  let s := logHost { s with host := writeCells s.host a bs } fn a bs.length
  s.modVd fn (fun v => { v with meter := { v.meter with hostBytes := v.meter.hostBytes + bs.length } })

/-- The next value of the free-value counter. -/
def takeFree (s : State) : Nat × State := (s.free, { s with free := s.free + 1 })

/-- Record a change of a domain's frequency, in steps of 12.5 MHz (R418). -/
def logFreq (s : State) (dom steps : Nat) : State :=
  { s with pow := { s.pow with log := s.pow.log ++ [(dom, lookD s.pow.cycles dom 0 / 64, steps)] } }

/-- Record a domain's frequency where it differs from the last one recorded (R418). -/
def noteFreq (s : State) (dom steps : Nat) : State :=
  if ((s.pow.log.filter (fun p => p.1 = dom)).getLast?).map (fun p => p.2.2) = some steps then s else logFreq s dom steps

end Sys2Proof.Machine
end

