-- ==== Sys2Proof/Machine/Walk.lean ====
section
/-! DEFINITION. Table walks, translation of ranges, and access to a context's virtual memory (R176–R183, R194). -/

namespace Sys2Proof.Machine

/-- The outcome of a translation: memory that is contiguous to the end of its granule, a fault kind of R197, a wait
for a page move (R203), a wait for a Translation Completion (R194), or poison met in a table. -/
inductive WalkRes where
  | dev (dpa len : Nat) (ac : Bool)
  | host (addr len : Nat) (ac : Bool)
  | fault (kind : Nat)
  | mig
  | ats (page : Nat)
deriving DecidableEq, Repr

/-- One table read: the entry, or the fault that ends the walk (R180 checks 1 and OUTSIDE of the table). -/
def tableOk (s : State) (vd base size : Nat) : Bool :=
  base + size ≤ dpaLimit && dpaPair base = dpaPair (base + size - 1) && s.pairVd (dpaPair base) = some vd

/-- Read an entry from the primary copy, or from the mirror when the primary is poisoned; a mirror table outside the
virtual device's pairs is not read (R180, R182). -/
def pteRead (s : State) (vd : Nat) (mirror : Int) (a : Nat) : Except WalkRes Nat :=
  match readDpaVd s vd a 8 with
  | (bs, none) => .ok (leNat bs)
  | (_, some _) =>
    let m : Int := (a : Int) + mirror
    if mirror = 0 then .error (.fault 5)
    else if m < 0 ∨ !tableOk s vd (m.toNat / 65536 * 65536) 65536 then .error (.fault 3)
    else
      match readDpaVd s vd m.toNat 8 with
      | (bs, none) => .ok (leNat bs)
      | _ => .error (.fault 5)

def readPte (s : State) (vd : Nat) (mirror : Int) (a : Nat) : Option Nat := (pteRead s vd mirror a).toOption

def pteV (e : Nat) : Bool := e.testBit 0
def pteLeaf (e : Nat) : Bool := e.testBit 1
def pteW (e : Nat) : Bool := e.testBit 2
def pteHost (e : Nat) : Bool := e.testBit 3
def pteContig (e : Nat) : Bool := e.testBit 4
def pteMig (e : Nat) : Bool := e.testBit 5
def pteAc (e : Nat) : Bool := e.testBit 6
def pteAddr (e : Nat) : Nat := e / 65536 * 65536

/-- R178: what an entry of a level may hold, with the reserved bits of R177. -/
def pteLegal (level e : Nat) : Bool :=
  !e.testBit 7 && fld e 12 4 = 0 &&
  (if pteLeaf e then
    (level = 1 || (level = 2 && fld e 16 13 = 0 && !pteHost e && !pteContig e))
   else level ≠ 1 && !pteW e && !pteHost e && !pteContig e && !pteAc e)

/-- The key of a cached entry: the VA bits that select it (R176). -/
def xKey (level va : Nat) : Nat := va >>> (if level = 3 then 42 else if level = 2 then 29 else 16)

def xFind (tlb : List XEntry) (fn ctx level va : Nat) : Option Nat :=
  (tlb.find? (fun x => x.fn = fn && x.ctx = ctx && x.level = level && x.key = xKey level va)).map (·.pte.toNat)

/-- The checks of R180 on one entry, in their order. -/
def checkPte (s : State) (vd : Nat) (x : Ctx) (level e : Nat) (write : Bool) : Option WalkRes :=
  if !pteV e then some (.fault 1)
  else if pteMig e then some .mig
  else if !pteLegal level e then some (.fault 4)
  else if !pteHost e && !tableOk s vd (pteAddr e) (if pteLeaf e && level = 2 then 0x20000000 else 65536) then some (.fault 3)
  else if pteHost e && !x.hostEn then some (.fault 4)
  else if pteLeaf e && write && !pteW e then some (.fault 2)
  else none

/-- The walk from a table down: answers the leaf's level and entry and the entries met, or what ended it. -/
def walkFrom (s : State) (vd : Nat) (x : Ctx) (tlb : List XEntry) (fn ctx va : Nat) (write : Bool) :
    Nat → Nat → List XEntry → Except WalkRes (Nat × Nat × List XEntry)
  | 0, _, _ => .error (.fault 4)
  | level + 1, table, met =>
    let lv := level + 1
    let idx := fld va (if lv = 3 then 42 else if lv = 2 then 29 else 16) 13
    let cached := xFind tlb fn ctx lv va
    match (match cached with | some e => .ok e | none => pteRead s vd x.mirror (table + 8 * idx) : Except WalkRes Nat) with
    | .error r => .error r
    | .ok e =>
      match checkPte s vd x lv e write with
      | some r => .error r
      | none =>
        let met := if cached.isNone then { fn := fn, ctx := ctx, level := lv, key := xKey lv va, pte := BitVec.ofNat 64 e } :: met else met
        if pteLeaf e then .ok (lv, e, met) else walkFrom s vd x tlb fn ctx va write level (pteAddr e) met

/-- The host side of a leaf: with ATS enabled the translated page from the cache, else the address itself (R194). -/
def atsStep (s : State) (fn addr : Nat) (write ac : Bool) : WalkRes :=
  let len := 4096 - addr % 4096
  if !(s.pf fn).atsEn then .host addr len ac
  else
    match s.xlt.atc.find? (fun a => a.fn = fn && a.page = addr / 4096) with
    | some a => if write && !a.write then .ats (addr / 4096) else .host (a.addr + addr % 4096) len ac
    | none => .ats (addr / 4096)

/-- Translate one VA of a context for an access (R180). -/
def xlateWith (s : State) (tlb : List XEntry) (fn ctx va : Nat) (write : Bool) : WalkRes × List XEntry :=
  match s.ctx? fn ctx with
  | none => (.fault 1, [])
  | some x =>
    if va ≥ 2 ^ 55 then (.fault 4, [])
    else if x.rootHeld then (.mig, [])
    else if !tableOk s fn x.root 65536 then (.fault 3, [])
    else
      match walkFrom s fn x tlb fn ctx va write 3 x.root [] with
      | .error r => (r, [])
      | .ok (lv, e, met) =>
        if lv = 2 then (.dev (pteAddr e + va % 0x20000000) (0x20000000 - va % 0x20000000) (pteAc e), met)
        else if pteHost e then (atsStep s fn (pteAddr e + va % 65536) write (pteAc e), met)
        else (.dev (pteAddr e + va % 65536) (65536 - va % 65536) (pteAc e), met)

/-- Keep the newest entries of a translation cache of a given size (R183; DESIGN CHOICE, log 12). -/
def tlbFill (tlb met : List XEntry) (cap : Nat) : List XEntry := (met ++ tlb).take cap

/-- Entries of a function, contexts and VA range that an invalidation drops (R191). -/
def tlbDrop (tlb : List XEntry) (fn : Nat) (ctxs : List Nat) (lo hi : Nat) : List XEntry :=
  tlb.filter (fun x =>
    !(x.fn = fn && ctxs.contains x.ctx &&
      let sh := if x.level = 3 then 42 else if x.level = 2 then 29 else 16
      decide (x.key <<< sh < hi) && decide (lo < (x.key + 1) <<< sh)))

/-- A walk by the front end's walker, with its walk cache (R183). -/
def gfeXlate (s : State) (fn ctx va : Nat) (write : Bool) : WalkRes × State :=
  let (r, met) := xlateWith s s.xlt.walkCache fn ctx va write
  (r, { s with xlt := { s.xlt with walkCache := tlbFill s.xlt.walkCache met 18432 } })

/-- Translated pieces of a VA range, or what ended it. -/
def xlateRange (s : State) (fn ctx : Nat) (write : Bool) : Nat → Nat → Nat → Except WalkRes (List (Bool × Nat × Nat))
  | 0, _, _ => .ok []
  | f + 1, va, n =>
    if n = 0 then .ok []
    else
      match (xlateWith s [] fn ctx va write).1 with
      | .dev a len _ =>
        let k := min n len
        match xlateRange s fn ctx write f (va + k) (n - k) with
        | .ok t => .ok ((false, a, k) :: t)
        | .error e => .error e
      | .host a len _ =>
        let k := min n len
        match xlateRange s fn ctx write f (va + k) (n - k) with
        | .ok t => .ok ((true, a, k) :: t)
        | .error e => .error e
      | r => .error r

def rangeOf (s : State) (fn ctx : Nat) (write : Bool) (va n : Nat) : Except WalkRes (List (Bool × Nat × Nat)) :=
  xlateRange s fn ctx write (n / 4096 + 3) va n

/-- Read translated pieces: the bytes, and the first poisoned device address. -/
def readPieces (s : State) (fn : Nat) (ps : List (Bool × Nat × Nat)) : List Byte × Option Nat :=
  ps.foldl (fun (acc : List Byte × Option Nat) p =>
    if p.1 then (acc.1 ++ readHost s p.2.1 p.2.2, acc.2)
    else
      let (bs, po) := readDpaVd s fn p.2.1 p.2.2
      (acc.1 ++ bs, acc.2.orElse (fun _ => po))) ([], none)

def writePieces (s : State) (fn : Nat) (ps : List (Bool × Nat × Nat)) (bs : List Byte) : State :=
  (ps.foldl (fun (acc : State × List Byte) p =>
    let b := acc.2.take p.2.2
    (if p.1 then writeHost acc.1 fn p.2.1 b else writeDpa acc.1 fn p.2.1 b, acc.2.drop p.2.2)) (s, bs)).1

/-- Read a VA range of a context; `.error` gives what ended the translation. -/
def readVa (s : State) (fn ctx va n : Nat) : Except WalkRes (List Byte × Option Nat) :=
  (rangeOf s fn ctx false va n).map (readPieces s fn)

/-- Write a VA range of a context; every byte is translated before any is written (R569). -/
def writeVa (s : State) (fn ctx va : Nat) (bs : List Byte) : Except WalkRes State :=
  (rangeOf s fn ctx true va bs.length).map (fun ps => writePieces s fn ps bs)

/-- Whether translated pieces lie in device memory only. -/
def allDev (ps : List (Bool × Nat × Nat)) : Bool := ps.all (fun p => !p.1)

/-- The fault kind of a failed translation; an unfinished host translation counts as refused (R197). -/
def faultKind : WalkRes → Nat
  | .fault k => k
  | _ => 6

/-- A 64-bit little-endian read at a VA. -/
def readVaNat (s : State) (fn ctx va n : Nat) : Except WalkRes Nat := (readVa s fn ctx va n).map (fun r => leNat r.1)

end Sys2Proof.Machine
end

