-- ==== Sys2Proof/Machine/HostOps.lean ====
section
/-! DEFINITION. Vectors, fences and error records, the Amber chain, and packet completions
(R295, R332–R340, R351, R352, R480–R486). -/

namespace Sys2Proof.Machine

/- MSI-X (R351, R352, R405). -/

/-- Raise a vector of a function: a message, or a pending bit under a mask; further raises merge (R352, R405). -/
def raiseVector (s : State) (fn v : Nat) : State :=
  let p := s.pf fn
  if !p.msixEn then s
  else
    let e := lookD p.vecs v {}
    if p.msixMask || e.masked then
      s.modPf fn (fun p => if p.pba.contains v then p else { p with pba := p.pba ++ [v] })
    else { s with pcie := { s.pcie with sentMsgs := s.pcie.sentMsgs ++ [(fn, v, e.addr, e.data.toNat)] } }

/-- Send the messages that were pending and are no longer masked (R405). -/
def releaseVectors (s : State) (fn : Nat) : State :=
  let p := s.pf fn
  if !p.msixEn || p.msixMask then s
  else
    let go := p.pba.filter (fun v => !(lookD p.vecs v {}).masked)
    let s := s.modPf fn (fun p => { p with pba := p.pba.filter (fun v => !go.contains v) })
    go.foldl (fun s v => raiseVector s fn v) s

/- The Amber chain. -/

def serial : Nat := 1

/-- The bytes of a record (R480). -/
def recordBytes (s : State) (vd seq type ctx : Nat) (payload prev : List Byte) : List Byte :=
  let v := s.vd vd
  natLe 8 seq ++ natLe 2 type ++ natLe 2 payload.length ++ natLe 1 vd ++ natLe 1 (b2n v.posSealed) ++ natLe 2 ctx
    ++ natLe 8 s.s0 ++ natLe 2 v.keyGen ++ List.replicate 6 0 ++ sliceB prev 0 48 ++ sliceB payload 0 176

/-- Slots of the record ring (R483). -/
def chainSlots (c : Chain) : Nat := 2 ^ c.sizeLog2 / 256

/-- The first record whose slot is not reclaimed (R484). -/
def chainReclaimed (c : Chain) : Nat := max c.tail (if c.push.en then min c.cons c.push.pos else c.cons)

/-- Whether the slot of the record `k` after the next one still holds a record that is not reclaimed; numbers that a resume
jumped over hold no slot (R483–R485). -/
def slotTaken (c : Chain) (k : Nat) : Bool :=
  let n := chainSlots c
  let a := chainReclaimed c
  decide (0 < c.sizeLog2) && (List.range ((c.seq + k - a) / n)).any (fun i =>
    let r := c.seq + k - (i + 1) * n
    decide (a ≤ r) && decide (r < c.seq) && !c.jumps.any (fun j => decide (j.1 ≤ r ∧ r ≤ j.2)))

/-- Copy a record into the tenant's push ring where it has room (R483). -/
def pushCopy (s : State) (vd seq : Nat) (rcd : List Byte) : State :=
  let c := s.chain vd
  let n := 2 ^ c.push.log2
  if c.push.en ∧ c.push.pos = seq ∧ seq - c.push.cons < n then
    let phase := 1 - seq / n % 2
    let rcd := pokeB rcd 13 [((sliceB rcd 13 1).headD 0) ||| BitVec.ofNat 8 (128 * phase)]
    let s := writeHost s vd (c.push.base + seq % n * 256) rcd
    let s := s.modChain vd (fun c => { c with push := { c.push with pos := seq + 1 } })
    raiseVector s vd c.push.vector
  else s

/-- The BODY of a checkpoint leaf (R488). -/
def leafBody (s : State) (vd flags first last : Nat) : List Byte :=
  let c := s.chain vd
  let v := s.vd vd
  natLe 4 0x4B434D41 ++ natLe 2 1 ++ natLe 1 vd ++ natLe 1 flags ++ natLe 8 serial ++ natLe 4 c.ckptNo
    ++ natLe 4 c.creation ++ natLe 8 first ++ natLe 8 last ++ sliceB c.head 0 48 ++ natLe 1 s.otp.lc
    ++ natLe 1 (b2n v.posSealed) ++ natLe 2 v.keyGen ++ List.replicate 36 0

/-- Queue a checkpoint leaf over the records since the previous one (R486). -/
def formLeaf (s : State) (vd flags : Nat) : State :=
  let c := s.chain vd
  if c.seq = c.lastLeaf then s
  else
    let b := leafBody s vd flags c.lastLeaf (c.seq - 1)
    s.modChain vd (fun c => { c with
      leaves := c.leaves ++ [{ body := b, digest := sha384 b }], lastLeaf := c.seq, ckptNo := c.ckptNo + 1 })

/-- Put one record behind the chain's head, without looking at slots (R481, R485, R486). -/
def appendRaw (s : State) (vd type ctx : Nat) (payload : List Byte) : State :=
  let c := s.chain vd
  let seq := c.seq
  if vd = 0 ∧ c.sizeLog2 = 0 ∧ c.buffer.length ≥ 256 then
    s.modChain 0 (fun c => { c with
      seq := seq + 1
      lost := some ((c.lost.map (·.1)).getD seq, seq) })
  else
    let rcd := recordBytes s vd seq type ctx payload c.head
    let s := if c.sizeLog2 = 0 then s.modChain vd (fun c => { c with buffer := c.buffer ++ [rcd] })
      else writeDpa s 0 (c.dpa + seq % chainSlots c * 256) rcd
    let s := s.modChain vd (fun c => { c with
      seq := seq + 1
      head := sha384 rcd
      reserved := if seq + 1 ≥ c.reserved then c.reserved + 2 ^ 20 else c.reserved })
    let s := pushCopy s vd seq rcd
    if (s.chain vd).seq - (s.chain vd).lastLeaf ≥ 4096 then formLeaf s vd 0 else s

/-- What an append releases, with the record's SEQ (R295, R484). -/
def release (s : State) (seq : Nat) : Deferred → State
  | .none => s
  | .cqe fn r c =>
    let c : Cqe := { c with amberSeq := seq }
    match r with
    | .cmd n =>
      if has s.gfe.rings n then
        { s with gfe := { s.gfe with rings := adjust s.gfe.rings n (fun x => { x with waiting := x.waiting ++ [c] }) } }
      else { s with ready := s.ready ++ [(.cqe fn r c, seq)] }
    | .admin f =>
      if has s.gfe.admins f then
        { s with gfe := { s.gfe with admins := adjust s.gfe.admins f (fun x => { x with waiting := x.waiting ++ [c] }) } }
      else { s with ready := s.ready ++ [(.cqe fn r c, seq)] }
  | d => { s with ready := s.ready ++ [(d, seq)] }

/-- Append a record to a VD's chain under its full policy (R484). A VD with no open chain records nothing. -/
def amberAppend (s : State) (vd type ctx : Nat) (payload : List Byte) (after : Deferred) : State :=
  let c := s.chain vd
  if !c.opened || c.closed then release s 0 after
  else if c.held ≠ [] ∨ (slotTaken c 0 ∧ !c.drop) then
    s.modChain vd (fun c => { c with held := c.held ++ [{ type := type, ctx := ctx, payload := payload, after := after }] })
  else
    let s :=
      if slotTaken c 0 ∧ c.drop then
        let first := chainReclaimed c
        let last := c.seq + 1 - chainSlots c
        let s := s.modChain vd (fun c => { c with tail := last + 1, gaps := satAdd 16 c.gaps 1 })
        appendRaw s vd 0x000C 0xFFFF (natLe 8 first ++ natLe 8 last ++ natLe 1 2)
      else s
    let seq := (s.chain vd).seq
    release (appendRaw s vd type ctx payload) seq after

/-- Append waiting records while slots are free, by fuel of one record each (R484). -/
def amberDrain : Nat → State → Nat → State
  | 0, s, _ => s
  | f + 1, s, vd =>
    match (s.chain vd).held with
    | [] => s
    | h :: t =>
      let c := s.chain vd
      if slotTaken c 0 ∧ !c.drop then s
      else
        let s := s.modChain vd (fun c => { c with held := t })
        let s := release (appendRaw s vd h.type h.ctx h.payload) c.seq h.after
        amberDrain f s vd

/-- A LOAD record (R482) with the LOAD_CHAIN it makes (R470) and its entry of the load list. -/
def loadRecord (s : State) (vd ctx kind result gen handle va bytes : Nat) (model digest : List Byte) (after : Deferred) : State :=
  let pre := natLe 1 kind ++ natLe 1 result ++ natLe 2 gen ++ natLe 4 handle ++ natLe 8 va ++ natLe 8 bytes
    ++ sliceB model 0 16 ++ sliceB digest 0 48
  let c := s.chain vd
  let lc := sha384 (sliceB c.loadChain 0 48 ++ pre)
  let entry := natLe 1 kind ++ natLe 1 0 ++ natLe 2 gen ++ natLe 4 handle ++ natLe 8 c.seq ++ sliceB digest 0 48
  let s := s.modChain vd (fun c => { c with loadChain := lc, loads := c.loads ++ [entry] })
  amberAppend s vd 0x0004 ctx (pre ++ lc) after

/- Error records and fences. -/

def errValue : Nat := 2 ^ 64 - 1

/-- The 32 bytes of an error record (R338). -/
def errBytes (e : ErrRec) : List Byte :=
  natLe 2 e.cause ++ natLe 1 e.source ++ natLe 1 (b2n e.report) ++ natLe 4 e.ref ++ sliceB e.detail 0 24

/-- The number that stands for a ring in error records; the admin ring has no handle (DESIGN CHOICE, log 14). -/
def ringNum : RingRef → Nat
  | .admin _ => 0xFFFF
  | .cmd r => r

/-- The live context whose range holds a fence (R336). -/
def fenceOwner (s : State) (fn i : Nat) : Nat :=
  ((s.fnCtxs fn).find? (fun c => match s.ctx? fn c with
    | some x => x.fenceFirst ≤ i ∧ i < x.fenceFirst + x.fenceCount
    | none => false)).getD 0xFFFF

/-- The mirror entry of a fence (R336). -/
def mirrorBytes (s : State) (fn i : Nat) : List Byte :=
  let f := s.fence fn i
  natLe 8 f.value.toNat ++ natLe 2 (fenceOwner s fn i)
    ++ natLe 1 (b2n (f.value.toNat = errValue) + 2 * b2n (f.value.toNat = 2 ^ 64 - 2) + 4 * b2n f.warned + 8 * b2n f.arm.isSome)
    ++ [0] ++ natLe 4 f.lower ++ List.replicate 16 0
    ++ (match f.err with | some e => errBytes e | none => List.replicate 32 0)

def writeMirror (s : State) (fn i : Nat) : State :=
  let r := (s.fn fn).int
  if r.fenceEn then writeHost s fn (r.fenceBase + 64 * i) (mirrorBytes s fn i) else s

/-- Set an INT_EVENT bit for a fence, latching its index where the bit was clear (R335, R354). -/
def fenceEvent (s : State) (fn i : Nat) (spent : Bool) : State :=
  let r := (s.fn fn).int
  let was := if spent then r.spent else r.warn
  let s := s.modFn fn (fun x => { x with int := { x.int with
    warn := x.int.warn || !spent, spent := x.int.spent || spent, info := if was then x.int.info else i } })
  if !was && r.eventEn then raiseVector s fn r.eventVector else s

/-- Store a fence's new value, raising its arm, its warnings and its mirror entry (R335, R336, R340). -/
def fenceSet (s : State) (fn i v : Nat) (err : Option ErrRec) : State :=
  let f := s.fence fn i
  let fire := match f.arm with | some (w, x) => if v ≥ w then some x else none | none => none
  let warnNow := !f.warned && decide (v ≥ 2 ^ 63) && decide (v ≠ errValue)
  let s := s.setFence fn i { f with
    value := BitVec.ofNat 64 v, err := err, warned := f.warned || warnNow, arm := if fire.isSome then none else f.arm }
  let s := writeMirror s fn i
  let s := if warnNow then fenceEvent s fn i false else s
  let s := if v = 2 ^ 64 - 2 then fenceEvent s fn i true else s
  match fire with | some x => raiseVector s fn x | none => s

/-- Signal a fence: the table of R333. -/
def signalFence (s : State) (fn i v : Nat) (err : Option ErrRec) : State :=
  let f := s.fence fn i
  let cur := f.value.toNat
  if cur = errValue then s
  else if cur = 2 ^ 64 - 2 ∧ v ≠ errValue then
    s.modFn fn (fun x => { x with int := { x.int with rejected := satAdd 16 x.int.rejected 1 } })
  else if v = errValue then
    let e := err.getD {}
    let s := fenceSet s fn i errValue (some e)
    amberAppend s fn 0x0006 (fenceOwner s fn i) (natLe 2 i ++ List.replicate 6 0 ++ errBytes e) .none
  else if v = cur then s
  else if v < cur then
    let s := s.setFence fn i { f with lower := satAdd 32 f.lower 1 }
    let s := s.modFn fn (fun x => { x with int := { x.int with lower := satAdd 16 x.int.lower 1 } })
    writeMirror s fn i
  else fenceSet s fn i v none

/-- Fail a fence with a cause. -/
def failFence (s : State) (fn i : Nat) (e : ErrRec) : State := signalFence s fn i errValue (some e)

/-- Whether a wait for `w` is satisfied (R334). -/
def waitMet (s : State) (fn i w : Nat) : Bool := decide ((s.fence fn i).value.toNat ≥ w)

/-- Arm a fence (R340). -/
def armFence (s : State) (fn i w x : Nat) : State :=
  let f := s.fence fn i
  if f.value.toNat ≥ w then writeMirror (raiseVector (s.setFence fn i { f with arm := none }) fn x) fn i
  else
    let arm := match f.arm with
      | none => (w, x)
      | some (w', _) => if w' > w then (w, x) else (w', x)
    writeMirror (s.setFence fn i { f with arm := some arm }) fn i

/- Rings and packet completions. -/

def State.ring? (s : State) : RingRef → Option Ring
  | .cmd r => look s.gfe.rings r
  | .admin f => look s.gfe.admins f

def State.setRing (s : State) (r : RingRef) (x : Ring) : State :=
  match r with
  | .cmd n => { s with gfe := { s.gfe with rings := put s.gfe.rings n x } }
  | .admin f => { s with gfe := { s.gfe with admins := put s.gfe.admins f x } }

def State.modRing (s : State) (r : RingRef) (f : Ring → Ring) : State :=
  match s.ring? r with
  | some x => s.setRing r (f x)
  | none => s

/-- Statuses of R296. -/
def stOk : Nat := 0
def stField : Nat := 1
def stNoObject : Nat := 2
def stNotHere : Nat := 3
def stNoResource : Nat := 4
def stVerify : Nat := 5
def stFailed : Nat := 6
def stDepError : Nat := 7
def stPosture : Nat := 8

/-- The error record of a packet that fails a check (R291, R338; DESIGN CHOICE, log 14). -/
def fieldErr (p : PktRef) (off : Nat) : ErrRec :=
  { cause := 0x0001, source := 1, detail := natLe 2 (ringNum p.ring) ++ natLe 2 off ++ natLe 4 p.tag }

def causeErr (cause : Nat) (detail : List Byte) : ErrRec := { cause := cause, source := 1, detail := detail }

/-- The function of a ring. -/
def ringFn (s : State) : RingRef → Nat
  | .admin f => f
  | .cmd r => ((look s.gfe.rings r).map (·.fn)).getD 0

def cqeOf (p : PktRef) (status result detail nsw : Nat) (err : Option ErrRec) : Cqe :=
  { status := status, opcode := p.opcode, nsw := nsw, tag := p.tag, result := result, sqHead := p.sqHead,
    detail := detail, post := p.cqe || decide (status ≠ stOk),
    signal := p.signal.map (fun q => (q.1, if status = stOk then q.2 else errValue)), err := err }

/-- Take a packet off its ring's list of packets in flight. -/
def landPkt (s : State) (p : PktRef) : State :=
  s.modRing p.ring (fun x => { x with inflight := x.inflight.erase p.seq })

/-- The counter set of a command ring's context counts a packet that did not end OK; the admin ring has no context (R350). -/
def countFailed (s : State) (r : RingRef) (status : Nat) : State :=
  if status = stOk then s
  else
    match (match r with | .cmd n => look s.gfe.rings n | .admin _ => none) with
    | some x =>
      match (s.ctx? x.fn x.ctx).bind (·.counterSet) with
      | some k => { s with obj := { s.obj with sets := adjust s.obj.sets k (fun c => { c with failed := (c.failed + 1) % 2 ^ 32 }) } }
      | none => s
    | none => s

/-- Queue a packet's completion: its entry, its signal and its vector follow when COMPLETION_POST writes it; the
completions of a destroyed ring write no entry and signal at once (R295, R321). -/
def finishPkt (s : State) (p : PktRef) (fn status result detail nsw : Nat) (err : Option ErrRec) : State :=
  let c := cqeOf p status result detail nsw err
  match s.ring? p.ring with
  | some _ =>
    let s := countFailed (landPkt s p) p.ring status
    s.modRing p.ring (fun x => { x with waiting := x.waiting ++ [c] })
  | none =>
    match c.signal with
    | some (i, v) => signalFence s fn i v err
    | none => s

/-- Complete a packet once a record of the VD's chain is appended: AMBER_SEQ is that record's SEQ (R295). -/
def finishAfter (s : State) (p : PktRef) (fn result nsw : Nat) : State × Deferred :=
  (landPkt s p, .cqe fn p.ring (cqeOf p stOk result 0 nsw none))

/-- Signal the fences of released completions whose ring is gone: they write no entry (R321). -/
def settleCqes (s : State) : State :=
  let mine : List (Nat × Cqe) := s.ready.filterMap (fun x => match x.1 with | .cqe fn _ c => some (fn, c) | _ => none)
  let s := { s with ready := s.ready.filter (fun x => match x.1 with | .cqe _ _ _ => false | _ => true) }
  mine.foldl (fun s x => match x.2.signal with
    | some (i, v) => signalFence s x.1 i v x.2.err
    | none => s) s

/-- The phase bit of an entry (R118). -/
def phaseOf (prod log2 : Nat) : Nat := 1 - prod / 2 ^ log2 % 2

/-- The 32 bytes of a completion entry (R295). -/
def cqeBytes (c : Cqe) (phase : Nat) : List Byte :=
  natLe 1 c.status ++ natLe 1 c.opcode ++ natLe 2 c.nsw ++ natLe 4 c.tag ++ natLe 8 c.result ++ natLe 8 c.amberSeq
    ++ natLe 2 c.sqHead ++ natLe 2 c.detail ++ natLe 4 phase

/-- Latch a ring error of a function and put the ring in ERROR (R286, R323). -/
def ringError (s : State) (r : RingRef) (bit index : Nat) : State :=
  match s.ring? r with
  | none => s
  | some x =>
    let s := s.setRing r { x with sh := { x.sh with st := .error } }
    let g := (s.fn x.fn).gfe
    let first := !(g.overrun || g.fetchFault || g.cqFault || g.adminErr)
    let s := s.modFn x.fn (fun k => { k with gfe := { k.gfe with
      overrun := k.gfe.overrun || bit = 0, fetchFault := k.gfe.fetchFault || bit = 1, cqFault := k.gfe.cqFault || bit = 2,
      adminErr := k.gfe.adminErr || (match r with | .admin _ => true | .cmd _ => false),
      errRing := if first then (match r with | .admin _ => 0 | .cmd n => n) else k.gfe.errRing,
      errIndex := if first then index % 65536 else k.gfe.errIndex } })
    raiseVector s x.fn x.vector

/-- Write the oldest waiting completion of a ring: the entry, then its fence, then the vector (R295, R352). -/
def postCompletion (s : State) (r : RingRef) : State :=
  match s.ring? r with
  | none => s
  | some x =>
    match x.waiting with
    | [] => s
    | c :: t =>
      let fire (s : State) : State :=
        match c.signal with
        | some (i, v) => signalFence s x.fn i v c.err
        | none => s
      if !c.post then fire (s.setRing r { x with waiting := t })
      else if x.cqProd - x.cqCons ≥ 2 ^ x.cqLog2 then s
      else
        let bs := cqeBytes c (phaseOf x.cqProd x.cqLog2)
        let off := 32 * (x.cqProd % 2 ^ x.cqLog2)
        let wr : Option State := match r with
          | .admin f => some (writeHost s f (x.cqBase + off) bs)
          | .cmd _ => (writeVa s x.fn x.ctx (x.cqBase + off) bs).toOption
        match wr with
        | none => fire (ringError (s.setRing r { x with waiting := t }) r 2 x.cqProd)
        | some s =>
          let s := s.setRing r { x with waiting := t, cqProd := x.cqProd + 1 }
          raiseVector (fire s) x.fn x.vector

/- Notices and reports. -/

/-- Set a notice bit of a VD: 0 LEAVING, 1 CHANGED, 2 SPARE_USED, 4 LANE_CHANGED (R282). -/
def notice (s : State) (v bit : Nat) : State :=
  let s := s.modVd v (fun x => { x with
    leaving := x.leaving || bit = 0, changed := x.changed || bit = 1, spareUsed := x.spareUsed || bit = 2,
    laneChanged := x.laneChanged || bit = 4 })
  if (s.vd v).noticeEn then raiseVector s v (s.vd v).vector else s

end Sys2Proof.Machine
end

