-- ==== Sys2Proof/Machine/Descs.lean ====
section
/-! DEFINITION. Transfer descriptors: chunks, extents, and the copy of one chunk (R184–R187, R299, R300). -/

namespace Sys2Proof.Machine

def State.desc? (s : State) (d : Nat) : Option Desc := look s.xlt.descs d
def State.setDesc (s : State) (d : Nat) (x : Desc) : State := { s with xlt := { s.xlt with descs := put s.xlt.descs d x } }
def State.modDesc (s : State) (d : Nat) (f : Desc → Desc) : State :=
  { s with xlt := { s.xlt with descs := adjust s.xlt.descs d f } }

/-- The transfer count of a descriptor (R300). -/
def descTotal (d : Desc) : Nat := d.rows * d.len

/-- The first failing field of a 128-byte descriptor's bytes 0 to 63, by offset (R299). -/
def descBad (b : List Byte) : Option Nat :=
  let kind := fieldAt b 0 1
  let rows := fieldAt b 4 4
  let src := fieldAt b 8 8
  let dst := fieldAt b 16 8
  let len := fieldAt b 24 8
  let ss := fieldAt b 32 8
  let ds := fieldAt b 40 8
  if kind = 0 ∨ kind > 3 then some 0
  else if fieldAt b 1 1 > 1 then some 1
  else if fieldAt b 2 1 > 7 then some 2
  else if fieldAt b 3 1 ≠ 0 then some 3
  else if (kind ≠ 3 ∧ rows ≠ 1) ∨ rows = 0 ∨ rows > 65536 then some 4
  else if src ≥ 2 ^ 55 ∨ (kind = 2 ∧ src ≠ 0) then some 8
  else if dst ≥ 2 ^ 55 then some 16
  else if len = 0 ∨ len > 2 ^ 40 then some 24
  else if kind = 1 ∧ ss ≠ 0 then some 32
  else if kind ≠ 3 ∧ ds ≠ 0 then some 40
  else if !allZero (sliceB b 48 16) then some 48
  else if !allZero (sliceB b 64 64) then some 64
  else none

def descOf (b : List Byte) (fn ctx va : Nat) (owner : DescOwner) : Desc :=
  { fn := fn, ctx := ctx, va := va, owner := owner, kind := fieldAt b 0 1, record := fieldAt b 1 1 = 1, tc := fieldAt b 2 1,
    rows := fieldAt b 4 4, src := fieldAt b 8 8, dst := fieldAt b 16 8, len := fieldAt b 24 8,
    srcStride := sgn (fieldAt b 32 8) 64, dstStride := sgn (fieldAt b 40 8) 64, pattern := fieldAt b 32 8 }

/-- The VA of the byte at a position of the transfer count, for one operand (R299). -/
def descVa (d : Desc) (dst : Bool) (pos : Nat) : Nat :=
  if d.kind = 3 then
    let row := pos / d.len
    let base : Int := if dst then d.dst else d.src
    let str := if dst then d.dstStride else d.srcStride
    unsgn (base + str * row) 64 + pos % d.len
  else (if dst then d.dst else d.src) + pos

/-- Consecutive VA ranges of an operand over a part of the transfer count, by fuel of one row each. -/
def descSegs (d : Desc) (dst : Bool) : Nat → Nat → Nat → List (Nat × Nat)
  | 0, _, _ => []
  | f + 1, pos, n =>
    if n = 0 then []
    else
      let k := if d.kind = 3 then min n (d.len - pos % d.len) else n
      (descVa d dst pos, k) :: descSegs d dst f (pos + k) (n - k)

/-- Append a run to a list of extents (newest first), joining physically contiguous runs (R186). -/
def joinExt (x : Extent) : List Extent → List Extent
  | e :: t =>
    if e.space = x.space ∧ x.space < 2 ∧ e.addr + e.len = x.addr ∧ e.len + x.len < 2 ^ 28 then
      { e with len := e.len + x.len } :: t
    else x :: e :: t
  | [] => [x]

/-- Extents of one VA range, newest first, ending in a hole where a walk fails (R186); by fuel of one granule each.
Answers whether the range was translated to its end. -/
def rangeExts (fn ctx : Nat) (dst : Bool) : Nat → State → Nat → Nat → List Extent → List Extent × Bool × State
  | 0, s, _, _, acc => (acc, true, s)
  | f + 1, s, va, n, acc =>
    if n = 0 then (acc, true, s)
    else
      match gfeXlate s fn ctx va dst with
      | (.dev a len _, s) =>
        let k := min n len
        rangeExts fn ctx dst f s (va + k) (n - k) (joinExt { addr := a, len := k, space := 0, dst := dst } acc)
      | (.host a len _, s) =>
        let k := min n len
        rangeExts fn ctx dst f s (va + k) (n - k) (joinExt { addr := a, len := k, space := 1, dst := dst } acc)
      | (_, s) => ({ addr := va, len := min n (2 ^ 28 - 1), space := 2, dst := dst } :: acc, false, s)

/-- Extents of an operand over [pos, pos + n), oldest first. -/
def operandExts (s : State) (d : Desc) (dst : Bool) (pos n : Nat) : List Extent × State :=
  let r := (descSegs d dst (n / d.len + 2) pos n).foldl (fun (acc : List Extent × Bool × State) p =>
    if acc.2.1 then rangeExts d.fn d.ctx dst (p.2 / 4096 + 3) acc.2.2 p.1 p.2 acc.1 else acc) ([], true, s)
  (r.1.reverse, r.2.2)

/-- The bytes the first `k` extents cover. -/
def coverOf (es : List Extent) (k : Nat) : Nat := (es.take k).foldl (fun a e => a + e.len) 0

/-- Translate the chunk that starts at `pos`: its end by R186 and its extents, under the context's epoch. -/
def translateChunk (s : State) (id : Nat) : State :=
  match s.desc? id with
  | none => s
  | some d =>
    match s.ctx? d.fn d.ctx with
    | none => s
    | some x =>
      let n := min (2 * 1024 * 1024) (descTotal d - d.pos)
      let (se, s) := if d.kind = 2 then ([], s) else operandExts s d false d.pos n
      let (de, s) := operandExts s d true d.pos n
      let lim := if x.extPool = 0 then 2 else 1024
      let n' := min n (min (if d.kind = 2 ∨ se.length ≤ lim then n else coverOf se lim)
        (if de.length ≤ lim then n else coverOf de lim))
      -- in a context with a pool a STRIDED chunk ends at a row's end (R186)
      let n'' := if x.extPool ≠ 0 ∧ n' < n ∧ d.kind = 3 then
          (let e := (d.pos + n') / d.len * d.len
           if e > d.pos then e - d.pos else n')
        else n'
      let (se, s) := if d.kind = 2 then ([], s) else operandExts s d false d.pos n''
      let (de, s) := operandExts s d true d.pos n''
      s.setDesc id { d with chunkEnd := d.pos + n'', exts := se ++ de, epoch := x.epoch }

/-- Read through extents: bytes, first poisoned address, or none at a hole. -/
def readExts (s : State) (fn : Nat) (es : List Extent) : Option (List (List Byte × Bool) × Option Nat) :=
  es.foldl (fun acc e =>
    match acc with
    | none => none
    | some (bs, po) =>
      if e.space = 2 then none
      else if e.space = 1 then some (bs ++ [(readHost s e.addr e.len, false)], po)
      else
        let (b, p) := readDpaVd s fn e.addr e.len
        some (bs ++ [(b, p.isSome)], po.orElse (fun _ => p))) (some ([], none))

/-- Write bytes through destination extents. Poisoned data is stored poisoned in device memory (R156). -/
def writeExts (s : State) (fn : Nat) (es : List Extent) (bs : List Byte) (poison : Bool) : State :=
  (es.foldl (fun (acc : State × List Byte) e =>
    let b := acc.2.take e.len
    (if e.space = 1 then writeHost acc.1 fn e.addr b
     else logDev (writeDpaRaw acc.1 (acc.1.vdTag fn) e.addr b poison) fn e.addr b.length, acc.2.drop e.len)) (s, bs)).1

/-- The bytes a FILL writes over [pos, pos + n): the 8-byte pattern repeated from DST (R299). -/
def fillBytes (pattern pos n : Nat) : List Byte :=
  (List.range n).map (fun i => BitVec.ofNat 8 (pattern >>> (8 * ((pos + i) % 8))))

/-- What running a chunk comes to. -/
inductive ChunkRes where
  | ok (s : State)
  | hole (va : Nat) (write : Bool)
  | poisonToHost (dpa : Nat)

/-- The rows of an operand as VA ranges. -/
def descRows (d : Desc) (dst : Bool) : List (Nat × Nat) :=
  (List.range d.rows).map (fun i => (descVa d dst (i * d.len), d.len))

/-- Whether the source of a transfer overlaps its destination: in its rows, or in the memory that a chunk moves (R300;
DEDUCED, log 152). -/
def descOverlaps (d : Desc) : Bool :=
  (descRows d false).any (fun a => (descRows d true).any (fun b => decide (a.1 < b.1 + b.2) && decide (b.1 < a.1 + a.2)))
    || d.exts.any (fun a => !a.dst && d.exts.any (fun b => b.dst && decide (a.space = b.space) &&
        decide (a.addr < b.addr + b.len) && decide (b.addr < a.addr + a.len)))

/-- The bytes that a chunk writes: those it read or, where source and destination overlap, free values (R300). -/
def movedBytes (s : State) (d : Desc) (n : Nat) (bs : List Byte) : State × List Byte :=
  if descOverlaps d then
    let (k, s) := takeFree s
    (s, (List.range n).map (Config.overlapByte k))
  else (s, bs)

/-- Copy the current chunk of a descriptor through its extents (R186, R300). -/
def runChunk (s : State) (d : Desc) : ChunkRes :=
  match d.exts.find? (fun e => e.space = 2) with
  | some e => .hole e.addr e.dst
  | none =>
    let se := d.exts.filter (fun e => !e.dst)
    let de := d.exts.filter (·.dst)
    let n := d.chunkEnd - d.pos
    if d.kind = 2 then .ok (writeExts s d.fn de (fillBytes d.pattern d.pos n) false)
    else
      match readExts s d.fn se with
      | none => .ok s
      | some (ps, po) =>
        let (s, bs) := movedBytes s d n (ps.flatMap (·.1))
        match po with
        | some a => if de.any (fun e => e.space = 1) then .poisonToHost a
            else .ok (writeExts s d.fn de bs true)
        | none => .ok (writeExts s d.fn de bs false)

/-- Take an extent-list slot of the context's pool, where the chunk needs one (R186). -/
def takeExtSlot (s : State) (id : Nat) : Option State :=
  match s.desc? id with
  | none => some s
  | some d =>
    match s.ctx? d.fn d.ctx with
    | none => some s
    | some x =>
      if d.slot.isSome ∨ d.exts.length ≤ 4 ∨ x.extPool = 0 then some s
      else
        match (List.range x.extSlots).find? (fun k => !x.extUsed.contains k) with
        | none => none
        | some k => some ((s.setDesc id { d with slot := some k }).setCtx d.fn d.ctx { x with extUsed := x.extUsed ++ [k] })

/-- The 12 bytes of an extent (R185). -/
def extBytes (e : Extent) : List Byte :=
  natLe 8 e.addr ++ natLe 4 (e.len + e.space * 2 ^ 28 + b2n e.dst * 2 ^ 30)

/-- Write the translation block into the descriptor's bytes 64 to 127, and the rest of the extents into its slot
(R184, R186). -/
def writeBlock (s : State) (id : Nat) : State :=
  match s.desc? id with
  | none => s
  | some d =>
    match s.ctx? d.fn d.ctx, (rangeOf s d.fn d.ctx false d.va 128) with
    | some x, .ok ps =>
      let list := match d.slot with | some k => x.extPool + k * 65536 | none => 0
      let inline := (List.range 4).flatMap (fun i => extBytes (d.exts.getD i { len := 0 }))
      let blk := natLe 2 d.epoch ++ natLe 2 d.exts.length ++ natLe 4 d.chunks ++ natLe 8 list ++ inline
      match ps with
      | (_, a, _) :: _ =>
        let s := writeDpa s d.fn (a + 64) blk
        if list = 0 then s
        else writeDpa s d.fn list ((d.exts.drop 4).flatMap (fun e => extBytes e ++ List.replicate 4 0))
      | [] => s
    | _, _ => s

/-- Return a descriptor's slot and forget it (R186). -/
def dropDesc (s : State) (id : Nat) : State :=
  match s.desc? id with
  | none => s
  | some d =>
    let s := match d.slot with
      | some k => s.modCtx d.fn d.ctx (fun x => { x with extUsed := x.extUsed.erase k })
      | none => s
    { s with xlt := { s.xlt with
      descs := del s.xlt.descs id
      invals := mapVals s.xlt.invals (fun _ v => { v with waits := v.waits.erase id }) } }

end Sys2Proof.Machine
end

