-- ==== Sys2Proof/Machine/Fp.lean ====
section
/-! DEFINITION. Number formats, rounding and conversion (R34–R57), the FP32 operations of the vector unit (R66–R68)
and the special-function unit (R69). -/

namespace Sys2Proof.Machine

/-- The real, infinity or NaN that an encoding stands for; a finite value is ±m × 2^e. -/
inductive FVal where
  | nan
  | inf (neg : Bool)
  | fin (neg : Bool) (m : Nat) (e : Int)
deriving DecidableEq, Repr

/-- How the all-ones exponent is read (R35, R36). -/
inductive Special where
  | ieee
  | e4m3
  | finite
deriving DecidableEq, Repr

/-- A floating-point layout of R35. -/
structure FloatLayout where
  exp : Nat
  man : Nat
  bias : Nat
  special : Special
deriving DecidableEq, Repr

def layE4M3 : FloatLayout := ⟨4, 3, 7, .e4m3⟩
def layE5M2 : FloatLayout := ⟨5, 2, 15, .ieee⟩
def layE2M3 : FloatLayout := ⟨2, 3, 1, .finite⟩
def layE3M2 : FloatLayout := ⟨3, 2, 3, .finite⟩
def layE2M1 : FloatLayout := ⟨2, 1, 1, .finite⟩
def layBF16 : FloatLayout := ⟨8, 7, 127, .ieee⟩
def layFP16 : FloatLayout := ⟨5, 10, 15, .ieee⟩
def layFP32 : FloatLayout := ⟨8, 23, 127, .ieee⟩

/-- The value of an encoding (R35, R36). -/
def decodeF (p : FloatLayout) (c : Nat) : FVal :=
  let m := fld c 0 p.man
  let e := fld c p.man p.exp
  let neg := c.testBit (p.man + p.exp)
  let ones := 2 ^ p.exp - 1
  if p.special = .ieee ∧ e = ones then (if m = 0 then .inf neg else .nan)
  else if p.special = .e4m3 ∧ e = ones ∧ m = 2 ^ p.man - 1 then .nan
  else if e = 0 then .fin neg m (1 - (p.bias : Int) - p.man)
  else .fin neg (2 ^ p.man + m) ((e : Int) - p.bias - p.man)

/-- The largest finite encoding, without its sign (R35). -/
def maxCode (p : FloatLayout) : Nat :=
  match p.special with
  | .ieee => (2 ^ p.exp - 1) * 2 ^ p.man - 1
  | .e4m3 => 2 ^ (p.exp + p.man) - 2
  | .finite => 2 ^ (p.exp + p.man) - 1

def signBit (p : FloatLayout) (neg : Bool) : Nat := if neg then 2 ^ (p.exp + p.man) else 0

/-- The canonical NaN of R37. -/
def nanCode (p : FloatLayout) : Nat :=
  match p.special with
  | .e4m3 => 2 ^ (p.exp + p.man) - 1
  | _ => (2 ^ p.exp - 1) * 2 ^ p.man + 2 ^ (p.man - 1)

def infCode (p : FloatLayout) : Nat := (2 ^ p.exp - 1) * 2 ^ p.man

/-- Numerics status bits of R70. -/
def nswNanOut : W16 := 0x01#16
def nswInfOut : W16 := 0x02#16
def nswSat : W16 := 0x04#16
def nswUnderflowLoss : W16 := 0x08#16
def nswRange : W16 := 0x10#16
def nswInvalidCvt : W16 := 0x20#16
def nswLosOob : W16 := 0x40#16
def nswSrUsed : W16 := 0x80#16

/-- `m / 2^s` rounded to an integer in a mode; `r` is the 16-bit random value of SR (R52, R53). -/
def roundShift (rm : RMode) (r m s : Nat) : Nat :=
  let k := m >>> s
  let rem := m % 2 ^ s
  if rem = 0 then k
  else match rm with
    | .rtz => k
    | .rne => if 2 * rem > 2 ^ s ∨ (2 * rem = 2 ^ s ∧ k % 2 = 1) then k + 1 else k
    | .sr => if (rem * 2 ^ 16) >>> s > r then k + 1 else k

/-- A magnitude m × 2^e as an integer number of units 2^q, rounded (R52). -/
def roundUnits (rm : RMode) (r m : Nat) (e q : Int) : Nat :=
  if e ≥ q then m <<< (e - q).toNat else roundShift rm r m (q - e).toNat

/-- The magnitude encoding of a finite value after rounding, before overflow is judged (R36, R52):
the units and their exponent folded into one code that may pass the largest finite one. -/
def roundCode (p : FloatLayout) (rm : RMode) (r m : Nat) (e : Int) : Nat :=
  if m = 0 then 0
  else
    let top : Int := e + Nat.log2 m
    let emin : Int := 1 - (p.bias : Int)
    let q : Int := max top emin - p.man
    let k := roundUnits rm r m e q
    -- a carry to 2^(man+1) lands on the next exponent with mantissa 0
    ((q + p.man - emin).toNat) * 2 ^ p.man + k

/-- Convert a value to a floating-point format; `sat` selects the overflow policy SAT (R54). Answers the code and
the status bits the conversion sets (R70). -/
def encodeF (p : FloatLayout) (rm : RMode) (sat : Bool) (r : Nat) : FVal → Nat × W16
  | .nan => if p.special = .finite then (0, 0) else (nanCode p, nswNanOut)
  | .inf neg =>
    match p.special with
    | .ieee => (signBit p neg + infCode p, nswInfOut)
    | .e4m3 => if sat then (signBit p neg + maxCode p, nswSat) else (nanCode p, nswNanOut)
    | .finite => (signBit p neg + maxCode p, nswSat)
  | .fin neg m e =>
    let c := roundCode p rm r m e
    if c ≤ maxCode p then (signBit p neg + c, 0)
    else if sat ∨ rm = .rtz ∨ p.special = .finite then (signBit p neg + maxCode p, nswSat)
    else if p.special = .e4m3 then (nanCode p, nswNanOut)
    else (signBit p neg + infCode p, nswInfOut)

/-- Compare the magnitude of a finite value with the magnitude m' × 2^e'. -/
def magAbove (m : Nat) (e : Int) (m' : Nat) (e' : Int) : Bool :=
  let lo := min e e'
  decide (m <<< (e - lo).toNat > m' <<< (e' - lo).toNat)

/-- Whether a finite value lies beyond the largest finite magnitude of a layout. -/
def beyondMax (p : FloatLayout) : FVal → Bool
  | .fin _ m e =>
    match decodeF p (maxCode p) with
    | .fin _ m' e' => magAbove m e m' e'
    | _ => false
  | _ => false

/-- A conversion with R54's SAT report under RTZ: a finite value beyond the maximum that RTZ writes as ±max finite
sets SAT under either policy (DEDUCED, log 6). -/
def convertF (p : FloatLayout) (rm : RMode) (sat : Bool) (r : Nat) (v : FVal) : Nat × W16 :=
  let (c, f) := encodeF p rm sat r v
  if rm = .rtz ∧ beyondMax p v then (c, f ||| nswSat) else (c, f)

/-- Convert to a two's-complement integer of `n` bits: saturating, a NaN giving 0 (R54, R56). -/
def convertI (n : Nat) (rm : RMode) (r : Nat) : FVal → Nat × W16
  | .nan => (0, nswInvalidCvt)
  | .inf neg => (if neg then 2 ^ (n - 1) else 2 ^ (n - 1) - 1, 0)
  | .fin neg m e =>
    let k := roundUnits rm r m e 0
    let lim := if neg then 2 ^ (n - 1) else 2 ^ (n - 1) - 1
    let f := if k > lim ∨ (rm = .rtz ∧ magAbove m e lim 0) then nswSat else 0
    let k' := min k lim
    (if neg then (2 ^ n - k') % 2 ^ n else k', f)

/-- An integer as a value. -/
def intVal (x : Int) : FVal := .fin (decide (x < 0)) x.natAbs 0

/-- Exact sum of two finite values as a signed integer of units 2^e. -/
def alignSum (n1 : Bool) (m1 : Nat) (e1 : Int) (n2 : Bool) (m2 : Nat) (e2 : Int) : Int × Int :=
  let e := min e1 e2
  let a : Int := (m1 <<< (e1 - e).toNat : Nat)
  let b : Int := (m2 <<< (e2 - e).toNat : Nat)
  ((if n1 then -a else a) + (if n2 then -b else b), e)

/-- Exact addition of values; a zero sum of unlike signs is +0 (IEEE 754 under RNE and RTZ). -/
def addV : FVal → FVal → FVal
  | .nan, _ => .nan
  | _, .nan => .nan
  | .inf a, .inf b => if a = b then .inf a else .nan
  | .inf a, _ => .inf a
  | _, .inf b => .inf b
  | .fin n1 m1 e1, .fin n2 m2 e2 =>
    let (s, e) := alignSum n1 m1 e1 n2 m2 e2
    if s = 0 then .fin (n1 && n2) 0 e else .fin (decide (s < 0)) s.natAbs e

def negV : FVal → FVal
  | .nan => .nan
  | .inf a => .inf (!a)
  | .fin n m e => .fin (!n) m e

/-- Exact product of values; infinity times zero is NaN. -/
def mulV : FVal → FVal → FVal
  | .nan, _ => .nan
  | _, .nan => .nan
  | .inf a, .inf b => .inf (a ^^ b)
  | .inf a, .fin n m _ => if m = 0 then .nan else .inf (a ^^ n)
  | .fin n m _, .inf b => if m = 0 then .nan else .inf (n ^^ b)
  | .fin n1 m1 e1, .fin n2 m2 e2 => .fin (n1 ^^ n2) (m1 * m2) (e1 + e2)

/-- Multiply a value by 2^k. -/
def scaleV (v : FVal) (k : Int) : FVal :=
  match v with
  | .fin n m e => .fin n m (e + k)
  | w => w

def f32 (w : W32) : FVal := decodeF layFP32 w.toNat

/-- Round a value to FP32 under RNE or RTZ with IEEE overflow (R54, R66). -/
def toF32 (rm : RMode) (v : FVal) : W32 := BitVec.ofNat 32 (encodeF layFP32 rm false 0 v).1

def fadd (rm : RMode) (a b : W32) : W32 := toF32 rm (addV (f32 a) (f32 b))
def fsub (rm : RMode) (a b : W32) : W32 := toF32 rm (addV (f32 a) (negV (f32 b)))
def fmul (rm : RMode) (a b : W32) : W32 := toF32 rm (mulV (f32 a) (f32 b))
def ffma (rm : RMode) (a b c : W32) : W32 := toF32 rm (addV (mulV (f32 a) (f32 b)) (f32 c))

def nan32 : W32 := 0x7FC00000#32
def isNan32 (w : W32) : Bool := f32 w = .nan

/-- An order of FP32 codes in which −0 stands just below +0 (R66). -/
def key32 (w : W32) : Int :=
  let m : Nat := w.toNat % 2 ^ 31
  if w.toNat.testBit 31 then - (m : Int) - 1 else (m : Int)

/-- VMIN and VMAX of one lane: −0 below +0, a NaN and a number give the number (R66). -/
def fminmax (mx : Bool) (a b : W32) : W32 :=
  if isNan32 a then (if isNan32 b then nan32 else b)
  else if isNan32 b then a
  else if (key32 a < key32 b) = mx then b else a

/-- −1, 0 or 1 for two numbers that are no NaN, −0 equal to +0. -/
def cmpV (a b : FVal) : Option Int :=
  match a, b with
  | .nan, _ => none
  | _, .nan => none
  | a, b =>
    match addV a (negV b) with
    | .nan => some 0
    | .inf n => some (if n then -1 else 1)
    | .fin n m _ => some (if m = 0 then 0 else if n then -1 else 1)

/-- One lane of a VCMP (R66). -/
def fcmp (p : VCmp) (a b : W32) : Bool :=
  match cmpV (f32 a) (f32 b) with
  | none => decide (p = .ne)
  | some c =>
    match p with
    | .eq => decide (c = 0)
    | .ne => decide (c ≠ 0)
    | .lt => decide (c < 0)
    | .le => decide (c ≤ 0)
    | .gt => decide (c > 0)
    | .ge => decide (c ≥ 0)

/-- One level of the canonical tree of R64. -/
def treeLevel {α : Type} (f : α → α → α) : List α → List α
  | a :: b :: t => f a b :: treeLevel f t
  | t => t

/-- The canonical binary tree of R64 over a list, by fuel of one level each. -/
def treeFold {α : Type} (f : α → α → α) : Nat → List α → Option α
  | _, [] => none
  | _, [a] => some a
  | 0, a :: _ => some a
  | n + 1, l => treeFold f n (treeLevel f l)

/-- The canonical sum of FP32 codes; no terms give +0 (R64). -/
def canonSum (l : List W32) : W32 := (treeFold (fadd .rne) l.length l).getD 0

/- Philox4x32-10 in its published form (R53, R139). -/

def philoxRound (k0 k1 : Nat) (c : Nat × Nat × Nat × Nat) : Nat × Nat × Nat × Nat :=
  let (c0, c1, c2, c3) := c
  let p0 := 0xD2511F53 * c0
  let p1 := 0xCD9E8D57 * c2
  (((p1 >>> 32) ^^^ c1 ^^^ k0) % 2 ^ 32, p1 % 2 ^ 32, ((p0 >>> 32) ^^^ c3 ^^^ k1) % 2 ^ 32, p0 % 2 ^ 32)

def philoxRounds : Nat → Nat → Nat → Nat × Nat × Nat × Nat → Nat × Nat × Nat × Nat
  | 0, _, _, c => c
  | n + 1, k0, k1, c =>
    philoxRounds n ((k0 + 0x9E3779B9) % 2 ^ 32) ((k1 + 0xBB67AE85) % 2 ^ 32) (philoxRound k0 k1 c)

/-- The first output word of Philox4x32-10 under a 64-bit key, low word first (R53). -/
def philox (key : Nat) (c0 c1 c2 c3 : Nat) : Nat :=
  (philoxRounds 10 (key % 2 ^ 32) (key / 2 ^ 32 % 2 ^ 32) (c0 % 2 ^ 32, c1 % 2 ^ 32, c2 % 2 ^ 32, c3 % 2 ^ 32)).1

/-- The 16-bit random value of stochastic rounding (R53). -/
def srRandom (seed idx tensor : Nat) : Nat :=
  philox seed (idx % 2 ^ 32) (idx / 2 ^ 32) tensor 0x5352 % 2 ^ 16

/- Element formats of R34. -/

/-- The element layout of a floating-point or MX format. -/
def layoutOf : Fmt → Option FloatLayout
  | .e4m3 | .mxE4m3 => some layE4M3
  | .e5m2 | .mxE5m2 => some layE5M2
  | .mxE2m3 => some layE2M3
  | .mxE3m2 => some layE3M2
  | .mxE2m1 => some layE2M1
  | .bf16 => some layBF16
  | .fp16 => some layFP16
  | .fp32 => some layFP32
  | _ => none

def isMx : Fmt → Bool
  | .mxE4m3 | .mxE5m2 | .mxE2m3 | .mxE3m2 | .mxE2m1 => true
  | _ => false

def isVq : Fmt → Bool
  | .vq2E4 | .vq2E5 | .vq3E4 | .vq3E5 => true
  | _ => false

def isInt : Fmt → Bool
  | .int4 | .int8 | .int32 => true
  | _ => false

def isFp8Family (f : Fmt) : Bool := f = .e4m3 ∨ f = .e5m2

/-- The width of an integer format in bits (R41). -/
def intBits : Fmt → Nat
  | .int4 => 4
  | .int8 => 8
  | _ => 32

/-- The value of one element code, without any block scale (R36, R41). -/
def elemVal (f : Fmt) (c : Nat) : FVal :=
  match layoutOf f with
  | some p => decodeF p c
  | none => intVal (sgn c (intBits f))

/-- The exponent of an E8M0 scale, or none for NaN (R38). -/
def scaleExp (x : Nat) : Option Int := if x = 0xFF then none else some ((x : Int) - 127)

/-- A value under an E8M0 scale (R38, R39). -/
def scaledVal (x : Nat) (v : FVal) : FVal :=
  match scaleExp x with
  | none => .nan
  | some k => scaleV v k

/-- The default overflow policy is SAT for E4M3, E5M2, MX and integer targets (R54). -/
def defaultSat (f : Fmt) : Bool :=
  match f with
  | .bf16 | .fp16 | .fp32 => false
  | _ => true

def satOf (f : Fmt) : Ovf → Bool
  | .default => defaultSat f
  | .sat => true
  | .ieee => decide (isMx f ∨ isInt f)

/-- Convert one value to a format that is no MX format (R54–R56). -/
def convertTo (f : Fmt) (rm : RMode) (o : Ovf) (r : Nat) (v : FVal) : Nat × W16 :=
  match layoutOf f with
  | some p => convertF p rm (satOf f o) r v
  | none => convertI (intBits f) rm r v

/-- The exponent of the largest normal value of an MX element format (R57). -/
def emaxOf : Fmt → Int
  | .mxE2m1 | .mxE2m3 => 2
  | .mxE3m2 => 4
  | .mxE4m3 => 8
  | _ => 15

def isFin : FVal → Bool
  | .fin _ _ _ => true
  | _ => false

/-- floor(log2) of the largest magnitude of a block, none where every value is zero. -/
def amaxLog : List FVal → Option Int
  | [] => none
  | v :: t =>
    match v, amaxLog t with
    | .fin _ m e, o =>
      if m = 0 then o
      else match o with
        | none => some (e + Nat.log2 m)
        | some k => some (max k (e + Nat.log2 m))
    | _, o => o

/-- Convert a block of values into an MX block: its scale, its element codes, the status bits; `r i` is the SR
random value of position i (R57). -/
def convertMx (f : Fmt) (rm : RMode) (r : List Nat) (vs : List FVal) : Nat × List Nat × W16 :=
  if vs.any (fun v => !isFin v) then (0xFF, vs.map (fun _ => 0), nswNanOut)
  else
    match amaxLog vs with
    | none => (0, (vs.zip r).map (fun p => ((layoutOf f).map (fun l => (convertF l rm true p.2 p.1).1)).getD 0), 0)
    | some k =>
      let x : Nat := (max 0 (min 254 (k - emaxOf f + 127))).toNat
      let es := (vs.zip r).map (fun p =>
        match layoutOf f with
        | some l => convertF l rm true p.2 (scaleV p.1 (127 - (x : Int)))
        | none => (0, 0))
      (x, es.map (·.1), es.foldl (fun a e => a ||| e.2) 0)

/- The special-function unit (R69): nominal values to 2^-256, then the result the unit's fixed table gives within the
bound. -/

/-- Fixed point with 256 fraction bits. -/
def fxOne : Nat := 2 ^ 256

def fxMul (a b : Int) : Int := a * b / (fxOne : Int)

/-- exp of a fixed-point number of magnitude at most about 1, by its series. -/
def fxExpAux : Nat → Int → Int → Int → Nat → Int
  | 0, _, _, acc, _ => acc
  | n + 1, y, t, acc, k =>
    let t' := fxMul t y / (k : Int)
    fxExpAux n y t' (acc + t') (k + 1)

def fxExp (y : Int) : Int := fxExpAux 70 y fxOne fxOne 1

/-- 2 × atanh(n / d) in fixed point. -/
def fxAtanh2Aux : Nat → Int → Int → Int → Nat → Int
  | 0, _, _, acc, _ => acc
  | n + 1, z2, t, acc, k =>
    let t' := fxMul t z2
    fxAtanh2Aux n z2 t' (acc + t' / (k : Int)) (k + 2)

def fxAtanh2 (n d : Int) : Int :=
  let z := n * (fxOne : Int) / d
  2 * fxAtanh2Aux 90 (fxMul z z) z z 3

def fxLn2 : Int := fxAtanh2 1 3

/-- atan(1 / q) in fixed point. -/
def fxAtanInvAux : Nat → Int → Int → Int → Nat → Bool → Int
  | 0, _, _, acc, _, _ => acc
  | n + 1, q2, t, acc, k, neg =>
    let t' := t / q2
    fxAtanInvAux n q2 t' (if neg then acc - t' / (k : Int) else acc + t' / (k : Int)) (k + 2) (!neg)

def fxAtanInv (q : Nat) : Int :=
  fxAtanInvAux 120 (q * q : Nat) ((fxOne : Int) / q) ((fxOne : Int) / q) 3 true

/-- π by Machin's formula. -/
def fxPi : Int := 16 * fxAtanInv 5 - 4 * fxAtanInv 239

/-- A finite value as fixed point. -/
def fxOf : FVal → Int
  | .fin n m e =>
    let s := e + 256
    let a : Int := if s ≥ 0 then (m <<< s.toNat : Nat) else (m >>> (-s).toNat : Nat)
    if n then -a else a
  | _ => 0

def fxVal (x : Int) : FVal := .fin (decide (x < 0)) x.natAbs (-256)

/-- e^y for y ≤ 0, in fixed point. -/
def fxExpNeg (y : Int) : Int :=
  if y < -300 * (fxOne : Int) then 0
  else
    let n := (-y / fxLn2)
    fxExp (y + n * fxLn2) / (2 ^ n.toNat : Nat)

/-- sin and cos by their series. -/
def fxTrigAux : Nat → Int → Int → Int → Nat → Bool → Int
  | 0, _, _, acc, _, _ => acc
  | n + 1, y2, t, acc, k, neg =>
    let t' := fxMul t y2 / ((k * (k + 1) : Nat) : Int)
    fxTrigAux n y2 t' (if neg then acc - t' else acc + t') (k + 2) (!neg)

def fxReduce (y : Int) : Int :=
  let p := 2 * fxPi
  let r := y % p
  if r > fxPi then r - p else r

def fxSin (y : Int) : Int :=
  let r := fxReduce y
  fxTrigAux 60 (fxMul r r) r r 2 true

def fxCos (y : Int) : Int :=
  let r := fxReduce y
  fxTrigAux 60 (fxMul r r) fxOne fxOne 1 true

/-- floor(2^k / m) with a sticky bit below it. -/
def recipSticky (m k : Nat) : Nat := 2 * (2 ^ k / m) + b2n (2 ^ k % m ≠ 0)

/-- The square root of m × 2^e as a value with a sticky bit, for rounding. -/
def sqrtV (m : Nat) (e : Int) : FVal :=
  let odd : Nat := if e % 2 = 0 then 0 else 1
  let n := (m <<< odd) <<< 200
  let r := isqrt n
  .fin false (2 * r + b2n (r * r ≠ n)) ((e - odd) / 2 - 101)

/-- The value an SFU instruction approximates: the function of R69, or its special value. -/
def sfuNominal (op : Sfu) (w : W32) : FVal :=
  match op, f32 w with
  | _, .nan => .nan
  | .rcp, .inf n => .fin n 0 0
  | .rcp, .fin n m e => if m = 0 then .inf n else .fin n (recipSticky m 400) (-401 - e)
  | .rsqrt, .inf n => if n then .nan else .fin false 0 0
  | .rsqrt, .fin n m e =>
    if m = 0 then .inf n else if n then .nan
    else
      match sqrtV m e with
      | .fin _ m' e' => .fin false (recipSticky m' 700) (-701 - e')
      | v => v
  | .sqrt, .inf n => if n then .nan else .inf false
  | .sqrt, .fin n m e => if m = 0 then .fin n 0 0 else if n then .nan else sqrtV m e
  | .exp2, .inf n => if n then .fin false 0 0 else .inf false
  | .exp2, .fin n m e =>
    let x := fxOf (.fin n m e)
    if x > 200 * (fxOne : Int) then .fin false 1 200
    else if x < -200 * (fxOne : Int) then .fin false 1 (-200)
    else
      let k := x / (fxOne : Int)
      .fin false (fxExp (fxMul (x - k * fxOne) fxLn2)).natAbs (k - 256)
  | .log2, .inf n => if n then .nan else .inf false
  | .log2, .fin n m e =>
    if m = 0 then .inf true else if n then .nan
    else
      let l := Nat.log2 m
      let d : Int := (2 ^ l : Nat)
      let ln := fxAtanh2 ((m : Int) - d) ((m : Int) + d)
      fxVal ((e + l) * (fxOne : Int) + ln * (fxOne : Int) / fxLn2)
  | .sin, .inf _ => .nan
  | .sin, v => fxVal (fxSin (fxOf v))
  | .cos, .inf _ => .nan
  | .cos, v => fxVal (fxCos (fxOf v))
  | .tanh, .inf n => .fin n 1 0
  | .tanh, .fin n m e =>
    let q := fxExpNeg (-2 * fxOf (.fin false m e))
    let t := ((fxOne : Int) - q) * (fxOne : Int) / ((fxOne : Int) + q)
    .fin n t.natAbs (-256)
  | .sigm, .inf n => if n then .fin false 0 0 else .fin false 1 0
  | .sigm, .fin n m e =>
    let q := fxExpNeg (- fxOf (.fin false m e))
    let num : Int := if n then q else fxOne
    fxVal (num * (fxOne : Int) / ((fxOne : Int) + q))

/-- The inputs whose result R69 lists as a special value, or that a NaN decides: these results are exact. -/
def sfuExact (op : Sfu) (w : W32) : Bool :=
  match op, f32 w with
  | _, .nan => true
  | _, .inf _ => true
  | .sqrt, _ => true
  | .rcp, .fin _ m _ => m = 0
  | .rsqrt, .fin n m _ => m = 0 || n
  | .log2, .fin n m _ => m = 0 || n
  | .exp2, v => decide (toF32 .rne (sfuNominal .exp2 w) = 0x7F800000#32) && isFin v
  | _, _ => false

def sfuCode : Sfu → Nat
  | .rcp => 0 | .rsqrt => 1 | .sqrt => 2 | .exp2 => 3 | .log2 => 4 | .sin => 5 | .cos => 6 | .tanh => 7 | .sigm => 8

/-- The error bound in units in the last place (R69). -/
def sfuUlps : Sfu → Int
  | .rcp | .rsqrt => 1
  | _ => 2

/-- Whether a candidate result meets R69's bound against the nominal value. -/
def sfuWithin (op : Sfu) (x nominal : FVal) (n c : W32) : Bool :=
  if isNan32 c then false
  else if (op = .sin ∨ op = .cos) ∧ cmpV (.fin false 256 0) (match x with | .fin _ m e => .fin false m e | v => v) = some (-1) then
    match addV (f32 c) (negV nominal) with
    | .fin _ m e => decide (cmpV (.fin false m e) (.fin false 1 (-20)) ≠ some 1)
    | _ => false
  else decide ((key32 c - key32 n).natAbs ≤ (sfuUlps op).natAbs)

/-- One SFU result: a special value or VSQRT exactly, else the unit's fixed table value where it keeps within the
bound, else the correctly rounded value (DESIGN CHOICE, log 5). -/
def sfu (op : Sfu) (w : W32) : W32 :=
  let v := sfuNominal op w
  let n := toF32 .rne v
  if sfuExact op w then n
  else
    let c := Config.sfuResult (sfuCode op) w
    if sfuWithin op (f32 w) v n c then c else n

end Sys2Proof.Machine
end

