-- ==== Sys2Proof/Machine/Lpw.lean ====
section
/-! DEFINITION. The Lysson packed weight stream: frame checks in the decoder's order and the rANS decode (R44–R48, R100). -/

namespace Sys2Proof.Machine

/-- The error kinds of R100, by bit number. -/
inductive FacetKind where
  | format | crc | lane | table
deriving DecidableEq, Repr

def facetBit : FacetKind → Nat
  | .format => 0 | .crc => 1 | .lane => 2 | .table => 3

/-- What the operand descriptor fixes about a frame (R45, R46): inner code, stream tag, frame number, raw length of
this frame, and the shared table set's size and content. -/
structure FrameWant where
  inner : Nat := 0
  streamTag : Nat := 0
  index : Nat := 0
  rawLen : Nat := 0
  nTables : Nat := 0

/-- The standard raw length of a frame (R44). -/
def stdRawLen (inner : Nat) : Nat :=
  if inner = 5 ∨ inner = 6 ∨ inner = 13 ∨ inner = 14 then 65520 else 65536

def u16s (bs : List Byte) (o n : Nat) : List Nat := (List.range n).map (fun i => fieldAt bs (o + 2 * i) 2)
def u32s (bs : List Byte) (o n : Nat) : List Nat := (List.range n).map (fun i => fieldAt bs (o + 4 * i) 4)

/-- The byte value whose cumulative range holds a slot, with its range start and frequency (R47). -/
def ransFind (slot : Nat) : List Nat → Nat → Nat → Nat × Nat × Nat
  | [], s, c => (s, c, 0)
  | f :: t, s, c => if slot < c + f then (s, c, f) else ransFind slot t (s + 1) (c + f)

/-- Refill a lane state below 2^16 from its stream, two bytes at a time (R47). -/
def ransRefill : Nat → Nat → List Byte → Nat × List Byte
  | 0, x, st => (x, st)
  | f + 1, x, st => if x < 0x10000 then ransRefill f (x * 65536 + fieldAt st 0 2) (st.drop 2) else (x, st)

/-- Decode the bytes of one lane, counting down; a refill past the stream's end leaves it invalid (R47). -/
def ransLane (freq : List Nat) : Nat → Nat → List Byte → Nat → List Nat × Nat × List Byte × Bool
  | 0, x, st, _ => ([], x, st, true)
  | n + 1, x, st, used =>
    let slot := x % 4096
    let (sym, cum, fr) := ransFind slot freq 0 0
    let x := fr * (x / 4096) + slot - cum
    let before := st.length
    let need := if x < 0x10000 then (if x = 0 then 2 else 1) else 0
    let (x', st') := ransRefill 2 x st
    let (rest, xe, se, ok) := ransLane freq n x' st' (used + need)
    (sym :: rest, xe, se, ok && decide (2 * need ≤ before))

/-- Raw byte i belongs to lane i mod 32 (R47). -/
def interleave (lanes : List (List Nat)) (n : Nat) : List Byte :=
  (List.range n).map (fun i => BitVec.ofNat 8 ((lanes.getD (i % 32) []).getD (i / 32) 0))

/-- Cut a list into consecutive pieces of the given lengths. -/
def cutBy : List Nat → List Byte → List (List Byte)
  | [], _ => []
  | n :: t, bs => bs.take n :: cutBy t (bs.drop n)

/-- Decode the coded part of a frame: the checks of R100 from the frequency sum to the CRC. -/
def decodeLanes (w : FrameWant) (freq : List Nat) (p : List Byte) (crc : Nat) : Except FacetKind (List Byte) :=
  let states := u32s p 0 32
  let lens := u16s p 128 32
  if freq.foldl (· + ·) 0 ≠ 4096 then .error .format
  else if states.any (fun x => x < 0x10000) then .error .format
  else
    let streams := cutBy lens (p.drop 192)
    let outs := (List.range 32).map (fun l =>
      ransLane freq ((w.rawLen + 31 - l) / 32) (states.getD l 0) (streams.getD l []) 0)
    if outs.any (fun o => o.2.1 ≠ 0x10000 || o.2.2.1 ≠ [] || !o.2.2.2) then .error .lane
    else
      let raw := interleave (outs.map (·.1)) w.rawLen
      if crc32c raw ≠ crc then .error .crc else .ok raw

/-- Check and decode one frame: header and payload, and for MODE 2 the shared table as read, none when the read fails
(R45–R48, R100). -/
def decodeFrame (w : FrameWant) (hdr payload : List Byte) (table : Option (List Byte)) : Except FacetKind (List Byte) :=
  let mode := fieldAt hdr 4 1
  let tableId := fieldAt hdr 5 1
  let coded := fieldAt hdr 12 4
  let crc := fieldAt hdr 16 4
  let lens := u16s payload ((if mode = 1 then 512 else 0) + 128) 32
  let parts := (if mode = 1 then 512 else 0) + 192 + lens.foldl (· + ·) 0
  if fieldAt hdr 0 2 ≠ 0x4C57 ∨ fieldAt hdr 2 1 ≠ 1 ∨ fieldAt hdr 3 1 ≠ w.inner ∨ mode > 2
      ∨ (mode ≠ 2 ∧ tableId ≠ 0) ∨ (mode = 2 ∧ tableId ≥ w.nTables) ∨ fieldAt hdr 6 2 ≠ 0
      ∨ fieldAt hdr 8 4 ≠ w.rawLen ∨ coded = 0 ∨ coded > 65536 ∨ fieldAt hdr 20 4 ≠ w.index
      ∨ fieldAt hdr 24 4 ≠ w.streamTag ∨ !allZero (sliceB hdr 28 36)
      ∨ (mode = 0 ∧ coded ≠ w.rawLen) ∨ (mode ≠ 0 ∧ (coded ≠ parts ∨ lens.any (fun n => n % 2 = 1))) then .error .format
  else if mode = 0 then (if crc32c (payload.take w.rawLen) ≠ crc then .error .crc else .ok (payload.take w.rawLen))
  else if mode = 1 then decodeLanes w (u16s payload 0 256) (payload.drop 512) crc
  else
    match table with
    | none => .error .table
    | some t => decodeLanes w (u16s t 0 256) payload crc

end Sys2Proof.Machine
end

