-- ==== Sys2Proof/Machine/Matmul.lean ====
section
/-! DEFINITION. Matrix tiles: operand layout, contributions, accumulation, epilogue and final conversion
(R39–R43, R49–R65, R567, R568). -/

namespace Sys2Proof.Machine

def fmtOf : Nat → Option Fmt
  | 0x01 => some .e4m3 | 0x02 => some .e5m2 | 0x03 => some .mxE4m3 | 0x04 => some .mxE5m2 | 0x05 => some .mxE2m3
  | 0x06 => some .mxE3m2 | 0x07 => some .mxE2m1 | 0x08 => some .bf16 | 0x09 => some .fp16 | 0x0A => some .fp32
  | 0x0B => some .int8 | 0x0C => some .int4 | 0x0D => some .vq2E4 | 0x0E => some .vq2E5 | 0x0F => some .vq3E4
  | 0x10 => some .vq3E5 | 0x11 => some .e8m0 | 0x12 => some .int32 | 0x13 => some .ex96
  | _ => none

/-- The byte length of a row of n elements (R567). -/
def rowLen (f n : Nat) : Nat :=
  if f = 0x08 ∨ f = 0x09 then 2 * n
  else if f = 0x0A ∨ f = 0x12 then 4 * n
  else if f = 0x0C then (n + 1) / 2
  else if f = 0x13 then 12 * n
  else if f = 0x03 ∨ f = 0x04 then ceilDiv n 32 * 32
  else if f = 0x05 ∨ f = 0x06 then ceilDiv n 32 * 24
  else if f = 0x07 then ceilDiv n 32 * 16
  else if f = 0x0D ∨ f = 0x0E then ceilDiv n 256 * 40
  else if f = 0x0F ∨ f = 0x10 then ceilDiv n 256 * 64
  else n

/-- The code of element k of a row (R39, R41–R43). -/
def elemCode (f : Nat) (row : List Byte) (k : Nat) : Nat :=
  let by_ (i : Nat) : Nat := ((row[i]?).getD 0).toNat
  if f = 0x08 ∨ f = 0x09 then fieldAt row (2 * k) 2
  else if f = 0x0A ∨ f = 0x12 then fieldAt row (4 * k) 4
  else if f = 0x0C ∨ f = 0x07 then fld (by_ (k / 2)) (4 * (k % 2)) 4
  else if f = 0x05 ∨ f = 0x06 then fld (fieldAt row (k / 4 * 3) 3) (6 * (k % 4)) 6
  else if f = 0x0D ∨ f = 0x0E then
    let b := k / 256 * 40
    let j := k % 256 / 2
    let c := fld (by_ (b + 8 + j / 4)) (2 * (j % 4)) 2
    by_ (b + 2 * c + k % 2)
  else if f = 0x0F ∨ f = 0x10 then
    let b := k / 256 * 64
    let j := k % 256 / 2
    let c := fld (fieldAt row (b + 16 + 3 * j / 8) 2) (3 * j % 8) 3
    by_ (b + 2 * c + k % 2)
  else by_ k

/-- The format a decoded element has: VQ codebooks hold FP8 values (R42). -/
def elemFmt : Fmt → Fmt
  | .vq2E4 | .vq3E4 => .e4m3
  | .vq2E5 | .vq3E5 => .e5m2
  | f => f

/-- The value of element k of a row, without block scale. -/
def rowVal (f : Nat) (row : List Byte) (k : Nat) : FVal :=
  match fmtOf f with
  | some x => elemVal (elemFmt x) (elemCode f row k)
  | none => .fin false 0 0

/- Accumulators (R59–R62). -/

def accZero : Acc := .exact 0 false false false

/-- Add a special contribution of a value to an accumulator's flags (R60). -/
def accSpecial (a : Acc) (v : FVal) : Acc :=
  match a, v with
  | .exact n na p m, .nan => .exact n (na || true) p m
  | .exact n na p m, .inf neg => .exact n na (p || !neg) (m || neg)
  | a, _ => a

/-- Add one finite or special contribution (R60): `round` allows the MX rounding at 2^-32. -/
def accAdd (a : Acc) (c : FVal) : Acc × W16 :=
  match a, c with
  | .exact n na p m, .fin neg k e =>
    let sh := e + 32
    let mag : Nat := if sh ≥ 0 then k <<< sh.toNat else roundShift .rne 0 k (-sh).toNat
    let lost := decide (sh < 0) && decide (k % 2 ^ (-sh).toNat ≠ 0)
    let big := if e ≥ 38 then decide (k ≠ 0) else decide (k ≥ 2 ^ (38 - e).toNat)
    if big then (.exact n na (p || !neg) (m || neg), nswRange)
    else (.exact (if neg then n - mag else n + mag) na p m, if lost then nswUnderflowLoss else 0)
  | a, c => (accSpecial a c, 0)

/-- The addition of two exact partials (R62). -/
def accJoin : Acc → Acc → Acc
  | .exact n a b c, .exact n' a' b' c' => .exact (n + n') (a || a') (b || b') (c || c')
  | .fp none, y => y
  | x, .fp none => x
  | .fp (some x), .fp (some y) => .fp (some (fadd .rne x y))
  | x, _ => x

/-- The 96-bit word of an exact partial (R62). -/
def ex96Of : Acc → Nat
  | .exact n na p m =>
    if na || p || m then 2 ^ 95 + 4 * b2n na + 2 * b2n m + b2n p else unsgn n 96
  | .fp _ => 0

/-- The accumulator an EX96 word stands for; words the device never produces count as NaN (R62). -/
def ex96Acc (w : Nat) : Acc :=
  let top := fld w 94 2
  if top = 0 ∨ top = 3 then .exact (sgn w 96) false false false
  else if top = 1 ∨ fld w 0 3 = 0 then .exact 0 true false false
  else .exact 0 (w.testBit 2) (w.testBit 0) (w.testBit 1)

/-- The final value of an accumulator (R63). -/
def accVal : Acc → FVal
  | .exact n na p m =>
    if na || (p && m) then .nan else if p then .inf false else if m then .inf true
    else .fin (decide (n < 0)) n.natAbs (-32)
  | .fp none => .fin false 0 0
  | .fp (some w) => f32 w

/-- How a node accumulates (R58, R59, R64). -/
inductive AccMode where
  | exact | free | canon
deriving DecidableEq, Repr

def isFloat16plus (f : Nat) : Bool := f = 0x08 || f = 0x09 || f = 0x0A
def isIntFmt (f : Nat) : Bool := f = 0x0B || f = 0x0C || f = 0x12
def isMxFmt (f : Nat) : Bool := decide (3 ≤ f ∧ f ≤ 7)
def isVqFmt (f : Nat) : Bool := decide (0x0D ≤ f ∧ f ≤ 0x10)

def accModeOf (n : Node) (figures : Bool) : AccMode :=
  if isIntFmt n.fmtA then .exact
  else if figures then (if isFloat16plus n.fmtA then .canon else .exact)
  else .free

/-- Whether a node's operands contribute in blocks of 32 (R58, R60): MX, or VQ with a block scale. -/
def blocked (n : Node) : Bool := isMxFmt n.fmtA || isMxFmt n.fmtB || (isVqFmt n.fmtB && n.sbP ≠ 0xFFFF)

/-- A plain product rounded to FP32 by RNE (R58). -/
def prod32 (a b : FVal) : W32 := toF32 .rne (mulV a b)

/-- Exact sum of values; the first is the starting value, so that a sum of −0 terms is −0. -/
def sumV : List FVal → FVal
  | [] => .fin false 0 0
  | v :: t => t.foldl addV v

/-- The rows a reduction reads: A row, B row and their scale rows. -/
structure RowPair where
  a : List Byte := []
  b : List Byte := []
  sa : List Byte := []
  sb : List Byte := []

/-- Products of elements [lo, hi). -/
def rowProducts (n : Node) (r : RowPair) (lo hi : Nat) : List FVal :=
  (List.range (hi - lo)).map (fun i => mulV (rowVal n.fmtA r.a (lo + i)) (rowVal n.fmtB r.b (lo + i)))

/-- The scale exponent e of a block, or none for a NaN scale (R58, R60). -/
def blockExp (n : Node) (r : RowPair) (blk : Nat) : Option Int :=
  let xa := if isMxFmt n.fmtA then ((r.sa[blk]?).getD 0).toNat else 127
  let xb := if isMxFmt n.fmtB || (isVqFmt n.fmtB && n.sbP ≠ 0xFFFF) then ((r.sb[blk]?).getD 0).toNat else 127
  if xa = 0xFF ∨ xb = 0xFF then none else some ((xa : Int) - 127 + ((xb : Int) - 127))

/-- One block's exact contribution (R60). -/
def blockExact (n : Node) (r : RowPair) (a : Acc) (lo hi : Nat) : Acc × W16 :=
  let ps := rowProducts n r lo hi
  match blockExp n r (lo / 32) with
  | none => (accSpecial a .nan, 0)
  | some e =>
    if ps.any (fun v => !isFin v) then (ps.foldl accSpecial a, 0)
    else accAdd a (scaleV (sumV ps) e)

/-- One block's FP32 contribution in Free mode (R58). -/
def blockFree (n : Node) (r : RowPair) (lo hi : Nat) : W32 :=
  match blockExp n r (lo / 32) with
  | none => nan32
  | some e => toF32 .rne (scaleV (f32 (toF32 .rne (sumV (rowProducts n r lo hi)))) e)

def freeAdd (a : Acc) (p : W32) : Acc :=
  match a with
  | .fp (some x) => .fp (some (fadd .rne x p))
  | _ => .fp (some p)

/-- Blocks of 32 within [lo, hi), by fuel. -/
def blockRanges : Nat → Nat → Nat → List (Nat × Nat)
  | 0, _, _ => []
  | f + 1, lo, hi => if lo ≥ hi then [] else
      let e := min hi ((lo / 32 + 1) * 32)
      (lo, e) :: blockRanges f e hi

/-- Accumulate elements [lo, hi) of one output element (R58–R60). -/
def accumulate (n : Node) (m : AccMode) (r : RowPair) (a : Acc) (lo hi : Nat) : Acc × W16 :=
  match m with
  | .exact =>
    if blocked n then
      (blockRanges ((hi - lo) / 32 + 2) lo hi).foldl (fun (x : Acc × W16) b =>
        let (a', f) := blockExact n r x.1 b.1 b.2
        (a', x.2 ||| f)) (a, 0)
    else
      (rowProducts n r lo hi).foldl (fun (x : Acc × W16) v =>
        let (a', f) := accAdd x.1 v
        (a', x.2 ||| f)) (a, 0)
  | .free =>
    if blocked n then
      ((blockRanges ((hi - lo) / 32 + 2) lo hi).foldl (fun x b => freeAdd x (blockFree n r b.1 b.2)) a, 0)
    else ((rowProducts n r lo hi).foldl (fun x v => freeAdd x (toF32 .rne v)) a, 0)
  | .canon => (.fp (some (canonSum ((rowProducts n r lo hi).map (toF32 .rne)))), 0)

/- The epilogue (R568). -/

def half32 : W32 := 0x3F000000#32
def one32 : W32 := 0x3F800000#32

def activate (code : Nat) (y : W32) : W32 :=
  if code = 1 then
    (if isNan32 y then nan32 else if fcmp .gt y 0 then y else 0)
  else if code = 2 then
    let t1 := fmul .rne y y
    let t2 := fmul .rne t1 y
    let t3 := fmul .rne 0x3D372713#32 t2
    let t4 := fadd .rne y t3
    let t5 := fmul .rne 0x3F4C422A#32 t4
    let t6 := sfu .tanh t5
    let t7 := fadd .rne one32 t6
    let t8 := fmul .rne half32 y
    fmul .rne t8 t7
  else if code = 3 then fmul .rne y (sfu .sigm y)
  else if code = 4 then sfu .tanh y
  else y

def rmodeOf : Nat → RMode
  | 1 => .rtz
  | 2 => .sr
  | _ => .rne

def ovfOf : Nat → Ovf
  | 1 => .sat
  | 2 => .ieee
  | _ => .default

/-- Pack element codes of a format into bytes, in order (R39, R41, R567). -/
def packCodes (f : Nat) (cs : List Nat) : List Byte :=
  if f = 0x08 ∨ f = 0x09 then cs.flatMap (natLe 2)
  else if f = 0x0A ∨ f = 0x12 then cs.flatMap (natLe 4)
  else if f = 0x13 then cs.flatMap (natLe 12)
  else if f = 0x0C ∨ f = 0x07 then
    (List.range ((cs.length + 1) / 2)).map (fun i => BitVec.ofNat 8 (cs.getD (2 * i) 0 + 16 * cs.getD (2 * i + 1) 0))
  else if f = 0x05 ∨ f = 0x06 then
    (List.range ((cs.length + 3) / 4)).flatMap (fun i =>
      natLe 3 (cs.getD (4 * i) 0 + 2 ^ 6 * cs.getD (4 * i + 1) 0 + 2 ^ 12 * cs.getD (4 * i + 2) 0 + 2 ^ 18 * cs.getD (4 * i + 3) 0))
  else cs.flatMap (natLe 1)

/-- The output codes and scales of one row's columns from c0, and the status bits (R57, R63). -/
def convertRow (n : Node) (seed i c0 : Nat) (vs : List FVal) : List Nat × List Nat × W16 :=
  let rm := rmodeOf n.round
  let rnd (j : Nat) : Nat := if rm = .sr then srRandom seed (i * n.n + c0 + j) n.tensor else 0
  let sf := if rm = .sr ∧ vs ≠ [] then nswSrUsed else 0
  match fmtOf n.fmtOut with
  | none => ([], [], 0)
  | some f =>
    if isMx f then
      let blks := (List.range (ceilDiv vs.length 32)).map (fun b =>
        convertMx f rm ((List.range 32).map (fun j => rnd (32 * b + j)))
          (((vs.drop (32 * b)).take 32) ++ List.replicate (32 - ((vs.drop (32 * b)).take 32).length) (.fin false 0 0)))
      ((blks.flatMap (fun b => b.2.1)).take vs.length, blks.map (·.1), blks.foldl (fun a b => a ||| b.2.2) sf)
    else
      let rs := vs.mapIdx (fun j v => convertTo f rm (ovfOf n.ovf) (rnd j) v)
      (rs.map (·.1), [], rs.foldl (fun a r => a ||| r.2) sf)

end Sys2Proof.Machine
end

