-- ==== Sys2Proof/Machine/Route.lean ====
section
/-! DEFINITION. Dimension-ordered routes of the mesh and the Relay groups set up along them (R214, R231, R239). -/

namespace Sys2Proof.Machine

/-- The column of a core's tile counted over both dies, D0 first. -/
def gcol (c : Nat) : Nat := coreDie c * 12 + coreCol c

/-- The core at a row and a column over both dies. -/
def coreAt (row g : Nat) : Nat := g / 12 * 96 + row * 12 + g % 12

/-- The next router on the default route: along the source row to the destination's column, then along the column (R214). -/
def nextHop (c d : Nat) : Nat :=
  if gcol c < gcol d then coreAt (coreRow c) (gcol c + 1)
  else if gcol d < gcol c then coreAt (coreRow c) (gcol c - 1)
  else if coreRow c < coreRow d then coreAt (coreRow c + 1) (gcol c)
  else if coreRow d < coreRow c then coreAt (coreRow c - 1) (gcol c)
  else d

/-- The routers of a route, both ends included, by fuel of one hop each. -/
def pathFrom : Nat → Nat → Nat → List Nat
  | 0, c, _ => [c]
  | f + 1, c, d => if c = d then [c] else c :: pathFrom f (nextHop c d) d

def path (c d : Nat) : List Nat := pathFrom 32 c d

/-- Mesh neighbours of a core to the east, south, west and north, across the bridge where it joins the rows (R95). -/
def neighbour (c dir : Nat) : Option Nat :=
  if dir = 0 then (if gcol c < 23 then some (coreAt (coreRow c) (gcol c + 1)) else none)
  else if dir = 1 then (if coreRow c < 7 then some (coreAt (coreRow c + 1) (gcol c)) else none)
  else if dir = 2 then (if gcol c > 0 then some (coreAt (coreRow c) (gcol c - 1)) else none)
  else (if coreRow c > 0 then some (coreAt (coreRow c - 1) (gcol c)) else none)

/-- The destination of a group: contributor 0's core (R307). -/
def groupDest (g : RelayGroup) : Nat := g.cores.headD 0

/-- Contributions of a group that pass through a router (R231). -/
def expectedAt (g : RelayGroup) (r : Nat) : Nat := (g.cores.filter (fun c => (path c (groupDest g)).contains r)).length

/-- Relay entries a router's table holds (R231). -/
def entriesAt (s : State) (r : Nat) : Nat := (s.net.groups.filter (fun p => p.2.entries.contains r)).length

/-- Set up a group: the lowest free number, and an entry in each router of the paths whose table of 64 has room (R231). -/
def openGroup (s : State) (g : RelayGroup) : State × Nat :=
  let rs := (g.cores.flatMap (fun c => path c (groupDest g))).eraseDups
  let g := { g with entries := rs.filter (fun r => entriesAt s r < 64) }
  let k := (lowestFree s.net.groups 0 4096).getD 4095
  ({ s with net := { s.net with groups := put s.net.groups k g } }, k)

/-- Free a launch's groups; packets in flight then pass through uncombined and are discarded at the end (R231, R242). -/
def closeGroups (s : State) (lid : Nat) : State :=
  { s with net := { s.net with
    groups := s.net.groups.filter (fun p => p.2.launch ≠ lid)
    holds := s.net.holds.filter (fun h => h.pkts.all (fun q => match look s.net.groups q.group with
      | some g => g.launch ≠ lid
      | none => true)) } }

end Sys2Proof.Machine
end

