-- ==== Sys2Proof/Machine/Launch.lean ====
section
/-! DEFINITION. Launches: core sets, constant buffers, nodes, tiles, failure and completion; descriptors and resident
tasks that end with an error (R89, R300–R307, R315, R319, R320, R350). -/

namespace Sys2Proof.Machine

def State.launch? (s : State) (l : Nat) : Option Launch := look s.gfe.launches l
def State.setLaunch (s : State) (l : Nat) (x : Launch) : State :=
  { s with gfe := { s.gfe with launches := put s.gfe.launches l x } }
def State.modLaunch (s : State) (l : Nat) (f : Launch → Launch) : State :=
  { s with gfe := { s.gfe with launches := adjust s.gfe.launches l f } }

/-- The cores of a list of core groups, ascending. -/
def coresOf (gs : List Nat) : List Nat := (List.range 192).filter (fun c => gs.contains (coreCg c))

/-- The core set of a ring launch (R301). -/
def launchCores (s : State) (v : Nat) : List Nat := coresOf (s.vdBulk v)

/-- The scratchpad offset of a constant-buffer slot (R302). -/
def cbAddr (k : Nat) : Nat := 2621440 + 4096 * k

/-- The lowest free constant-buffer slot of a core. -/
def freeSlot (s : State) (c : Nat) : Option Nat := (List.range 32).find? (fun k => !(s.core c).cbUsed.toNat.testBit k)

/-- A free slot on every core of a set, or none where some core has none (R292). -/
def freeSlots (s : State) (cs : List Nat) : Option (List Nat) := cs.mapM (freeSlot s)

def useSlot (s : State) (c k : Nat) : State :=
  s.modCore c (fun x => { x with cbUsed := x.cbUsed ||| BitVec.ofNat 32 (1 <<< k) })
def dropSlot (s : State) (c k : Nat) : State :=
  s.modCore c (fun x => { x with cbUsed := x.cbUsed &&& ~~~ (BitVec.ofNat 32 (1 <<< k)) })

/-- Deliver a constant buffer to a core's slot, under the tag of the launch's VD (R302, R303). -/
def deliverCb (s : State) (v c k : Nat) (cb : List Byte) : State :=
  s.modCore c (fun x => spWriteN x (s.vdTag v) (cbAddr k) (sliceB cb 0 4096))

/-- Move waiting tiles into the tile queue while it has room; the CSQ stalls while it is full (R87). -/
def feedCore (k : Core) : Core :=
  let n := 256 - k.tq.length
  let q := k.tq ++ k.backlog.take n
  { k with tq := q, backlog := k.backlog.drop n, tqHigh := max k.tqHigh q.length }

/-- Tiles enter a core's queue; work that arrives ends its wait before the next cross-core request (R87, R96). -/
def pushTiles (s : State) (c : Nat) (ts : List Tile) : State :=
  s.modCore c (fun k =>
    let k := if k.xreq = .backoff ∧ ts ≠ [] then { k with xreq := .none, xdenied := [] } else k
    feedCore { k with backlog := k.backlog ++ ts })

/-- The U64 at a constant-buffer offset; an absent field is 0. -/
def cbField (cb : List Byte) (off : Nat) : Nat := if off = 0xFFFF then 0 else fieldAt cb off 8

/-- The Relay group of a node. -/
def nodeRelay (l : Launch) (n : Node) : Option RelayGrp := if n.relay = 0xFFFF then none else l.relays[n.relay]?

/-- The numbers below `total` that fall to position `c` of `C`. -/
def stride (total c C : Nat) : List Nat :=
  if C = 0 then [] else (List.range (ceilDiv (total - c) C)).map (fun i => c + i * C)

def nodeBlocks (n : Node) : Nat := ceilDiv n.m 64 * ceilDiv n.n 64

/-- The tiles of a node that fall to position `c` of the core set (R86, R306, R307). -/
def nodeTiles (s : State) (lid : Nat) (l : Launch) (i c : Nat) : List Tile :=
  let n := l.nodes.getD i {}
  let C := l.cores.length
  let base : Tile := {
    launch := lid, node := i, pinned := n.flags.testBit 0, noKsplit := n.flags.testBit 1, figures := l.figures,
    canon := l.figures && isFloat16plus n.fmtA && decide (n.kind = 1), integer := isIntFmt n.fmtA && decide (n.kind = 1),
    matrix := decide (n.kind = 1), origin := l.cores.getD c 0, tag := s.vdTag l.vd, cbOff := cbAddr (l.slots.getD c 0) }
  let nb := ceilDiv n.n 64
  if n.kind = 1 then
    match nodeRelay l n with
    | none => (stride (nodeBlocks n) c C).map (fun b => { base with mBlock := b / nb, nBlock := b % nb, kEnd := n.k })
    | some g => (List.range (nodeBlocks n)).flatMap (fun b => (stride g.n c C).map (fun j =>
        { base with relay := true, mBlock := b / nb, nBlock := b % nb, kBegin := j * g.ks, kEnd := min ((j + 1) * g.ks) n.k }))
  else if n.kind = 2 ∨ n.kind = 4 then
    (stride (ceilDiv n.elems n.tileElems) c C).map (fun j =>
      { base with kBegin := j * n.tileElems, kEnd := min ((j + 1) * n.tileElems) n.elems })
  else []

/- Error records of launches and transfers. -/

def srcOf (l : Launch) : Nat := if l.service.isSome then 2 else 1

/-- Write a split report of a ring, where it has a report area; answers the report's SEQ (R320). -/
def writeReport (s : State) (r : RingRef) (kind lid tag total done_ : Nat) (recs : List (List Byte)) (more : Bool) : State × Nat :=
  match s.ring? r with
  | none => (s, 0)
  | some x =>
    if x.report = 0 then (s, 0)
    else
      let seq := x.reportSeq + 1
      let recs := recs.take 14
      let body := natLe 4 seq ++ natLe 2 (ringNum r) ++ natLe 1 kind ++ natLe 1 (b2n more) ++ natLe 4 lid ++ natLe 4 tag
        ++ natLe 4 total ++ natLe 4 done_ ++ natLe 1 recs.length ++ List.replicate 7 0 ++ recs.flatten
      let s := s.setRing r { x with reportSeq := seq }
      match writeVa s x.fn x.ctx (x.report + seq % 256 * 256) (sliceB body 0 256) with
      | .ok s => (s, seq)
      | .error _ => (s, seq)

def withReport (e : ErrRec) (seq lid : Nat) : ErrRec :=
  if seq = 0 then { e with ref := lid } else { e with report := true, ref := seq }

/-- The counter set of a context. -/
def modSet (s : State) (fn ctx : Nat) (f : CounterSet → CounterSet) : State :=
  match (s.ctx? fn ctx).bind (·.counterSet) with
  | some k => { s with obj := { s.obj with sets := adjust s.obj.sets k f } }
  | none => s

/-- Write a core's dirty host lines back (R168). -/
def flushHostLines (s : State) (c : Nat) : State :=
  let k := s.core c
  match s.coreVd c with
  | none => s
  | some v =>
    let s := k.hostLines.foldl (fun s p => if p.2.st = .m then writeHost s v (128 * p.1) (lineBytes p.2.data) else s) s
    s.modCore c (fun k => { k with hostLines := mapVals k.hostLines (fun _ l => if l.st = .m then { l with st := .s } else l) })

/-- Invalidate a core's clean host lines at a launch's acceptance (R168). -/
def dropCleanHost (s : State) (c : Nat) : State :=
  s.modCore c (fun k => { k with hostLines := k.hostLines.filter (fun p => p.2.st = .m) })

/-- Free generations that are no longer current once their last launch has ended (R312). -/
def settleRoutine (s : State) (r : Nat) : State :=
  let used (g : Nat) : Bool := s.gfe.launches.any (fun p => p.2.routine = r && p.2.gen = g)
  match look s.gfe.routines r with
  | none => s
  | some x =>
    let old := x.old.filter (fun g => used g.gen)
    let cur := x.cur.filter (fun g => !g.retired || used g.gen)
    if old.isNone ∧ cur.isNone then { s with gfe := { s.gfe with routines := del s.gfe.routines r } }
    else { s with gfe := { s.gfe with routines := put s.gfe.routines r { x with old := old, cur := cur } } }

/-- End a launch: host lines, slots, counts, its packet's completion or its service's outcome (R89, R302, R303). -/
def completeLaunch (s : State) (lid : Nat) : State :=
  match s.launch? lid with
  | none => s
  | some l =>
    let s := l.cores.foldl flushHostLines s
    let s := (l.cores.zip l.slots).foldl (fun s p => dropSlot s p.1 p.2) s
    let s := { s with cores := mapVals s.cores (fun _ k => { k with slots := k.slots.filter (fun q => q.2.launch ≠ lid) }) }
    let s := modSet s l.fn l.ctx (fun c => { c with launches := (c.launches + 1) % 2 ^ 64 })
    let s := closeGroups { s with gfe := { s.gfe with launches := del s.gfe.launches lid } } lid
    let s := settleRoutine s l.routine
    match l.owner, l.service with
    | some p, _ =>
      match l.failed with
      | none => finishPkt s p l.fn stOk lid 0 l.nsw.toNat none
      | some e =>
        let nodes := l.doneNodes.map (fun i => natLe 2 i ++ List.replicate 14 0)
        let (s, seq) := writeReport s p.ring 2 lid p.tag l.nodes.length l.doneNodes.length nodes (decide (nodes.length > 14))
        finishPkt s p l.fn stFailed lid 0 l.nsw.toNat (some (withReport e seq lid))
    | none, some v =>
      { s with gfe := { s.gfe with services := adjust s.gfe.services v (fun x => { x with outcome := some l.failed }) } }
    | none, none => s

/-- Whether a part of a launch still runs: a tile on an engine or a transfer of one of its nodes. -/
def launchBusy (s : State) (lid : Nat) : Bool :=
  s.engs.any (fun p => match p.2.run with | some r => r.tile.launch = lid | none => false)
    || s.xlt.descs.any (fun p => match p.2.owner with | .node l _ => l = lid | .packet _ => false)

/-- A failed launch ends once its running parts have finished (R319). -/
def settleLaunch (s : State) (lid : Nat) : State :=
  match s.launch? lid with
  | some l => if l.failed.isSome ∧ !launchBusy s lid then completeLaunch s lid else s
  | none => s

/-- Drop the tiles of a launch that have not started, wherever they wait (R89). -/
def dropTiles (s : State) (lid : Nat) : State :=
  let keep (t : Tile) : Bool := t.launch ≠ lid
  { s with
    cores := mapVals s.cores (fun _ k => feedCore { k with
      tq := k.tq.filter keep, backlog := k.backlog.filter keep, granted := k.granted.filter (fun p => keep p.2) })
    engs := mapVals s.engs (fun _ e => { e with queue := e.queue.filter keep })
    xmsgs := s.xmsgs.map (fun m => match m with
      | .grant t v ts => .grant t v (ts.filter keep)
      | m => m) }

/-- Fail a launch: the first error stands, unstarted parts are dropped, running parts finish (R89, R319). -/
def failLaunch (s : State) (lid : Nat) (e : ErrRec) : State :=
  match s.launch? lid with
  | none => s
  | some l =>
    if l.failed.isSome then settleLaunch s lid
    else settleLaunch (dropTiles (s.setLaunch lid { l with failed := some { e with source := srcOf l } }) lid) lid

/- Descriptors. -/

/-- Byte ranges of a transfer count as report records (R320). -/
def rangeRec (off len : Nat) : List Byte := natLe 8 off ++ natLe 8 len

/-- Fail a descriptor's request (R319). -/
def failDesc (s : State) (id : Nat) (e : ErrRec) : State :=
  match s.desc? id with
  | none => s
  | some d =>
    let s := dropDesc s id
    match d.owner with
    | .packet p =>
      let total := ceilDiv (descTotal d) (2 * 1024 * 1024)
      let recs := if d.pos = 0 then [] else [rangeRec 0 d.pos]
      let (s, seq) := writeReport s p.ring 1 0 p.tag total d.chunks recs false
      finishPkt s p d.fn stFailed 0 0 0 (some (withReport { e with source := 1 } seq 0))
    | .node l _ => failLaunch s l e

/-- Accept a descriptor: translate its first chunk and, where it can, take its extent-list slot (R186). -/
def newDesc (s : State) (d : Desc) : State × Nat :=
  let id := s.xlt.nextDesc
  let s := { s with xlt := { s.xlt with descs := put s.xlt.descs id d, nextDesc := id + 1 } }
  let s := translateChunk s id
  let s := (takeExtSlot s id).getD s
  (writeBlock s id, id)

/-- Read a descriptor for a packet or node (R299, R569): the bytes, or what fails. -/
inductive DescRead where
  | ok (bytes : List Byte)
  | misplaced
  | walk (r : WalkRes)
  | poison (dpa : Nat)

def readDesc (s : State) (fn ctx va : Nat) : DescRead :=
  match rangeOf s fn ctx false va 128 with
  | .error r => .walk r
  | .ok ps =>
    if !allDev ps then .misplaced
    else
      match readPieces s fn ps with
      | (bs, none) => .ok bs
      | (_, some a) => .poison a

/-- The error record of a failed walk with no open fault (R338, R569). -/
def walkErr (va ctx id : Nat) (r : WalkRes) : ErrRec :=
  { cause := 0x0008, source := 1, detail := natLe 8 va ++ natLe 4 id ++ natLe 1 (faultKind r) ++ [0] ++ natLe 2 ctx }

/-- The cause of a poisoned read: integrity where the MAC failed, else uncorrectable (R156). -/
def memErr (s : State) (dpa : Nat) : ErrRec :=
  { cause := if s.mem.macFails.contains (dpa / 128) then 0x0007 else 0x0006, source := 1, detail := natLe 8 dpa }

/- Starting nodes. -/

def nodeDone (l : Launch) (i : Nat) : Launch := { l with doneNodes := l.doneNodes ++ [i] }

/-- Start one node (R306). -/
def startNode (s : State) (lid i : Nat) : State :=
  match s.launch? lid with
  | none => s
  | some l =>
    let n := l.nodes.getD i {}
    let s := s.setLaunch lid { l with started := l.started ++ [i] }
    if n.kind = 5 then s.modLaunch lid (fun l => nodeDone l i)
    else if n.kind = 3 then
      let va := cbField l.cb n.xferP
      match readDesc s l.fn l.ctx va with
      | .walk r => failLaunch s lid (walkErr va l.ctx 0 r)
      | .poison a => failLaunch s lid (memErr s a)
      | .misplaced => failLaunch s lid { cause := 0x0001, detail := natLe 2 0xFFFF ++ natLe 2 0 }
      | .ok bs =>
        if va % 128 ≠ 0 then failLaunch s lid { cause := 0x0001, detail := natLe 2 0xFFFF ++ natLe 2 0 }
        else
          match descBad bs with
          | some o => failLaunch s lid { cause := 0x0001, detail := natLe 2 0xFFFF ++ natLe 2 o }
          | none => (newDesc s { descOf bs l.fn l.ctx va (.node lid i) with uncached := n.flags.testBit 4 }).1
    else
      let per := (List.range l.cores.length).map (fun c => (l.cores.getD c 0, nodeTiles s lid l i c))
      -- a Relay node also waits for its blocks to be written at the destination (R232)
      let total := per.foldl (fun a p => a + p.2.length) (if n.kind = 1 ∧ (nodeRelay l n).isSome then nodeBlocks n else 0)
      if total = 0 then s.modLaunch lid (fun l => nodeDone l i)
      else
        let s := s.modLaunch lid (fun l => { l with left := put l.left i total })
        per.foldl (fun s p => pushTiles s p.1 p.2) s

/-- Nodes ready to start: not started, every dependency complete. -/
def readyNodes (l : Launch) : List Nat :=
  (List.range l.nodes.length).filter (fun i =>
    !l.started.contains i && (l.nodes.getD i {}).deps.all l.doneNodes.contains)

/-- Start every node that is ready, and complete the launch after its last node; one round of fuel per node. -/
def advanceLaunch : Nat → State → Nat → State
  | 0, s, _ => s
  | f + 1, s, lid =>
    match s.launch? lid with
    | none => s
    | some l =>
      if l.failed.isSome then settleLaunch s lid
      else if l.doneNodes.length = l.nodes.length then completeLaunch s lid
      else
        match readyNodes l with
        | [] => s
        | i :: _ => advanceLaunch f (startNode s lid i) lid

def runLaunch (s : State) (lid : Nat) : State :=
  match s.launch? lid with
  | some l => advanceLaunch (2 * l.nodes.length + 2) s lid
  | none => s

/-- One part of a node has completed (R89). -/
def partDone (s : State) (lid i : Nat) : State :=
  match s.launch? lid with
  | none => s
  | some l =>
    let left := lookD l.left i 1 - 1
    let l := { l with left := if left = 0 then del l.left i else put l.left i left }
    if left = 0 then runLaunch (s.setLaunch lid (nodeDone l i)) lid
    else settleLaunch (s.setLaunch lid l) lid

/-- The peer group of a VD with a number (R388). -/
def peerOf (s : State) (vd g : Nat) : Option (Nat × PeerGroup) := s.talko.peers.find? (fun p => p.2.group = g ∧ p.2.vd = vd)

/-- The group that one Relay entry sets up; a peer entry counts the contributors of every member (R307, R389). -/
def groupOf (s : State) (lid : Nat) (l : Launch) (g : RelayGrp) : RelayGroup :=
  let n := l.nodes.getD g.node {}
  let r : RelayGroup := {
    launch := lid, node := g.node, type := g.type, n := g.n, loc := g.n, peer := g.peer,
    tree := decide (g.type = 1) && l.figures && isFloat16plus n.fmtA,
    cores := (List.range g.n).map (fun j => l.cores.getD (j % l.cores.length) 0) }
  match (if g.peer = 0 then none else peerOf s l.vd g.peer) with
  | none => r
  | some (_, p) => { r with
      n := p.nDev * g.n, base := p.rank * g.n, root := decide (p.rank = p.root), inst := p.instance_, egress := p.egress }

/-- Count the launch as an instance of each peer group it names (R388). -/
def countInstances (s : State) (l : Launch) : State :=
  { s with talko := { s.talko with peers := mapVals s.talko.peers (fun _ p =>
      if p.vd = l.vd ∧ l.relays.any (fun g => g.peer ≠ 0 ∧ g.peer = p.group) then
        { p with instance_ := (p.instance_ + 1) % 2 ^ 32 } else p) } }

/-- Set up a launch's Relay groups, in the order of its entries (R231). -/
def openGroups (s : State) (lid : Nat) (l : Launch) : State × List Nat :=
  let (s, gs) := l.relays.foldl (fun acc g =>
    let (s, k) := openGroup acc.1 (groupOf acc.1 lid l g)
    (s, acc.2 ++ [k])) (s, [])
  (countInstances s l, gs)

/-- Accept a launch whose slots are free (R292, R303). -/
def acceptLaunch (s : State) (l : Launch) (slots : List Nat) : State × Nat :=
  let lid := s.gfe.nextLaunch
  let s := { s with gfe := { s.gfe with
    launches := put s.gfe.launches lid { l with slots := slots }
    nextLaunch := if lid + 1 = 2 ^ 32 then 1 else lid + 1 } }
  let s := (l.cores.zip slots).foldl (fun s p => deliverCb (useSlot (dropCleanHost s p.1) p.1 p.2) l.vd p.1 p.2 l.cb) s
  let s := l.cores.foldl (fun s c => traceEv s c 0xFF 11 lid 0 0) s
  let (s, gs) := openGroups s lid l
  (runLaunch (s.modLaunch lid (fun l => { l with relayed := gs })) lid, lid)

/- Resident tasks. -/

/-- The task that holds an engine (R315). -/
def engTask (s : State) (e : Nat) : Option Nat := (s.gfe.tasks.find? (fun p => p.2.engine = e)).map (·.1)

/-- End a task: its engine and slot are free, its fence is signalled, and the stops that wait for it complete (R315). -/
def endTask (s : State) (t : Nat) (err : Option ErrRec) : State :=
  match look s.gfe.tasks t with
  | none => s
  | some x =>
    let s := dropSlot s (engCore x.engine) x.cbSlot
    let s := { s with gfe := { s.gfe with
      tasks := del s.gfe.tasks t, wqs := mapVals s.gfe.wqs (fun _ w => if w.task = some t then { w with task := none } else w) } }
    let s := match x.signal with
      | some (i, v) => match err with
        | some e => failFence s x.fn i { e with source := 5 }
        | none => signalFence s x.fn i v none
      | none => s
    x.stopPkts.foldl (fun s p => finishPkt s p x.fn stOk 0 0 0 none) s

/-- Work on an engine fails: its tile fails its launch, or its resident task ends (R89, R156, R315). -/
def engineError (s : State) (e : Nat) (err : ErrRec) : State :=
  match (s.eng e).run with
  | some r =>
    let s := s.modEng e (fun x => { x with run := none })
    failLaunch (settleLaunch s r.tile.launch) r.tile.launch err
  | none =>
    match engTask s e with
    | some t => endTask s t (some err)
    | none => s

end Sys2Proof.Machine
end

