-- ==== Sys2Proof/Machine/Faults.lean ====
section
/-! DEFINITION. Translation faults, waits on page moves and on the host, access counters and notify records
(R194–R206). -/

namespace Sys2Proof.Machine

/-- AGENT of a fault record (R199); the copy engine of a descriptor is its number modulo 32. -/
def agentOf (s : State) : Waiter → Nat × Nat
  | .engine e => (e, match (s.eng e).run with | some r => r.tile.launch | none => 0)
  | .scalar a => (a.eng, match (s.eng a.eng).run with | some r => r.tile.launch | none => 0)
  | .desc d => (0x4000 + d % 32, match s.desc? d with
      | some x => (match x.owner with | .node l _ => l | .packet _ => 0)
      | none => 0)
  | .coreUnit c => (0x8000 + c, 0)

/-- Mark a waiter as stalled, so that nothing of it goes on before its fault ends (R198). -/
def markStalled (s : State) (id : Nat) : Waiter → State
  | .engine e => s.modEng e (fun x => { x with run := x.run.map (fun r => { r with stalled := some id }) })
  | .desc d => s.modDesc d (fun x => { x with stalled := some id })
  | _ => s

/-- Open faults of a function. -/
def openOf (s : State) (fn : Nat) : Nat := (s.xlt.faults.filter (fun p => p.2.fn = fn)).length

/-- An agent whose translation fails joins an open fault of its context and page, opens one, or stalls unrecorded where
no entry is free (R198). -/
def joinFault (s : State) (fn ctx va kind : Nat) (write host : Bool) (w : Waiter) : State :=
  let page := va / 65536 * 65536
  let stall (s : State) (id : Nat) : State := match w with
    | .engine e | .scalar { eng := e, .. } => traceEng (markStalled s id w) e 8 (agentOf s w).2 id va
    | _ => markStalled s id w
  match s.xlt.faults.find? (fun p => p.2.fn = fn && p.2.ctx = ctx && p.2.page = page) with
  | some (id, f) =>
    let f := { f with waiters := f.waiters ++ [w], write := f.write || (write && !f.posted), host := f.host || (host && !f.posted) }
    stall { s with xlt := { s.xlt with faults := put s.xlt.faults id f } } id
  | none =>
    if s.xlt.faults.length ≥ 1024 ∨ openOf s fn ≥ 256 then
      let s := s.modFn fn (fun x => { x with xlt := { x.xlt with fullStalls := satAdd 16 x.xlt.fullStalls 1 } })
      markStalled { s with xlt := { s.xlt with stalledNoEntry := s.xlt.stalledNoEntry ++ [(fn, w)] } } 0 w
    else
      let id := s.xlt.nextFault
      let (ag, l) := agentOf s w
      let f : OpenFault := { fn := fn, ctx := ctx, page := page, kind := kind, write := write, host := host, waiters := [w],
                             agent := ag, launch := l }
      stall { s with xlt := { s.xlt with
        faults := put s.xlt.faults id f, nextFault := if id + 1 = 2 ^ 32 then 1 else id + 1 } } id

/-- Wait for the Translation Completion of a host page (R194, R196). -/
def joinPage (s : State) (fn ctx va page : Nat) (write : Bool) (w : Waiter) : State :=
  let hit (q : PageReq) : Bool := q.fn = fn && q.page = page
  let s := markStalled s 0 w
  if s.xlt.pageReqs.any hit then
    { s with xlt := { s.xlt with pageReqs := s.xlt.pageReqs.map (fun q =>
        if hit q then { q with waiters := q.waiters ++ [w], write := q.write || write } else q) } }
  else
    { s with xlt := { s.xlt with pageReqs := s.xlt.pageReqs ++
        [{ fn := fn, ctx := ctx, page := page, addr := va, write := write, waiters := [w] }] } }

/-- What an agent does when its translation does not end in memory. -/
def blockOn (s : State) (fn ctx va : Nat) (write : Bool) (r : WalkRes) (w : Waiter) : State :=
  match r with
  | .fault k => joinFault s fn ctx va k write false w
  | .mig => markStalled { s with xlt := { s.xlt with migWaiters := s.xlt.migWaiters ++ [(fn, w)] } } 0 w
  | .ats page => joinPage s fn ctx va page write w
  | _ => s

/-- The record of an open fault (R199). -/
def faultRecord (s : State) (id : Nat) (f : OpenFault) (phase : Nat) : List Byte :=
  natLe 1 f.kind ++ natLe 1 (b2n f.write + 2 * b2n f.host) ++ natLe 2 (min f.waiters.length 65535) ++ natLe 2 f.ctx
    ++ natLe 2 (((s.ctx? f.fn f.ctx).map (·.epoch)).getD 0) ++ natLe 8 f.page ++ natLe 4 id ++ natLe 2 f.agent
    ++ natLe 2 0 ++ natLe 8 f.launch ++ List.replicate 28 0 ++ natLe 4 phase

/-- Records between the driver's consumer index and the device's producer index, both 16 bits wide. -/
def ringUsed (r : RecRing) : Nat := (r.prod % 65536 + 65536 - r.cons % 65536) % 65536

def ringRoom (r : RecRing) : Bool := r.en && decide (ringUsed r < min (2 ^ r.log2) 65535)

/-- Drop a free entry's worth of unrecorded stalls: the first that waits may now open its fault. -/
def popStall (s : State) (fn : Nat) : Option Waiter × State :=
  match s.xlt.stalledNoEntry.find? (fun p => p.1 = fn) with
  | some (f, w) => (some w, { s with xlt := { s.xlt with stalledNoEntry := s.xlt.stalledNoEntry.erase (f, w) } })
  | none =>
    match s.xlt.stalledNoEntry with
    | (f, w) :: t => if openOf s f < 256 then (some w, { s with xlt := { s.xlt with stalledNoEntry := t } }) else (none, s)
    | [] => (none, s)

/- Access counters (R205, R206). -/

/-- Post a notify record, or drop and count it (R206). -/
def postNotify (s : State) (fn kind ctx writes region count : Nat) : State :=
  let r := (s.fn fn).xlt.nring
  if ringRoom r then
    let bs := natLe 1 kind ++ natLe 1 0 ++ natLe 2 ctx ++ natLe 4 writes ++ natLe 8 region ++ natLe 4 count
      ++ List.replicate 8 0 ++ natLe 4 (phaseOf r.prod r.log2)
    let s := writeHost s fn (r.base + r.prod % 2 ^ r.log2 * 32) bs
    let s := s.modFn fn (fun x => { x with xlt := { x.xlt with nring := { x.xlt.nring with prod := r.prod + 1 } } })
    raiseVector s fn r.vector
  else s.modFn fn (fun x => { x with xlt := { x.xlt with dropped := satAdd 16 x.xlt.dropped 1 } })

/-- Count accesses of one 2 MiB region in the access-counter cache, replaced least recently used (R205). -/
def countRegion (s : State) (dev : Bool) (fn ctx region n : Nat) (write : Bool) : State :=
  let th := 256 * (if dev then (s.fn fn).xlt.hotDev else (s.fn fn).xlt.hotHost)
  if th = 0 ∨ n = 0 then s
  else
    let hit (h : HotCount) : Bool := h.dev == dev && h.fn = fn && h.ctx = ctx && h.region = region
    let old := (s.xlt.hot.find? hit).getD { dev := dev, fn := fn, ctx := ctx, region := region }
    let rest := s.xlt.hot.filter (fun h => !hit h)
    let new := { old with count := old.count + n, writes := old.writes + (if write then n else 0) }
    let (s, rest) :=
      if rest.length ≥ 4096 then
        match rest.getLast? with
        | some e => (s.modFn e.fn (fun x => { x with xlt := { x.xlt with evicted := satAdd 16 x.xlt.evicted 1 } }), rest.dropLast)
        | none => (s, rest)
      else (s, rest)
    if new.count ≥ th then
      let s := { s with xlt := { s.xlt with hot := { new with count := 0, writes := 0 } :: rest } }
      postNotify s fn (if dev then 2 else 1) ctx new.writes (region * 0x200000) th
    else { s with xlt := { s.xlt with hot := new :: rest } }

/-- Count an agent's accesses to host pages with AC = 1 over a VA range (R205); by fuel of one page each. -/
def countHost (fn ctx : Nat) (write : Bool) : Nat → State → Nat → Nat → State
  | 0, s, _, _ => s
  | f + 1, s, va, n =>
    if n = 0 ∨ !(match s.ctx? fn ctx with | some x => x.acEn | none => false) then s
    else
      let k := min n (4096 - va % 4096)
      let s := match (xlateWith s [] fn ctx va write).1 with
        | .host _ _ true => countRegion s false fn ctx (va / 0x200000) ((va + k - 1) / 128 + 1 - va / 128) write
        | _ => s
      countHost fn ctx write f s (va + k) (n - k)

def countAc (s : State) (fn ctx : Nat) (write : Bool) (va n : Nat) : State := countHost fn ctx write (n / 4096 + 2) s va n

end Sys2Proof.Machine
end

