-- ==== Sys2Proof/Machine/Operands.lean ====
section
/-! DEFINITION. Operands of the vector unit and of packets: lanes, masks, and little-endian fields. -/

namespace Sys2Proof.Machine

/-- One lane of a vector register; an unwritten register reads 0 (DESIGN CHOICE, log 3). -/
def vlane (e : Eng) (r i : Nat) : W32 := (lookD e.vregs r []).getD i 0

/-- The 64 lanes of a register. -/
def vlanes (e : Eng) (r : Nat) : List W32 := (List.range 64).map (vlane e r)

/-- Write a vector register; all-zero lanes are the unlisted value. -/
def setVreg (e : Eng) (r : Nat) (v : List W32) : Eng :=
  { e with vregs := if v.all (· == 0) then del e.vregs r else put e.vregs r v }

def maskReg (e : Eng) (m : Nat) : W64 := lookD e.masks m 0
def setMask (e : Eng) (m : Nat) (v : W64) : Eng := { e with masks := putD e.masks m v 0 }
def sreg (e : Eng) (d : Nat) : W64 := lookD e.sregs d 0
def setSreg (e : Eng) (d : Nat) (v : W64) : Eng := { e with sregs := putD e.sregs d v 0 }

/-- A lane-wise operation on two registers. -/
def vmap2 (e : Eng) (d a b : Nat) (f : W32 → W32 → W32) : Eng :=
  setVreg e d ((List.range 64).map (fun i => f (vlane e a i) (vlane e b i)))

/-- A lane-wise operation on one register. -/
def vmap1 (e : Eng) (d a : Nat) (f : W32 → W32) : Eng :=
  setVreg e d ((List.range 64).map (fun i => f (vlane e a i)))

/-- A lane mask from a predicate on two registers. -/
def vmaskOf (e : Eng) (m a b : Nat) (f : W32 → W32 → Bool) : Eng :=
  setMask e m (BitVec.ofNat 64 (maskOf ((List.range 64).filter (fun i => f (vlane e a i) (vlane e b i)))))

def vround : VRound → RMode
  | .rne => .rne
  | .rtz => .rtz

def cvtFmt : CvtFmt → Fmt
  | .e4m3 => .e4m3 | .e5m2 => .e5m2 | .mxE4m3 => .mxE4m3 | .mxE5m2 => .mxE5m2 | .mxE2m3 => .mxE2m3
  | .mxE3m2 => .mxE3m2 | .mxE2m1 => .mxE2m1 | .bf16 => .bf16 | .fp16 => .fp16 | .fp32 => .fp32
  | .int8 => .int8 | .int4 => .int4 | .int32 => .int32

def accBytes : AccSize → Nat
  | .b1 => 1 | .b2 => 2 | .b4 => 4 | .b8 => 8

/-- A command's effect on one engine. -/
def onEng (s : State) (e : EngId) (f : Eng → Eng) : State := s.modEng e.val f

end Sys2Proof.Machine
end

