-- ==== Sys2Proof/Machine/Flags.lean ====
section
/-! DEFINITION. The numerics status word (R70). -/

namespace Sys2Proof.Machine

/-- OR status bits into an engine's word; a launch collects the words of the engines that work on it (R70). -/
def raiseNsw (e : Eng) (f : W16) : Eng := { e with nsw := e.nsw ||| f }

/-- The OR of several status words. -/
def orAll (fs : List W16) : W16 := fs.foldl (· ||| ·) 0

/-- Status bits of a conversion under a mode: SR_USED marks every stochastic conversion (R70). -/
def srFlag (rm : RMode) : W16 := if rm = .sr then nswSrUsed else 0

end Sys2Proof.Machine
end

