-- ==== Sys2Proof/Machine/Coherence.lean ====
section
/-! DEFINITION. The coherence protocol between core data caches and homes (R164–R175), and the engines' scalar accesses
(R77, R82, R168, R183). -/

namespace Sys2Proof.Machine

def lineDie (line : Nat) : Nat := pairDie (dpaPair (line * 128))

def State.send (s : State) (m : CohMsg) : State := { s with mem := { s.mem with msgs := s.mem.msgs ++ [m] } }

/-- Take one message in flight. -/
def State.take (s : State) (m : CohMsg) : Option State :=
  if s.mem.msgs.contains m then some { s with mem := { s.mem with msgs := s.mem.msgs.erase m } } else none

/-- Whether a core is in the coherence scope at a line's home (R173, R174). -/
def inScope (s : State) (line c : Nat) : Bool := s.mem.scope.contains (lineDie line, c, (s.coreTag c).toNat)

/-- The cores a broadcast reaches: those in the scope that carry the line's tag (R173). -/
def scopeCores (s : State) (line : Nat) (tag : BitVec 12) : List Nat :=
  (List.range 192).filter (fun c => inScope s line c && s.coreTag c = tag)

/- The home. -/

/-- Add a sharer to a line: a pointer, or OVF where four are in use (R167, R170). -/
def addPtr (l : LlcLine) (c : Nat) : LlcLine :=
  if l.ptrs.contains c then l
  else if l.ptrs.length < 4 then { l with ptrs := l.ptrs ++ [c] } else { l with ovf := true }

/-- The line as the home has it for a request under a tag: filled from HBM on a miss, and a line of another tag is
treated as I (R82, R170, R175). -/
def homeFill (s : State) (line : Nat) (tag : BitVec 12) : State :=
  let s := dropStale s tag line
  if (s.llcLine line).valid then s
  else s.setLlc line { valid := true, tag := tag, data := hbmLine s line, poison := hbmPoison s line }

/-- What a finished transaction sends the requester: data, or a grant for an upgrade without overflow (R170). -/
def homeAnswer (s : State) (line : Nat) : State :=
  let l := s.llcLine line
  match l.txn with
  | none => s
  | some t =>
    if t.answered ∨ t.invLeft ≠ [] ∨ t.fwd.isSome then s
    else
      let s := s.setLlc line { l with dst := .m, ptrs := [t.core], ovf := false, txn := some { t with answered := true } }
      if t.req = .upgrade ∧ !t.bcast then s.send (.grantM line t.core) else s.send (.data line t.core .m l.data l.poison)

/-- Start a request on an idle line: the table of R170. -/
def homeStart (s : State) (line core : Nat) (k : CohReq) (esc : Bool) : State :=
  let l := s.llcLine line
  let l := if esc then { l with rsv := some (core, k) } else l
  let nack (s : State) : State := (s.setLlc line { l with rsv := none }).send (.nack line core .notSharer)
  let holders := if l.ovf then scopeCores s line l.tag else l.ptrs
  let others := holders.filter (· ≠ core)
  let invs (s : State) (cs : List Nat) : State := cs.foldl (fun s c => s.send (.snoop .inv line c core)) s
  let owner := l.ptrs.headD 192
  match l.dst, k with
  | .i, .readShared =>
    (s.setLlc line { l with dst := .e, ptrs := [core], txn := some { req := k, core := core, answered := true, escalated := esc } }).send
      (.data line core .e l.data l.poison)
  | .i, .readUnique =>
    (s.setLlc line { l with dst := .m, ptrs := [core], txn := some { req := k, core := core, answered := true, escalated := esc } }).send
      (.data line core .m l.data l.poison)
  | .i, .upgrade => nack s
  | .s, .readShared =>
    (s.setLlc line (addPtr { l with txn := some { req := k, core := core, answered := true, escalated := esc } } core)).send
      (.data line core .s l.data l.poison)
  | .s, .readUnique =>
    homeAnswer (invs (s.setLlc line { l with txn := some { req := k, core := core, invLeft := others, bcast := l.ovf, escalated := esc } }) others) line
  | .s, .upgrade | .o, .upgrade =>
    if l.ovf ∨ l.ptrs.contains core then
      let d := if l.dst = .o then (readLine s l.tag line) else (l.data, l.poison)
      homeAnswer (invs (s.setLlc line { l with
        data := d.1
        poison := d.2
        dirty := l.dirty || decide (l.dst = .o)
        txn := some { req := k, core := core, invLeft := others, bcast := l.ovf, escalated := esc } }) others) line
    else nack s
  | .e, .readShared | .m, .readShared | .o, .readShared =>
    (s.setLlc line { l with txn := some { req := k, core := core, fwd := some owner, escalated := esc } }).send (.snoop .fwdS line owner core)
  | .e, .readUnique | .m, .readUnique =>
    (s.setLlc line { l with txn := some { req := k, core := core, fwd := some owner, escalated := esc } }).send (.snoop .fwdM line owner core)
  | .o, .readUnique =>
    let sh := others.filter (· ≠ owner)
    (invs (s.setLlc line { l with txn := some { req := k, core := core, fwd := some owner, invLeft := sh, bcast := l.ovf, escalated := esc } }) sh).send
      (.snoop .fwdM line owner core)
  | .e, .upgrade | .m, .upgrade => nack s

/-- A request reaches its home: NACKed, parked or started (R170, R171). -/
def homeRequest (s : State) (line core : Nat) (k : CohReq) (esc : Bool) : State :=
  let s := homeFill s line (s.coreTag core)
  let l := s.llcLine line
  if l.txn.isSome ∨ l.binvLeft ≠ [] then
    if esc then
      match l.rsv with
      | none => s.setLlc line { l with rsv := some (core, k) }
      | some (c, _) => if c = core then s else s.send (.nack line core .reserved)
    else s.send (.nack line core .busy)
  else homeStart s line core k esc

/-- CompAck closes the transaction; a parked request starts ahead of every other (R170, R171). -/
def homeClose (s : State) (line : Nat) : State :=
  let l := s.llcLine line
  match l.txn with
  | none => s
  | some t =>
    match if t.escalated then none else l.rsv with
    | some (c, k) => homeStart (s.setLlc line { l with txn := none, rsv := none }) line c k true
    | none => s.setLlc line { l with txn := none, rsv := none }

/-- Write a home's line back to HBM and forget it (R164). -/
def evictLine (s : State) (line : Nat) : State :=
  let l := s.llcLine line
  let s := if l.valid ∧ l.dirty then hbmWrite s (line * 128) (lineBytes l.data) l.poison else s
  s.setLlc line {}

/-- An acknowledgement of Inv or BInv, with dirty data where the holder had it (R169). -/
def homeAck (s : State) (line core : Nat) (d : Option (LineData × Bool)) : State :=
  let l := s.llcLine line
  if !l.valid then s
  else
    let l := match d with | some (x, p) => { l with data := x, poison := p, dirty := true } | none => l
    let l := { l with txn := l.txn.map (fun (t : Txn) => { t with invLeft := t.invLeft.erase core }) }
    if l.binvLeft.contains core then
      let left := l.binvLeft.erase core
      let s := s.setLlc line { l with binvLeft := left, ptrs := l.ptrs.erase core }
      if left = [] then
        -- a request parked meanwhile starts on the line as a miss
        match l.rsv with
        | some (c, k) => let s := evictLine s line; homeStart (homeFill s line (s.coreTag c)) line c k true
        | none => evictLine s line
      else s
    else homeAnswer (s.setLlc line l) line

/-- The next directory state after a forward (R170). -/
def afterFwd (l : LlcLine) (t : Txn) (owner : Nat) (dirty : Bool) : LlcLine :=
  let t' := { t with fwd := none, answered := true }
  if t.req = .readShared then
    let base := { l with dst := if dirty then .o else .s, txn := some t' }
    addPtr { base with ptrs := if l.ptrs.contains owner then l.ptrs else owner :: l.ptrs } t.core
  else { l with dst := .m, ptrs := [t.core], ovf := false, txn := some t' }

/-- The home hears that the owner no longer holds the line: it answers from a crossing write-back or the LLC (R175). -/
def homeMiss (s : State) (line core : Nat) : State :=
  let l := s.llcLine line
  match l.txn with
  | some t =>
    if t.fwd = some core then
      let wb : Option CacheLine := look (s.core core).wb line
      let (d, p, dirty) : LineData × Bool × Bool := match wb with
        | some w => if w.st = .m ∨ w.st = .o then (w.data, w.poison, true) else (l.data, l.poison, l.dirty)
        | none => (l.data, l.poison, l.dirty)
      let ptrs := l.ptrs.filter (· ≠ core)
      let t' := { t with fwd := none, answered := true }
      let l := { l with data := d, poison := p, dirty := dirty, ptrs := ptrs, txn := some t' }
      let l := if t.req = .readShared then addPtr { l with dst := .s } t.core
        else { l with dst := .m, ptrs := [t.core], ovf := false }
      (s.setLlc line l).send (.data line t.core (if t.req = .readShared then .s else .m) d p)
    else homeAck s line core none
  | none => homeAck s line core none

/- Holders. -/

/-- A holder answers a snoop (R169, R170, R175). -/
def answerSnoop (s : State) (core line : Nat) (k : SnoopKind) (req : Nat) : State :=
  let l := s.dcLine core line
  let dirty := decide (l.st = .m) || decide (l.st = .o)
  let miss : State := s.send (.snoopMiss line core)
  match k with
  | .fwdS =>
    if l.st = .i ∨ l.st = .s then miss
    else ((s.setDc core line { l with st := if dirty then .o else .s }).send (.data line req .s l.data l.poison)).send
      (.fwdDone line core dirty)
  | .fwdM =>
    if l.st = .i ∨ l.st = .s then miss
    else ((s.setDc core line {}).send (.data line req .m l.data l.poison)).send (.fwdDone line core dirty)
  | .inv => (s.setDc core line {}).send (.invAck line core (if dirty then some (l.data, l.poison) else none))
  | .binv => (s.setDc core line {}).send (.invAck line core (if dirty then some (l.data, l.poison) else none))

/-- A snoop reaches a core: it waits while the line is held (R173); a core in reset, or one that has left the line's VD,
answers SnoopMiss (R174, R175). -/
def snoopArrive (s : State) (core line : Nat) (k : SnoopKind) (req : Nat) : State :=
  if (s.core core).st = .reset ∨ (s.llcLine line).tag ≠ s.coreTag core then s.send (.snoopMiss line core)
  else if (s.dcLine core line).held then s.modCore core (fun c => { c with snoops := c.snoops ++ [(line, k, req)] })
  else answerSnoop s core line k req

/-- End a hold and answer the snoops that waited for it, in order (R173). -/
def endHold (s : State) (core line : Nat) : State :=
  let s := s.setDc core line { s.dcLine core line with held := false }
  let waits := (s.core core).snoops.filter (fun q => q.1 = line)
  let s := s.modCore core (fun c => { c with snoops := c.snoops.filter (fun q => q.1 ≠ line) })
  waits.foldl (fun s q => answerSnoop s core line q.2.1 q.2.2) s

/-- A core issues a request of its own for a line (R169). -/
def coreRequest (s : State) (core line : Nat) (k : CohReq) (acc : Option ScalarAcc) : State :=
  match look (s.core core).mshrs line with
  | some m => s.modCore core (fun c => { c with mshrs := put c.mshrs line { m with waiting := m.waiting ++ acc.toList } })
  | none =>
    (s.modCore core (fun c => { c with mshrs := put c.mshrs line { req := k, sent := true, waiting := acc.toList } })).send
      (.request k line core false)

/- Scalar accesses. -/

/-- What a scalar access needs before it can complete. -/
inductive ScalarNeed where
  | done
  | line (line : Nat) (k : CohReq)
  | poison (dpa : Nat)

/-- The first device line of an access that the cache cannot serve: absent, of another tag, or not writable
(R82, R169, R170). -/
def scalarNeed (s : State) (core : Nat) (a : ScalarAcc) : List (Bool × Nat × Nat) → ScalarNeed
  | [] => .done
  | (true, _, _) :: t => scalarNeed s core a t
  | (false, x, n) :: t =>
    let l := s.dcLine core (x / 128)
    if l.st = .i then .line (x / 128) (if a.store then .readUnique else .readShared)
    else if a.store ∧ (l.st = .s ∨ l.st = .o) then .line (x / 128) .upgrade
    else if l.poison ∧ !(a.store ∧ n = 128) then .poison (x / 128 * 128)
    else scalarNeed s core a t

/-- Drop the core's copies of another tag that an access meets, counting the dirty ones (R82, R108). -/
def dropOldTag (s : State) (core : Nat) (ps : List (Bool × Nat × Nat)) : State :=
  ps.foldl (fun s p =>
    if p.1 then s
    else
      let l := s.dcLine core (p.2.1 / 128)
      if l.st ≠ .i ∧ l.tag ≠ s.coreTag core then
        let s := s.setDc core (p.2.1 / 128) {}
        if l.st = .m ∨ l.st = .o then s.modCore core (fun c => { c with drops := satAdd 16 c.drops 1 }) else s
      else s) s

/-- A host line of a core's data cache, filled from host memory where it is absent (R168). -/
def hostLine (s : State) (core line : Nat) : CacheLine :=
  match look (s.core core).hostLines line with
  | some l => l
  | none => { st := .s, data := lineOf (readHost s (128 * line) 128) }

/-- Perform one piece of an access that hits: the bytes read. -/
def scalarPiece (s : State) (fn core : Nat) (a : ScalarAcc) (p : Bool × Nat × Nat) (bs : List Byte) : State × List Byte :=
  let x := p.2.1
  let off := x % 128
  if p.1 then
    if a.uncached then
      if a.store then (writeHost s fn x bs, []) else (s, readHost s x p.2.2)
    else
      let l := hostLine s core (x / 128)
      let l' := if a.store then { l with st := .m, data := lineSet l.data off bs } else l
      (s.modCore core (fun c => { c with hostLines := put c.hostLines (x / 128) l' }),
        if a.store then [] else (List.range p.2.2).map (fun i => lineByte l.data (off + i)))
  else
    let l := s.dcLine core (x / 128)
    if a.store then (s.setDc core (x / 128) { l with st := .m, data := lineSet l.data off bs, poison := l.poison && decide (p.2.2 < 128) }, [])
    else (s, (List.range p.2.2).map (fun i => lineByte l.data (off + i)))

/-- Translate an access through the core's cache of translations: its pieces, cut at lines, or what stops it (R183). -/
def scalarPieces (s : State) (fn core : Nat) (a : ScalarAcc) :
    Nat → Nat → Nat → State × Except WalkRes (List (Bool × Nat × Nat))
  | 0, _, _ => (s, .ok [])
  | f + 1, va, n =>
    if n = 0 then (s, .ok [])
    else
      let (r, met) := xlateWith s (s.core core).xtlb fn a.ctx va a.store
      let s := s.modCore core (fun c => { c with xtlb := tlbFill c.xtlb met 256 })
      let cut (host : Bool) (x len : Nat) : State × Except WalkRes (List (Bool × Nat × Nat)) :=
        let k := min n (min len (128 - x % 128))
        match scalarPieces s fn core a f (va + k) (n - k) with
        | (s, .ok t) => (s, .ok ((host, x, k) :: t))
        | e => e
      match r with
      | .dev x len _ => cut false x len
      | .host x len _ => cut true x len
      | e => (s, .error e)

/-- Run a scalar access, or leave it waiting where it must wait (R77, R183). -/
def tryScalar (s : State) (a : ScalarAcc) : State :=
  let core := engCore a.eng
  match s.coreVd core with
  | none => s
  | some fn =>
    match scalarPieces s fn core a 17 a.va a.size with
    | (s, .error r) => blockOn s fn a.ctx a.va a.store r (.scalar a)
    | (s, .ok ps) =>
      let s := dropOldTag s core ps
      match scalarNeed s core a ps with
      | .line l k => coreRequest s core l k (some a)
      | .poison d => engineError s a.eng (memErr s d)
      | .done =>
        let s := countAc s fn a.ctx a.store a.va a.size
        let r := ps.foldl (fun (acc : State × List Byte × List Byte) p =>
          let (s, got) := scalarPiece acc.1 fn core a p (acc.2.2.take p.2.2)
          (s, acc.2.1 ++ got, acc.2.2.drop p.2.2)) (s, [], natLe a.size a.value)
        if a.store then r.1 else onEngN r.1 a.eng a.dst (BitVec.ofNat 64 (leNat r.2.1))
where
  onEngN (s : State) (e d : Nat) (v : W64) : State := s.modEng e (fun x => setSreg x d v)

def execScalarLoad (e : EngId) (d : Nat) (ctx : Fin 4096) (va : W64) (size : AccSize) (uncached : Bool) (s : State) : Host.Outcome State Fault Refusal :=
  doneKeep s (tryScalar s { eng := e.val, dst := d, ctx := ctx.val, va := va.toNat, size := accBytes size, uncached := uncached })

def execScalarStore (e : EngId) (ctx : Fin 4096) (va : W64) (size : AccSize) (value : W64) (uncached : Bool) (s : State) :
    Host.Outcome State Fault Refusal :=
  doneKeep s (tryScalar s { eng := e.val, store := true, ctx := ctx.val, va := va.toNat, size := accBytes size, value := value.toNat,
                            uncached := uncached })

/- Requests at the home. -/

/-- A request command: the message in flight if there is one, else a fresh request of the core's sequencer or sampler,
which asks only for a line it does not hold and has not asked for (R169). -/
def requestCmd (s : State) (core line : Nat) (k : CohReq) : State :=
  match s.take (.request k line core true) with
  | some s => homeRequest s line core k true
  | none =>
    match s.take (.request k line core false) with
    | some s => homeRequest s line core k false
    | none =>
      let st := (s.dcLine core line).st
      let fits := if k = .upgrade then decide (st = .s ∨ st = .o) else decide (st = .i)
      if fits ∧ (s.coreVd core).isSome ∧ !has (s.core core).mshrs line then
        match (coreRequest s core line k none).take (.request k line core false) with
        | some s => homeRequest s line core k false
        | none => s
      else s

def execReadShared (c : CoreId) (line : LineId) (s : State) : Host.Outcome State Fault Refusal :=
  doneKeep s (requestCmd s c.val line.val .readShared)

def execReadUnique (c : CoreId) (line : LineId) (s : State) : Host.Outcome State Fault Refusal :=
  doneKeep s (requestCmd s c.val line.val .readUnique)

def execUpgrade (c : CoreId) (line : LineId) (s : State) : Host.Outcome State Fault Refusal :=
  doneKeep s (requestCmd s c.val line.val .upgrade)

/- Write-backs and evictions. -/

/-- Write-backs and evictions of a core in flight to one home slice (R170). -/
def wbInUse (s : State) (core line : Nat) : Nat :=
  ((keys (s.core core).wb).filter (fun l => lineDie l = lineDie line && Config.homeSlice l % 16 = Config.homeSlice line % 16)).length

/-- A core gives a line up: it moves to the write-back buffer while one of its two entries is free and no hold runs
(R170, R173). -/
def giveUp (s : State) (core line : Nat) : State :=
  let l := s.dcLine core line
  if l.st = .i ∨ l.held ∨ ((s.core core).wb ≠ [] ∧ wbInUse s core line ≥ 2) then s
  else (s.setDc core line {}).modCore core (fun c => { c with wb := put c.wb line l })

/-- The home records a WriteBack or an Evict and answers WBAck (R170). -/
def homeGiveUp (s : State) (line core : Nat) (w : CacheLine) : State :=
  let l := s.llcLine line
  let s :=
    if !l.valid ∨ l.tag ≠ w.tag then s
    else
      let owner := decide (l.ptrs.headD 192 = core) && !(match l.txn with | some t => t.fwd = some core | none => false)
      let rest := l.ptrs.filter (· ≠ core)
      let crossing : Bool := match l.txn with | some t => decide (t.fwd = some core) | none => false
      if crossing ∧ (w.st = .m ∨ w.st = .o) then
        -- the data waits at the home for the SnoopMiss of the crossing forward (R175)
        s.setLlc line { l with data := w.data, poison := w.poison, dirty := true }
      else if (w.st = .m ∨ w.st = .o) ∧ owner ∧ (l.dst = .m ∨ l.dst = .o ∨ l.dst = .e) then
        s.setLlc line { l with
          data := w.data, poison := w.poison, dirty := true, ptrs := rest,
          dst := if l.dst = .o ∧ (rest ≠ [] ∨ l.ovf) then .s else .i, ovf := l.ovf && decide (l.dst = .o) }
      else if w.st = .e ∧ owner ∧ (l.dst = .e ∨ l.dst = .m) then s.setLlc line { l with dst := .i, ptrs := rest }
      else if w.st = .s ∧ !l.ovf then
        s.setLlc line { l with ptrs := rest, dst := if l.dst = .s ∧ rest = [] then .i else l.dst }
      else s
  s.send (.wbAck line core)

/-- Take the line from the write-back buffer, giving it up first where it is still in the cache. -/
def giveUpCmd (s : State) (core line : Nat) (dirty : Bool) : State :=
  let fits (w : CacheLine) : Bool := if dirty then w.st = .m || w.st = .o else w.st = .e || w.st = .s
  let s1 := if has (s.core core).wb line then s else if fits (s.dcLine core line) then giveUp s core line else s
  match look (s1.core core).wb line with
  | some w => if fits w ∧ !s1.mem.msgs.contains (.wbAck line core) then homeGiveUp s1 line core w else s
  | none => s

def execWriteBack (c : CoreId) (line : LineId) (s : State) : Host.Outcome State Fault Refusal :=
  doneKeep s (giveUpCmd s c.val line.val true)

def execEvict (c : CoreId) (line : LineId) (s : State) : Host.Outcome State Fault Refusal :=
  doneKeep s (giveUpCmd s c.val line.val false)

/-- A snoop command. With `crossed`, the core has just given the line up, so the snoop meets no copy (R175). -/
def snoopCmd (s : State) (core line : Nat) (k : SnoopKind) (crossed : Bool) : State :=
  match s.mem.msgs.findSome? (fun m => match m with
    | .snoop k' l c r => if k' = k ∧ l = line ∧ c = core then some r else none
    | _ => none) with
  | none => s
  | some r =>
    match s.take (.snoop k line core r) with
    | none => s
    | some s => snoopArrive (if crossed then giveUp s core line else s) core line k r

def execFwdS (c : CoreId) (line : LineId) (crossed : Bool) (s : State) : Host.Outcome State Fault Refusal :=
  doneKeep s (snoopCmd s c.val line.val .fwdS crossed)

def execFwdM (c : CoreId) (line : LineId) (crossed : Bool) (s : State) : Host.Outcome State Fault Refusal :=
  doneKeep s (snoopCmd s c.val line.val .fwdM crossed)

def execCohInv (c : CoreId) (line : LineId) (s : State) : Host.Outcome State Fault Refusal :=
  doneKeep s (snoopCmd s c.val line.val .inv false)

/-- Start the eviction of a line that has holders and no transaction: BInv to each of them (R164). -/
def startEvict (s : State) (line : Nat) : State :=
  let l := s.llcLine line
  let hs := if l.ovf then scopeCores s line l.tag else l.ptrs
  if l.valid ∧ l.txn.isNone ∧ l.binvLeft = [] ∧ hs ≠ [] then
    hs.foldl (fun s c => s.send (.snoop .binv line c c)) (s.setLlc line { l with binvLeft := hs })
  else s

/-- BINV: the home evicts the line, where it has not begun to, and this holder's back-invalidation arrives (R164, R169). -/
def execBinv (c : CoreId) (line : LineId) (s : State) : Host.Outcome State Fault Refusal :=
  let s1 := if s.mem.msgs.contains (.snoop .binv line.val c.val c.val) then s else startEvict s line.val
  doneKeep s (snoopCmd s1 c.val line.val .binv false)

def execInvAck (c : CoreId) (line : LineId) (s : State) : Host.Outcome State Fault Refusal :=
  match s.mem.msgs.findSome? (fun m => match m with
    | .invAck l k d => if l = line.val ∧ k = c.val then some d else none
    | _ => none) with
  | none => doneKeep s s
  | some d =>
    match s.take (.invAck line.val c.val d) with
    | none => doneKeep s s
    | some t => doneKeep s (homeAck t line.val c.val d)

def fwdDoneAt (s : State) (line core : Nat) (dirty : Bool) : State :=
  let l := s.llcLine line
  match l.txn with
  | some t => if t.fwd = some core then s.setLlc line (afterFwd l t core dirty) else s
  | none => s

def execFwdDone (c : CoreId) (line : LineId) (s : State) : Host.Outcome State Fault Refusal :=
  match s.take (.fwdDone line.val c.val true) with
  | some t => doneKeep s (fwdDoneAt t line.val c.val true)
  | none =>
    match s.take (.fwdDone line.val c.val false) with
    | some t => doneKeep s (fwdDoneAt t line.val c.val false)
    | none => doneKeep s s

def execSnoopMiss (c : CoreId) (line : LineId) (s : State) : Host.Outcome State Fault Refusal :=
  match s.take (.snoopMiss line.val c.val) with
  | some t => doneKeep s (homeMiss t line.val c.val)
  | none => doneKeep s s

def execCompAck (c : CoreId) (line : LineId) (s : State) : Host.Outcome State Fault Refusal :=
  match s.take (.compAck line.val c.val) with
  | some t =>
    match (t.llcLine line.val).txn with
    | some x => doneKeep s (if x.core = c.val then homeClose t line.val else t)
    | none => doneKeep s t
  | none => doneKeep s s

/- Arrivals at a core. -/

/-- The core's request has completed: CompAck goes home and the engine accesses that waited run again (R170, R171). -/
def requestDone (s : State) (core line : Nat) : State :=
  let ws := ((look (s.core core).mshrs line).map (·.waiting)).getD []
  let s := (s.modCore core (fun c => { c with mshrs := del c.mshrs line })).send (.compAck line core)
  ws.foldl tryScalar s

/-- Data arrives: the line enters the cache, a hold starts unless it is an S copy (R173). -/
def dataArrive (s : State) (core line : Nat) (st : Moesi) (d : LineData) (p : Bool) : State :=
  requestDone (s.setDc core line { st := st, tag := s.coreTag core, data := d, poison := p, held := decide (st ≠ .s) }) core line

def execDataReceived (c : CoreId) (line : LineId) (s : State) : Host.Outcome State Fault Refusal :=
  match s.mem.msgs.findSome? (fun m => match m with
    | .data l k st d p => if l = line.val ∧ k = c.val then some (st, d, p) else none
    | _ => none) with
  | none => doneKeep s s
  | some (st, d, p) =>
    match s.take (.data line.val c.val st d p) with
    | none => doneKeep s s
    | some t => doneKeep s (dataArrive t c.val line.val st d p)

def execGrantM (c : CoreId) (line : LineId) (s : State) : Host.Outcome State Fault Refusal :=
  match s.take (.grantM line.val c.val) with
  | some t =>
    doneKeep s (requestDone (t.setDc c.val line.val { t.dcLine c.val line.val with st := .m, held := true }) c.val line.val)
  | none => doneKeep s s

/-- A core counts a NACK; a core refused as no sharer asks for the line with data next (R170, R171). -/
def nackArrive (s : State) (core line : Nat) (why : NackWhy) : State :=
  s.modCore core (fun c => { c with mshrs := adjust c.mshrs line (fun m =>
    { m with sent := false, waitRetry := true
             nacks := if why = .reserved then m.nacks else m.nacks + 1
             req := if why = .notSharer then .readUnique else m.req }) })

def execCohNack (c : CoreId) (line : LineId) (s : State) : Host.Outcome State Fault Refusal :=
  match s.mem.msgs.findSome? (fun m => match m with
    | .nack l k w => if l = line.val ∧ k = c.val then some w else none
    | _ => none) with
  | none => doneKeep s s
  | some w =>
    match s.take (.nack line.val c.val w) with
    | none => doneKeep s s
    | some t => doneKeep s (nackArrive t c.val line.val w)

def execWbAck (c : CoreId) (line : LineId) (s : State) : Host.Outcome State Fault Refusal :=
  match s.take (.wbAck line.val c.val) with
  | some t => doneKeep s (t.modCore c.val (fun k => { k with wb := del k.wb line.val }))
  | none => doneKeep s s

def execHoldExpiry (c : CoreId) (line : LineId) (s : State) : Host.Outcome State Fault Refusal :=
  if (s.dcLine c.val line.val).held then doneKeep s (endHold s c.val line.val) else doneKeep s s

/-- A NACKed request is sent again after RETRY_GAP; after the 8th NACK it is escalated (R171). -/
def execNackRetryExpiry (c : CoreId) (line : LineId) (s : State) : Host.Outcome State Fault Refusal :=
  match look (s.core c.val).mshrs line.val with
  | some m =>
    if m.waitRetry then
      doneKeep s ((s.modCore c.val (fun k => { k with mshrs := put k.mshrs line.val { m with waitRetry := false, sent := true } })).send
        (.request m.req line.val c.val (decide (m.nacks ≥ 8))))
    else doneKeep s s
  | none => doneKeep s s

/- Leaving the scope (R174). -/

/-- Remove a core from a die's scope of one tag and clear every pointer to it there (R174). -/
def leaveScope (s : State) (core die tag : Nat) : State :=
  { s with mem := { s.mem with
    scope := s.mem.scope.filter (fun p => p ≠ (die, core, tag))
    llc := mapVals s.mem.llc (fun line l =>
      if lineDie line = die ∧ l.tag.toNat = tag ∧ l.ptrs.contains core then
        let rest := l.ptrs.filter (· ≠ core)
        let owner := decide (l.ptrs.headD 192 = core)
        let dst := match l.dst with
          | .e | .m => if owner then .i else l.dst
          | .o => if owner then (if rest = [] ∧ !l.ovf then .i else .s) else .o
          | .s => if rest = [] ∧ !l.ovf then .i else .s
          | .i => .i
        { l with ptrs := rest, dst := dst }
      else l) } }

/-- Add a core to the scope of its tag at the homes of both dies (R174). -/
def joinScope (s : State) (core : Nat) (tag : BitVec 12) : State :=
  let add (sc : List (Nat × Nat × Nat)) (d : Nat) := if sc.contains (d, core, tag.toNat) then sc else sc ++ [(d, core, tag.toNat)]
  { s with mem := { s.mem with scope := add (add s.mem.scope 0) 1 } }

/-- A home slice hears FlushDone: it removes the core after every broadcast open on its die has closed (R174). -/
def execFlushDone (c : CoreId) (d : DieId) (s : State) : Host.Outcome State Fault Refusal :=
  let open_ := s.mem.llc.any (fun p => decide (lineDie p.1 = d.val) && (match p.2.txn with | some t => t.bcast && t.invLeft.contains c.val | none => false))
  match s.mem.msgs.findSome? (fun m => match m with
    | .flushDone k die tag => if k = c.val ∧ die = d.val then some tag else none
    | _ => none) with
  | none => doneKeep s s
  | some tag =>
    match s.take (.flushDone c.val d.val tag) with
    | some t => doneKeep s (if open_ then s else leaveScope t c.val d.val tag)
    | none => doneKeep s s

/-- A core empties its data cache: dirty lines reach their homes under the tag they were written with, every line is
invalid, and waiting snoops are answered (R78, R83, R174). -/
def flushCore (s : State) (core : Nat) : State :=
  let lines := (s.core core).dcache
  let s := lines.foldl (fun s p =>
    let s := if p.2.held then endHold s core p.1 else s
    let l := s.dcLine core p.1
    if l.st = .i then s
    else
      let s := s.setDc core p.1 {}
      let h := s.llcLine p.1
      if h.valid ∧ h.tag = l.tag then
        let owner := decide (h.ptrs.headD 192 = core)
        let rest := h.ptrs.filter (· ≠ core)
        s.setLlc p.1 { h with
          data := if l.st = .m ∨ l.st = .o then l.data else h.data
          poison := if l.st = .m ∨ l.st = .o then l.poison else h.poison
          dirty := h.dirty || decide (l.st = .m) || decide (l.st = .o)
          ptrs := rest
          dst := if owner ∧ h.dst ≠ .s then (if h.dst = .o ∧ (rest ≠ [] ∨ h.ovf) then .s else .i)
            else if h.dst = .s ∧ rest = [] ∧ !h.ovf then .i else h.dst }
      else if l.st = .m ∨ l.st = .o then hbmWrite s (p.1 * 128) (lineBytes l.data) l.poison
      else s) s
  let s := flushHostLines s core
  s.modCore core (fun c => { c with hostLines := [], xtlb := [] })

/-- FlushDone to the homes of both dies (R174). -/
def sendFlushDone (s : State) (core : Nat) : State :=
  let tag := (s.coreTag core).toNat
  (s.send (.flushDone core 0 tag)).send (.flushDone core 1 tag)

/-- The homes write a VD's dirty lines of a set of pairs to HBM and drop its lines there (R166, R257). -/
def flushPairs (s : State) (ps : List Nat) : State :=
  ((keys s.mem.llc).filter (fun l => ps.contains (dpaPair (l * 128)))).foldl (fun s line =>
    let l := s.llcLine line
    let (d, p) := readLine s l.tag line
    let hot := match l.dst with | .m | .o | .e => true | _ => false
    let s := dropCopies s line
    evictLine (s.setLlc line { l with data := d, poison := p, dirty := l.dirty || (hot && decide (d ≠ l.data)), txn := none, binvLeft := [] }) line) s

end Sys2Proof.Machine
end

