-- ==== Sys2Proof/Machine/Tiles.lean ====
section
/-! DEFINITION. What a tile reads, computes and writes: operand streams, chunks, epilogue, output, Facet errors
(R39–R65, R92, R98–R100, R567, R568). -/

namespace Sys2Proof.Machine

/-- What stops an operand access: a failed translation with its VA, poison, or a Facet error. -/
inductive OpStop where
  | walk (va : Nat) (write : Bool) (r : WalkRes)
  | poison (dpa : Nat)
  | facet (k : FacetKind) (frame : Nat)
deriving DecidableEq, Repr

/-- The first VA of a range whose translation fails, by fuel of one granule each. -/
def firstHole (s : State) (fn ctx : Nat) (write : Bool) : Nat → Nat → Nat → Option (Nat × WalkRes)
  | 0, _, _ => none
  | f + 1, va, n =>
    if n = 0 then none
    else
      match (xlateWith s [] fn ctx va write).1 with
      | .dev _ len _ => firstHole s fn ctx write f (va + min n len) (n - min n len)
      | .host _ len _ => firstHole s fn ctx write f (va + min n len) (n - min n len)
      | r => some (va, r)

def readOp (s : State) (fn ctx va n : Nat) : Except OpStop (List Byte) :=
  match readVa s fn ctx va n with
  | .ok (bs, none) => .ok bs
  | .ok (_, some a) => .error (.poison a)
  | .error r => .error (match firstHole s fn ctx false (n / 4096 + 3) va n with
    | some (v, r) => .walk v false r
    | none => .walk va false r)

/-- Write several runs of bytes; every run is translated before any byte is written. -/
def writeOps (s : State) (fn ctx : Nat) (ws : List (Nat × List Byte)) : Except OpStop State :=
  match ws.findSome? (fun w => firstHole s fn ctx true (w.2.length / 4096 + 3) w.1 w.2.length) with
  | some (v, r) => .error (.walk v true r)
  | none => .ok (ws.foldl (fun s w => match writeVa s fn ctx w.1 w.2 with | .ok s => s | .error _ => s) s)

/- The packed weight stream as an operand (R44, R567). -/

/-- The raw length of the stream of a node's B operand (R567). -/
def lpwRaw (n : Node) : Nat := (n.n - 1) * n.ldb + rowLen n.fmtB n.k

/-- The raw length of frame f (R44). -/
def frameLen (n : Node) (f : Nat) : Nat := min (stdRawLen n.fmtB) (lpwRaw n - f * stdRawLen n.fmtB)

/-- Read and decode one frame of a node's stream (R44–R48, R100). -/
def readFrame (s : State) (l : Launch) (n : Node) (f : Nat) : Except OpStop (List Byte) := do
  let base := cbField l.cb n.bP
  let dirE ← readOp s l.fn l.ctx (base + 4 * f) 4
  let at_ := base + 64 * leNat dirE
  let hdr ← readOp s l.fn l.ctx at_ 64
  let coded := fieldAt hdr 12 4
  let payload ← if coded = 0 ∨ coded > 65536 then .ok [] else readOp s l.fn l.ctx (at_ + 64) coded
  let table ←
    if fieldAt hdr 4 1 = 2 ∧ n.tableP ≠ 0xFFFF ∧ fieldAt hdr 5 1 < n.nTables then
      match readOp s l.fn l.ctx (cbField l.cb n.tableP + 512 * fieldAt hdr 5 1) 512 with
      | .ok t => .ok (some t)
      | .error (.poison _) => .ok none
      | .error e => .error e
    else .ok none
  let w : FrameWant := { inner := n.fmtB, streamTag := n.streamTag, index := f, rawLen := frameLen n f, nTables := n.nTables }
  match decodeFrame w hdr payload table with
  | .ok bs => .ok bs
  | .error k => .error (.facet k f)

/-- Bytes [o, o + k) of the raw image of an LPW operand. -/
def lpwBytes (s : State) (l : Launch) (n : Node) (o k : Nat) : Except OpStop (List Byte) := do
  let L := stdRawLen n.fmtB
  let fs := (List.range ((o + k - 1) / L + 1 - o / L)).map (o / L + ·)
  let parts ← fs.mapM (fun f => readFrame s l n f)
  .ok (sliceB parts.flatten (o - o / L * L) k)

/- Chunks. -/

/-- Rows and columns of a tile's block. -/
def blockRows (n : Node) (t : Tile) : Nat := min 64 (n.m - 64 * t.mBlock)
def blockCols (n : Node) (t : Tile) : Nat := min 64 (n.n - 64 * t.nBlock)

/-- Elements [lo, hi) of row i of operand A, with its scales; `lo` is a multiple of 256 (R92, R567). -/
def aRow (s : State) (l : Launch) (n : Node) (i lo hi : Nat) : Except OpStop (List Byte × List Byte) := do
  let o := rowLen n.fmtA lo
  let d ← readOp s l.fn l.ctx (cbField l.cb n.aP + i * n.lda + o) (rowLen n.fmtA hi - o)
  let sc ← if isMxFmt n.fmtA then readOp s l.fn l.ctx (cbField l.cb n.saP + i * ceilDiv n.k 32 + lo / 32) (ceilDiv hi 32 - lo / 32)
    else .ok []
  .ok (d, sc)

def bRow (s : State) (l : Launch) (n : Node) (j lo hi : Nat) : Except OpStop (List Byte × List Byte) := do
  let o := rowLen n.fmtB lo
  let len := rowLen n.fmtB hi - o
  let d ← if n.flags.testBit 2 then lpwBytes s l n (j * n.ldb + o) len
    else readOp s l.fn l.ctx (cbField l.cb n.bP + j * n.ldb + o) len
  let sc ← if n.sbP ≠ 0xFFFF then readOp s l.fn l.ctx (cbField l.cb n.sbP + j * ceilDiv n.k 32 + lo / 32) (ceilDiv hi 32 - lo / 32)
    else .ok []
  .ok (d, sc)

/-- The accumulators a tile starts with. -/
def freshAccs (l : Launch) (n : Node) (t : Tile) : List Acc :=
  List.replicate (blockRows n t * blockCols n t) (match accModeOf n l.figures with | .exact => accZero | _ => .fp none)

/-- Accumulate elements [lo, hi) into every element of a tile's block (R58–R60). -/
def tileAccs (s : State) (l : Launch) (n : Node) (t : Tile) (accs : List Acc) (lo hi : Nat) : Except OpStop (List Acc × W16) := do
  let as_ ← (List.range (blockRows n t)).mapM (fun i => aRow s l n (64 * t.mBlock + i) lo hi)
  let bs ← (List.range (blockCols n t)).mapM (fun j => bRow s l n (64 * t.nBlock + j) lo hi)
  let C := blockCols n t
  let rs := (List.range accs.length).map (fun q =>
    let a := as_.getD (q / C) ([], [])
    let b := bs.getD (q % C) ([], [])
    accumulate n (accModeOf n l.figures) { a := a.1, sa := a.2, b := b.1, sb := b.2 } (accs.getD q accZero) 0 (hi - lo))
  .ok (rs.map (·.1), orAll (rs.map (·.2)))

/- Output. -/

/-- The FP32 value of a residual element (R568). -/
def residual (n : Node) (row scales : List Byte) (j j0 : Nat) : W32 :=
  let v := rowVal n.fmtOut row (j - j0)
  if isMxFmt n.fmtOut then
    let x := ((scales[(j / 32) - j0 / 32]?).getD 0).toNat
    if x = 0xFF then nan32 else toF32 .rne (scaleV v ((x : Int) - 127))
  else toF32 .rne v

/-- One element's value after the epilogue, or its accumulator's value where the node has none (R63, R568). -/
def epilogued (n : Node) (a : Acc) (sc bi re : W32) : FVal :=
  if !n.flags.testBit 3 then accVal a
  else
    let y := toF32 .rne (accVal a)
    let y := if n.epi.testBit 4 then fmul .rne y sc else y
    let y := if n.epi.testBit 5 then fadd .rne y bi else y
    let y := if n.epi.testBit 6 then fadd .rne y re else y
    f32 (activate (fld n.epi 0 4) y)

/-- Write a block's output: convert every element once, after the epilogue (R63, R567, R568). -/
def writeOut (s : State) (l : Launch) (n : Node) (t : Tile) (accs : List Acc) : Except OpStop (State × W16) := do
  let C := blockCols n t
  let j0 := 64 * t.nBlock
  let epi := n.flags.testBit 3
  let vec (on : Bool) (p : Nat) : Except OpStop (List Byte) :=
    if epi && on then readOp s l.fn l.ctx (cbField l.cb p + 4 * j0) (4 * C) else .ok []
  let sc ← vec (n.epi.testBit 4) n.epiScaleP
  let bi ← vec (n.epi.testBit 5) n.epiBiasP
  let o := rowLen n.fmtOut j0
  let rows ← (List.range (blockRows n t)).mapM (fun r => do
    let i := 64 * t.mBlock + r
    let row := (accs.drop (r * C)).take C
    let (rd, rsc) ← (if epi && n.epi.testBit 6 then do
        let d ← readOp s l.fn l.ctx (cbField l.cb n.epiResP + i * n.ldo + o) (rowLen n.fmtOut (j0 + C) - o)
        let x ← if isMxFmt n.fmtOut then
            readOp s l.fn l.ctx (cbField l.cb n.epiResP + n.m * n.ldo + i * ceilDiv n.n 32 + j0 / 32) (ceilDiv (j0 + C) 32 - j0 / 32)
          else .ok []
        .ok (d, x)
      else .ok ([], []))
    let out := cbField l.cb n.outP + i * n.ldo + o
    if n.fmtOut = 0x13 then .ok ([(out, row.flatMap (fun a => natLe 12 (ex96Of a)))], (0 : W16))
    else
      let vs := (List.range row.length).map (fun q => epilogued n (row.getD q accZero)
        (BitVec.ofNat 32 (fieldAt sc (4 * q) 4)) (BitVec.ofNat 32 (fieldAt bi (4 * q) 4)) (residual n rd rsc (j0 + q) j0))
      let (codes, scales, fl) := convertRow n l.seed i j0 vs
      let main := (out, packCodes n.fmtOut codes)
      if isMxFmt n.fmtOut then
        .ok ([main, (cbField l.cb n.outP + n.m * n.ldo + i * ceilDiv n.n 32 + j0 / 32, scales.flatMap (natLe 1))], fl)
      else .ok ([main], fl))
  let s ← writeOps s l.fn l.ctx (rows.flatMap (·.1))
  .ok (s, orAll (rows.map (·.2)))

/- Facet errors (R100). -/

def facetBits (k : FacetKind) : BitVec 4 := BitVec.ofNat 4 (1 <<< facetBit k)

/-- Record a Facet error of a core (R100, R109). -/
def latchFacet (k : Core) (kind : FacetKind) (frame tag : Nat) : Core :=
  { k with
    facetInfo0 := if k.facetErr = 0 then BitVec.ofNat 32 frame else k.facetInfo0
    facetInfo1 := if k.facetErr = 0 then BitVec.ofNat 32 tag else k.facetInfo1
    facetErr := k.facetErr ||| facetBits kind
    facetCount := satAdd 24 k.facetCount 1 }

def facetRec (kind : FacetKind) (frame tag core : Nat) : ErrRec :=
  { cause := 0x0005, source := 1, detail := natLe 4 frame ++ natLe 4 tag ++ natLe 1 (facetBit kind) ++ natLe 1 core }

/-- Whether a tile reads bytes of a frame of its node's stream. -/
def tileUsesFrame (n : Node) (t : Tile) (frame : Nat) : Bool :=
  let L := stdRawLen n.fmtB
  decide (64 * t.nBlock * n.ldb < (frame + 1) * L) && decide (frame * L < (64 * t.nBlock + blockCols n t) * n.ldb)

/-- A failed frame: the tiles that consume it stop and fail their launch (R89, R100). -/
def facetFail (s : State) (core lid node : Nat) (n : Node) (kind : FacetKind) (frame : Nat) : State :=
  let s := s.modCore core (fun k => latchFacet k kind frame n.streamTag)
  let s := (coreEngs core).foldl (fun s e =>
    match (s.eng e).run with
    | some r => if r.tile.launch = lid ∧ r.tile.node = node ∧ tileUsesFrame n r.tile frame then s.modEng e (fun x => { x with run := none }) else s
    | none => s) s
  failLaunch s lid (facetRec kind frame n.streamTag core)

/-- What an engine does when an operand access stops (R89, R100, R156, R198). -/
def engineStop (s : State) (e : Nat) (l : Launch) (r : RunTile) (n : Node) : OpStop → State
  | .walk va w x => blockOn s l.fn l.ctx va w x (.engine e)
  | .poison a => engineError s e (memErr s a)
  | .facet k f => facetFail s (engCore e) r.tile.launch r.tile.node n k f

/-- FACET_FRAME_DECODE: check and decode one frame of a node's stream for a core. Prefetch opens no fault (R87, R98, R100). -/
def facetDecode (s : State) (core lid node frame : Nat) : State :=
  match s.launch? lid with
  | none => s
  | some l =>
    let n := l.nodes.getD node {}
    if n.kind ≠ 1 ∨ !n.flags.testBit 2 ∨ frame * stdRawLen n.fmtB ≥ lpwRaw n ∨ !l.cores.contains core ∨ l.failed.isSome then s
    else
      match readFrame s l n frame with
      | .ok _ =>
        let tb := match readOp s l.fn l.ctx (cbField l.cb n.bP + 4 * frame) 4 with
          | .ok d => (match readOp s l.fn l.ctx (cbField l.cb n.bP + 64 * leNat d) 64 with
            | .ok h => if fieldAt h 4 1 = 2 then [cbField l.cb n.tableP + 512 * fieldAt h 5 1] else []
            | .error _ => [])
          | .error _ => []
        s.modCore core (fun k => { k with facetTables := (tb ++ k.facetTables.filter (fun x => !tb.contains x)).take 4 })
      | .error (.facet k f) => facetFail s core lid node n k f
      | .error _ => s

def execFacetFrameDecode (c : CoreId) (launch : W32) (node : Fin 4096) (frame : W32) (s : State) : Host.Outcome State Fault Refusal :=
  doneKeep s (facetDecode s c.val launch.toNat node.val frame.toNat)

/- Relay at the destination and on the way (R230–R233). -/

def relaySegLen (type : Nat) : Nat := if type = 2 then 64 else 32

/-- A partial as a Relay packet carries it: BF16 partials are rounded to BF16 (R230). -/
def relayVal (type : Nat) (a : Acc) : Acc :=
  if type = 2 then
    match a with
    | .fp (some w) => .fp (some (toF32 .rne (elemVal .bf16 (convertTo .bf16 .rne .default 0 (f32 w)).1)))
    | a => a
  else match a with
    | .fp none => .fp (some 0)
    | a => a

/-- A packet as it leaves a router or the contributor (R230). -/
def relayOut (type : Nat) (p : RelayPkt) : RelayPkt := { p with vals := p.vals.map (relayVal type) }

/-- One addition of two partials of a group; BF16 sums are rounded at the router's output, and once at the sink
(R230; DEDUCED, log 151). -/
def relayAdd (type : Nat) (a b : Acc) : Acc := if type = 2 then accJoin a b else relayVal type (accJoin a b)

def relayJoin (type : Nat) (p q : RelayPkt) (level idx : Nat) : RelayPkt :=
  { p with count := p.count + q.count, level := level, idx := idx, vals := p.vals.zipWith (relayAdd type) q.vals }

/-- Nodes at a level of a group's tree (R232). -/
def treeWidth (n level : Nat) : Nat := ceilDiv n (2 ^ level)

/-- A node without a sibling is the same node one level up (R232); by fuel of one level each. -/
def promote (n : Nat) : Nat → RelayPkt → RelayPkt
  | 0, p => p
  | f + 1, p =>
    let m := treeWidth n p.level
    if m > 1 ∧ m % 2 = 1 ∧ p.idx = m - 1 then promote n f { p with level := p.level + 1, idx := p.idx / 2 } else p

/-- Put a tree node among those held, combining siblings as far as they go. -/
def treeInsert (type n : Nat) : Nat → RelayPkt → List RelayPkt → List RelayPkt
  | 0, p, held => p :: held
  | f + 1, p, held =>
    let p := promote n 13 p
    match held.find? (fun q => q.level = p.level ∧ q.idx / 2 = p.idx / 2 ∧ q.idx ≠ p.idx) with
    | none => p :: held
    | some q =>
      let (a, b) := if q.idx < p.idx then (q, p) else (p, q)
      treeInsert type n f (relayJoin type a b (p.level + 1) (p.idx / 2)) (held.filter (fun x => !(x.level = q.level ∧ x.idx = q.idx)))

/-- Combine the packets a router holds for one segment (R232). -/
def relayCombine (g : RelayGroup) (ps : List RelayPkt) : List RelayPkt :=
  if g.tree then (ps.foldl (fun held p => treeInsert g.type g.n 13 p held) []).reverse
  else
    match ps with
    | [] => []
    | p :: t => [t.foldl (fun a q => relayJoin g.type a q 0 0) p]

/-- Whether a combined segment is complete at the destination (R232). -/
def relayComplete (g : RelayGroup) : List RelayPkt → Bool
  | [p] => if g.tree then decide (treeWidth g.n (promote g.n 13 p).level = 1) else decide (p.count ≥ g.n)
  | _ => false

def holdOf (s : State) (r group block seg : Nat) : List RelayPkt :=
  ((s.net.holds.find? (fun h => h.router = r && (match h.pkts with
    | p :: _ => p.group = group && p.block = block && p.seg = seg
    | [] => false))).map (·.pkts)).getD []

def setHold (s : State) (r group block seg : Nat) (ps : List RelayPkt) : State :=
  let rest := s.net.holds.filter (fun h => !(h.router = r && (match h.pkts with
    | p :: _ => p.group = group && p.block = block && p.seg = seg
    | [] => true)))
  { s with net := { s.net with holds := if ps = [] then rest else rest ++ [{ router := r, pkts := ps }] } }

/-- A block's tile at the destination, for its output. -/
def relayTile (n : Node) (b : Nat) : Tile := { mBlock := b / ceilDiv n.n 64, nBlock := b % ceilDiv n.n 64 }

/-- Bytes of a segment of partials on the wire: EX96, FP32 or BF16 (R230). -/
def segBytes (type : Nat) (vals : List Acc) : List Byte :=
  vals.flatMap (fun a => match a with
    | .exact _ _ _ _ => natLe 12 (ex96Of a)
    | .fp v => if type = 2 then natLe 2 ((v.getD 0).toNat / 65536) else natLe 4 (v.getD 0).toNat)

/-- The number of a segment of a block in a peer group's frames (R378; DEDUCED, log 18). -/
def segNumber (block seg : Nat) : Nat := block * 128 + seg

/-- The RELAY frame of a combined packet (R378, R389). -/
def relayFrameOf (s : State) (g : RelayGroup) (block : Nat) (p : RelayPkt) : Frame :=
  { type := 0x10, vc := 2, src := s.talko.devId, tag := if g.tree then p.idx else p.count, addr := g.peer + g.inst * 2 ^ 32,
    aux := segNumber block p.seg + g.type * 2 ^ 32 + b2n g.tree * 2 ^ 40 + p.level * 2 ^ 41, payload := segBytes g.type p.vals }

/-- Put a frame behind those that wait on a port (R380). -/
def portSend (s : State) (port : Nat) (f : Frame) : State :=
  let x := (look s.talko.ports port).getD {}
  { s with talko := { s.talko with ports := put s.talko.ports port { x with queue := x.queue ++ [f] } } }

/-- A RELAY_DONE to each member that sent partials, once every block of the group is written (R389). -/
def relayDoneSend (s : State) (gk : Nat) : State :=
  match look s.net.groups gk with
  | none => s
  | some g =>
    if g.peer = 0 ∨ !g.root then s
    else g.members.foldl (fun s m => portSend s m.1
      { type := 0x11, vc := 3, dst := m.2, src := s.talko.devId, addr := g.peer + g.inst * 2 ^ 32 }) s

/-- A non-root member sends a block's segments to the root once its own contributions are in (R389). -/
def relayEgress (s : State) (gk : Nat) (g : RelayGroup) (block : Nat) (segs : List (List RelayPkt)) : State :=
  if segs.all (fun ps => decide (ps.foldl (fun a p => a + p.count) 0 ≥ g.loc)) then
    let s := segs.flatten.foldl (fun s p => portSend s g.egress (relayFrameOf s g block (relayOut g.type p))) s
    (List.range segs.length).foldl (fun s q => setHold s (groupDest g) gk block q []) s
  else s

/-- The destination writes a block once every segment of it is complete; a non-root member of a peer group sends it on
instead (R232, R389). -/
def relayWrite (s : State) (gk block : Nat) : State :=
  match look s.net.groups gk with
  | none => s
  | some g =>
    match s.launch? g.launch with
    | none => s
    | some l =>
      let n := l.nodes.getD g.node {}
      let t := relayTile n block
      let count := blockRows n t * blockCols n t
      let segs := (List.range (ceilDiv count (relaySegLen g.type))).map (fun q => holdOf s (groupDest g) gk block q)
      if !g.root then relayEgress s gk g block segs
      else if segs.all (relayComplete g) then
        let accs := segs.flatMap (fun ps => (relayOut g.type (ps.headD {})).vals)
        match writeOut s l n t accs with
        | .ok (s, fl) =>
          let s := s.modLaunch g.launch (fun l => { l with nsw := l.nsw ||| fl })
          let s := (List.range segs.length).foldl (fun s q => setHold s (groupDest g) gk block q []) s
          let g := { g with written := g.written ++ [block] }
          let s := { s with net := { s.net with groups := put s.net.groups gk g } }
          let s := if g.written.length = nodeBlocks n then relayDoneSend s gk else s
          let s := (List.range segs.length).foldl (fun s q =>
            traceEv s (groupDest g) 0xFF 10 g.launch (gk % 65536 + 2 ^ 16 * segNumber block q + 2 ^ 48) 0) s
          partDone s g.launch g.node
        | .error (.walk va w r) => blockOn s l.fn l.ctx va w r (.coreUnit (groupDest g))
        | .error (.poison a) => failLaunch s g.launch (memErr s a)
        | .error (.facet _ _) => s
      else s

/-- A Relay packet arrives at a router: it is held and combined where the router has an entry, else it passes on; at the
destination it reaches the sink (R232). `last` forwards what is held although contributions are missing (RELAY_WAIT). -/
def relayForward (s : State) (r gk block seg : Nat) (g : RelayGroup) (last : Bool) : State :=
  let ps := relayCombine g (holdOf s r gk block seg)
  if r = groupDest g then relayWrite (setHold s r gk block seg ps) gk block
  else
    let have_ := ps.foldl (fun a p => a + p.count) 0
    if last ∨ have_ ≥ expectedAt g r ∨ !g.entries.contains r then
      let s := setHold s r gk block seg []
      { s with net := { s.net with pkts := s.net.pkts ++ ps.map (fun p => (nextHop r (groupDest g), relayOut g.type p)) } }
    else setHold s r gk block seg ps

def relayArrive (s : State) (r gk block seg : Nat) : State :=
  match s.net.pkts.find? (fun p => p.1 = r && p.2.group = gk && p.2.block = block && p.2.seg = seg) with
  | none => s
  | some (_, p) =>
    let s := { s with net := { s.net with pkts := s.net.pkts.erase (r, p) } }
    match look s.net.groups gk with
    | none => { s with net := { s.net with relayDiscards := s.net.relayDiscards + 1 } }
    | some g => relayForward (setHold s r gk block seg (holdOf s r gk block seg ++ [p])) r gk block seg g false

/-- A contributor sends each segment of its tile's block once (R233). -/
def relaySend (s : State) (core : Nat) (gk : Nat) (g : RelayGroup) (block j : Nat) (accs : List Acc) : State :=
  let k := relaySegLen g.type
  let pkts := (List.range (ceilDiv accs.length k)).map (fun q =>
    (core, ({ group := gk, block := block, seg := q, idx := g.base + j, vals := ((accs.drop (q * k)).take k).map (relayVal g.type) } : RelayPkt)))
  let s := pkts.foldl (fun s p => traceEv s core 0xFF 10 g.launch (gk % 65536 + 2 ^ 16 * segNumber block p.2.seg) 0) s
  { s with net := { s.net with
    pkts := s.net.pkts ++ pkts
    groups := put s.net.groups gk { g with sent := g.sent ++ [(core, j)] } } }

end Sys2Proof.Machine
end

