-- ==== Sys2Proof/Machine/Cores.lean ====
section
/-! DEFINITION. The core sequencer: pulls, claims, K-splits, chunk boundaries, completion, cross-core stealing, and
switches (R78, R86–R97). -/

namespace Sys2Proof.Machine

/-- Whether an engine pulls tiles: it passed BIST, runs no resident task, and is not in a replay
(R301, R315, R515). -/
def canPull (s : State) (e : Nat) : Bool :=
  (s.core (engCore e)).engOk.toNat.testBit (engIdx e) && (engTask s e).isNone && !(s.eng e).replaying
    && decide (s.pow.ref ≠ .lost) && !s.pow.tripped
    && (s.eng e).hangReason = 0 && (s.coreVd (engCore e)).isSome

/-- An engine that has work again leaves Glide (R433). -/
def leaveGlide (x : Eng) : Eng := { x with glide := none }

/-- An engine starts the oldest tile of its private queue (R87). -/
def startTile (s : State) (e : Nat) : State :=
  let x := s.eng e
  match x.run, x.queue with
  | none, t :: q =>
    match s.launch? t.launch with
    | none => s.setEng e { x with queue := q }
    | some l =>
      let n := l.nodes.getD t.node {}
      let s := s.setEng e { leaveGlide x with queue := q, run := some {
        tile := t
        chunk := min t.kEnd (t.kBegin + 256)
        done := t.kBegin
        accs := if t.matrix then freshAccs l n t else [] } }
      let s := if x.glide.isSome then traceEng s e 5 0 0 0 else s
      traceEng s e 0 t.launch (tileArg0 t) (tileArg1 t)
  | _, _ => s

/-- ENGINE_PULL: the arbiter serves one pull, in rotation after the engine served last (R87). -/
def enginePull (s : State) (c : Nat) (wants : BitVec 8) : State :=
  let k := s.core c
  let order := (List.range 8).map (fun i => (k.lastPull + 1 + i) % 8)
  match k.tq, order.find? (fun i => wants.toNat.testBit i && canPull s (8 * c + i) && decide ((s.eng (8 * c + i)).queue.length < 4)) with
  | t :: q, some i =>
    let s := s.setCore c (feedCore { k with tq := q, lastPull := i })
    startTile (s.modEng (8 * c + i) (fun e => { e with queue := e.queue ++ [t], claimWait := false })) (8 * c + i)
  | _, _ => s

def execEnginePull (c : CoreId) (wants : BitVec 8) (s : State) : Host.Outcome State Fault Refusal :=
  doneKeep s (enginePull s c.val wants)

/- Stealing within a core (R90–R92). -/

/-- The sibling with the most unstarted tiles among those that hold one that is not PINNED; ties go low (R90). -/
def stealFrom (s : State) (e : Nat) : Option Nat :=
  (coreEngs (engCore e)).foldl (fun best v =>
    let q := (s.eng v).queue
    if v = e ∨ !q.any (fun t => !t.pinned) then best
    else match best with
      | none => some v
      | some b => if q.length > (s.eng b).queue.length then some v else best) none

/-- The newest tile of a queue that is not PINNED, and the queue without it. -/
def takeNewest (q : List Tile) : Option (Tile × List Tile) :=
  match q.reverse.find? (fun t => !t.pinned) with
  | none => none
  | some t => some (t, (q.reverse.erase t).reverse)

/-- Whether a running tile may be K-split now (R91, R92). -/
def splittable (s : State) (v : Nat) : Bool :=
  match (s.eng v).run with
  | none => false
  | some r =>
    r.tile.matrix && !r.tile.pinned && !r.tile.noKsplit && !r.tile.canon && r.stalled.isNone && !r.combined
      && (s.eng v).hangReason = 0
      && decide (r.tile.kEnd - r.chunk ≥ 256 * (s.core (engCore v)).ksplitMin ∧ r.tile.kEnd > r.chunk)

/-- The running tile with the greatest K_END − b; ties go to the lowest engine (R92). -/
def splitVictim (s : State) (c e : Nat) : Option Nat :=
  let left (v : Nat) : Nat := match (s.eng v).run with | some r => r.tile.kEnd - r.chunk | none => 0
  (coreEngs c).foldl (fun best v =>
    if v = e ∨ !splittable s v then best
    else match best with
      | none => some v
      | some b => if left v > left b then some v else best) none

/-- The split point s = b + 256 × ceil((K_END − b) / 512) (R92). -/
def splitPoint (b kEnd : Nat) : Nat := b + 256 * ceilDiv (kEnd - b) 512

/-- K-split a running tile for a thief (R92). -/
def ksplit (s : State) (v e slot : Nat) : State :=
  match (s.eng v).run with
  | none => s
  | some r =>
    let c := engCore v
    let sp := splitPoint r.chunk r.tile.kEnd
    let t : Tile := { r.tile with kBegin := sp, slot := slot }
    let s := s.modEng v (fun x => { x with run := some { r with
      tile := { r.tile with kEnd := sp }, thieves := r.thieves ++ [{ slot := slot, split := sp, oldEnd := r.tile.kEnd, eng := e }] } })
    let s := s.modCore c (fun k => { k with
      slots := putD k.slots slot { used := true, launch := r.tile.launch } {}, ksplits := satAdd 16 k.ksplits 1 })
    let s := traceEng s e 3 r.tile.launch (engIdx v + 2 ^ 8 * slot + 2 ^ 32 * sp) r.tile.kEnd
    startTile (s.modEng e (fun x => { x with queue := [t], claimWait := false })) e

/-- An idle engine claims work (R90). -/
def claim (s : State) (e : Nat) : State :=
  let c := engCore e
  let k := s.core c
  if (s.eng e).queue ≠ [] ∨ (s.eng e).run.isSome ∨ !canPull s e ∨ k.tq ≠ [] then s
  else
    match if k.engStealEn then stealFrom s e else none with
    | some v =>
      match takeNewest (s.eng v).queue with
      | some (t, q) =>
        let s := s.modEng v (fun x => { x with queue := q })
        let s := traceEng (s.modCore c (fun k => { k with engSteals := satAdd 16 k.engSteals 1 })) e 2 t.launch (engIdx v) 0
        startTile (s.modEng e (fun x => { x with queue := [t], claimWait := false })) e
      | none => s
    | none =>
      match (if k.ksplitEn then splitVictim s c e else none), (List.range 8).find? (fun i => !(lookD k.slots i {}).used) with
      | some v, some slot => ksplit s v e slot
      | _, _ => s.modEng e (fun x => { x with claimWait := true })

def execIdleClaim (e : EngId) (s : State) : Host.Outcome State Fault Refusal := doneKeep s (claim s e.val)

def execClaimRetryExpiry (e : EngId) (s : State) : Host.Outcome State Fault Refusal :=
  if (s.eng e.val).claimWait then doneKeep s (claim (s.modEng e.val (fun x => { x with claimWait := false })) e.val)
  else doneKeep s s

/- A tile's course. -/

/-- CHUNK_BOUNDARY: the chunk being computed ends; the engine then reads K_END through the arbiter (R92). -/
def chunkBoundary (s : State) (e : Nat) : State :=
  match (s.eng e).run with
  | none => s
  | some r =>
    match s.launch? r.tile.launch with
    | none => s
    | some l =>
      let n := l.nodes.getD r.tile.node {}
      if !r.tile.matrix ∨ r.stalled.isSome then s
      else if r.done ≥ r.chunk then
        -- a range that a reset thief gave back (R97)
        match r.thieves.find? (fun t => t.slot = 0xFF) with
        | none => s
        | some t =>
          match tileAccs s l n r.tile r.accs t.split t.oldEnd with
          | .error x => engineStop s e l r n x
          | .ok (accs, fl) => s.modEng e (fun x => raiseNsw { x with run := some { r with accs := accs, thieves := r.thieves.erase t } } fl)
      else
        -- a canonical reduction is summed once over its whole range, when it is complete (R64)
        let canon := decide (accModeOf n l.figures = .canon)
        let res := if canon then (if r.chunk = r.tile.kEnd then tileAccs s l n r.tile r.accs r.tile.kBegin r.chunk else .ok (r.accs, 0))
          else tileAccs s l n r.tile r.accs r.done r.chunk
        match res with
        | .error x => engineStop s e l r n x
        | .ok (accs, fl) =>
          let C := blockCols n r.tile
          let s := (List.range (blockRows n r.tile)).foldl (fun s i =>
            countAc s l.fn l.ctx false (cbField l.cb n.aP + (64 * r.tile.mBlock + i) * n.lda + rowLen n.fmtA r.done)
              (rowLen n.fmtA r.chunk - rowLen n.fmtA r.done)) s
          let s := if n.flags.testBit 2 then s else (List.range C).foldl (fun s j =>
            countAc s l.fn l.ctx false (cbField l.cb n.bP + (64 * r.tile.nBlock + j) * n.ldb + rowLen n.fmtB r.done)
              (rowLen n.fmtB r.chunk - rowLen n.fmtB r.done)) s
          let s := s.modLaunch r.tile.launch (fun l => { l with nsw := l.nsw ||| fl })
          s.modEng e (fun x => raiseNsw { x with run := some { r with
            done := r.chunk, accs := accs, chunk := min r.tile.kEnd (r.chunk + 256) } } fl)

def execChunkBoundary (e : EngId) (s : State) : Host.Outcome State Fault Refusal := doneKeep s (chunkBoundary s e.val)

/-- The engine that finished its tile goes on with its private queue. -/
def engineFree (s : State) (e : Nat) : State :=
  let s := match (s.eng e).run with
    | some r => traceEng s e 1 r.tile.launch (tileArg0 r.tile) (tileArg1 r.tile)
    | none => s
  startTile (s.modEng e (fun x => { x with run := none })) e

/-- A tile counts towards its launch at the origin: at once on its own core, else by TILE_DONE (R89, R96). -/
def countTile (s : State) (core : Nat) (l : Launch) (t : Tile) : State :=
  let s := modSet s l.fn l.ctx (fun c => { c with tiles := (c.tiles + 1) % 2 ^ 64 })
  if t.origin = core then partDone s t.launch t.node
  else { s with xmsgs := s.xmsgs ++ [.done core t.origin t] }

/-- Write a finished tile's block, or send its Relay segments (R63, R233). -/
def finishBlock (s : State) (e : Nat) (l : Launch) (n : Node) (r : RunTile) : Except OpStop State :=
  if r.tile.relay then
    match nodeRelay l n, l.relayed[n.relay]? with
    | some g, some gk =>
      match look s.net.groups gk with
      | some grp => .ok (relaySend s (engCore e) gk grp (r.tile.mBlock * ceilDiv n.n 64 + r.tile.nBlock) (r.tile.kBegin / g.ks) r.accs)
      | none => .ok s
    | _, _ => .ok s
  else
    match writeOut s l n r.tile r.accs with
    | .ok (s, fl) =>
      .ok ((s.modLaunch r.tile.launch (fun l => { l with nsw := l.nsw ||| fl })).modEng e (fun x => raiseNsw x fl))
    | .error x => .error x

/-- PARTIAL_COMBINE: at its K_END, with every thief's slot ready, a victim combines the partials in ascending order of
their split points, frees the slots and, unless it is a thief itself, converts once (R93). -/
def partialCombine (s : State) (e : Nat) : State :=
  match (s.eng e).run with
  | none => s
  | some r =>
    match s.launch? r.tile.launch with
    | none => s
    | some l =>
      let k := s.core (engCore e)
      if r.done < r.tile.kEnd ∨ r.thieves = [] ∨ r.stalled.isSome ∨ r.thieves.any (fun t => t.slot = 0xFF || !(lookD k.slots t.slot {}).ready) then s
      else
        let n := l.nodes.getD r.tile.node {}
        let ts := r.thieves.mergeSort (fun a b => a.split ≤ b.split)
        let accs := ts.foldl (fun a t => a.zipWith accJoin (lookD k.slots t.slot {}).accs) r.accs
        let s := s.modCore (engCore e) (fun k => { k with slots := ts.foldl (fun m t => del m t.slot) k.slots })
        let r := { r with accs := accs, thieves := [] }
        let s := s.modEng e (fun x => { x with run := some r })
        if r.tile.slot ≠ 0xFF then s
        else
          match finishBlock s e l n r with
          | .ok s => s.modEng e (fun x => { x with run := some { r with combined := true } })
          | .error x => engineStop s e l r n x

def execPartialCombine (e : EngId) (s : State) : Host.Outcome State Fault Refusal := doneKeep s (partialCombine s e.val)

/-- TILE_COMPLETE: a thief of a K-split writes its partial to its slot; any other tile writes its output, unless a
combine already did, and counts (R89, R93). -/
def tileComplete (s : State) (e : Nat) : State :=
  match (s.eng e).run with
  | none => s
  | some r =>
    match s.launch? r.tile.launch with
    | none => engineFree s e
    | some l =>
      let n := l.nodes.getD r.tile.node {}
      let core := engCore e
      if r.stalled.isSome ∨ r.thieves ≠ [] ∨ (r.tile.matrix ∧ r.done < r.tile.kEnd) then s
      else if r.tile.slot ≠ 0xFF then
        let s := s.modCore core (fun k => { k with
          slots := putD k.slots r.tile.slot { used := true, ready := true, launch := r.tile.launch, accs := r.accs } {} })
        engineFree s e
      else if !r.tile.matrix ∨ r.combined then settleLaunch (countTile (engineFree s e) core l r.tile) r.tile.launch
      else
        match finishBlock s e l n r with
        | .ok s => settleLaunch (countTile (engineFree s e) core l r.tile) r.tile.launch
        | .error x => engineStop s e l r n x

/-- TILE_COMPLETE; a replayed tile ends by REPLAY_TILE_DONE. -/
def execTileComplete (e : EngId) (s : State) : Host.Outcome State Fault Refusal :=
  doneKeep s (if (s.eng e.val).replaying then s else tileComplete s e.val)

/- Stealing across cores (R95, R96). -/

/-- Whether a neighbour may be asked: same VD, same lane or none, and no hot spare (R95). -/
def xEligible (s : State) (c v : Nat) : Bool :=
  match s.coreVd c, s.coreVd v with
  | some a, some b => decide (a = b) && decide (s.cgLane a (coreCg c) = s.cgLane a (coreCg v)) && !(s.vd a).spares.contains (coreCg v)
      && !cgBit s.pool.cgFenced (coreCg v)
  | _, _ => false

/-- A core whose engines are all idle and whose tile queue is empty. -/
def fullyIdle (s : State) (c : Nat) : Bool :=
  (s.core c).tq = [] && (coreEngs c).all (fun e => (s.eng e).run.isNone && (s.eng e).queue = [])

/-- Whether a core is held idle as a hot spare: it then asks for no tiles either (R95, R249; DEDUCED, log 16). -/
def heldIdle (s : State) (c : Nat) : Bool :=
  match s.coreVd c with
  | some v => (s.vd v).spares.contains (coreCg c)
  | none => false

/-- The next neighbour to ask: in rotation after the last that granted, not yet denied (R95). -/
def nextVictim (s : State) (c : Nat) : Option Nat :=
  let k := s.core c
  ((List.range 4).map (fun i => (k.xlast + 1 + i) % 4)).findSome? (fun d =>
    match neighbour c d with
    | some v => if xEligible s c v && !k.xdenied.contains v then some v else none
    | none => none)

def xcoreRequest (s : State) (c : Nat) : State :=
  let k := s.core c
  if !k.xcoreEn ∨ heldIdle s c ∨ !fullyIdle s c ∨ k.xreq ≠ .none ∨ k.st = .switching ∨ k.st = .reset then s
  else
    match nextVictim s c with
    | some v => { s.setCore c { k with xreq := .asked v } with xmsgs := s.xmsgs ++ [.request c v] }
    | none => if k.xdenied = [] then s else s.setCore c { k with xreq := .backoff }

def execXcoreRequest (c : CoreId) (s : State) : Host.Outcome State Fault Refusal := doneKeep s (xcoreRequest s c.val)

/-- The number of tiles a victim grants (R96). -/
def grantCount (k : Core) : Nat :=
  let un := (k.tq.filter (fun t => !t.relay)).length
  min k.xcoreMax ((un - k.xcoreKeep) / 2)

/-- The newest `n` tiles of a queue that may leave the core: neither PINNED nor Relay contributors (R91; DEDUCED, log 16). -/
def takeGrant (n : Nat) (q : List Tile) : List Tile := ((q.reverse.filter (fun t => !t.pinned && !t.relay)).take n).reverse

/-- Record at the origin that a tile now belongs to a thief (R96, R97). -/
def noteGrant (s : State) (thief : Nat) (t : Tile) : State :=
  s.modCore t.origin (fun k => { k with granted := k.granted.filter (fun p => p.2 ≠ t) ++ [(thief, t)] })

def xcoreAnswer (s : State) (v th : Nat) : State :=
  let m : XMsg := .request th v
  if !s.xmsgs.contains m then s
  else
    let s := { s with xmsgs := s.xmsgs.erase m }
    let k := s.core v
    let ts := takeGrant (grantCount k) k.tq
    if !k.xcoreEn ∨ k.st = .switching ∨ k.st = .reset ∨ grantCount k < 1 ∨ ts = [] then
      { s with xmsgs := s.xmsgs ++ [.deny th v] }
    else
      let s := s.setCore v (feedCore { k with tq := k.tq.filter (fun t => !ts.contains t), xcoreIn := satAdd 16 k.xcoreIn ts.length })
      let s := ts.foldl (fun s t => noteGrant s th t) s
      let s := traceEv s v 0xFF 4 0 (th % 256 + 2 ^ 8 * ts.length + 2 ^ 16) 0
      { s with xmsgs := s.xmsgs ++ [.grant th v ts] }

def execXcoreRequestReceived (victim thief : CoreId) (s : State) : Host.Outcome State Fault Refusal :=
  doneKeep s (xcoreAnswer s victim.val thief.val)

/-- The direction of a neighbour. -/
def dirOf (c v : Nat) : Nat := ((List.range 4).find? (fun d => neighbour c d = some v)).getD 3

def xcoreGrant (s : State) (th v : Nat) : State :=
  match s.xmsgs.findSome? (fun m => match m with
    | .grant a b ts => if a = th ∧ b = v then some ts else none
    | _ => none) with
  | none => s
  | some ts =>
    let s := { s with xmsgs := s.xmsgs.erase (.grant th v ts) }
    let s := s.modCore th (fun k => { k with
      xreq := .none, xdenied := [], xlast := dirOf th v, xcoreOut := satAdd 16 k.xcoreOut ts.length })
    pushTiles (traceEv s th 0xFF 4 0 (v % 256 + 2 ^ 8 * ts.length) 0) th ts

def execXcoreGrantReceived (thief victim : CoreId) (s : State) : Host.Outcome State Fault Refusal :=
  doneKeep s (xcoreGrant s thief.val victim.val)

/-- A request counts as denied: the thief may ask the next neighbour (R96). -/
def denied (s : State) (th v : Nat) : State :=
  s.modCore th (fun k => if k.xreq = .asked v then { k with xreq := .none, xdenied := k.xdenied ++ [v] } else k)

def execXcoreDenyReceived (thief victim : CoreId) (s : State) : Host.Outcome State Fault Refusal :=
  let m : XMsg := .deny thief.val victim.val
  if s.xmsgs.contains m then doneKeep s (denied { s with xmsgs := s.xmsgs.erase m } thief.val victim.val) else doneKeep s s

def execXcoreTimeout (c : CoreId) (s : State) : Host.Outcome State Fault Refusal :=
  match (s.core c.val).xreq with
  | .asked v => doneKeep s (denied s c.val v)
  | _ => doneKeep s s

def execXcoreBackoffExpiry (c : CoreId) (s : State) : Host.Outcome State Fault Refusal :=
  doneKeep s (s.modCore c.val (fun k => if k.xreq = .backoff then { k with xreq := .none, xdenied := [] } else k))

/-- TILE_DONE reaches the origin (R96). -/
def tileDone (s : State) (o : Nat) : State :=
  match s.xmsgs.findSome? (fun m => match m with
    | .done th q t => if q = o then some (th, t) else none
    | _ => none) with
  | none => s
  | some (th, t) =>
    let s := { s with xmsgs := s.xmsgs.erase (.done th o t) }
    if (s.core o).granted.contains (th, t) then
      partDone (s.modCore o (fun k => { k with granted := k.granted.erase (th, t) })) t.launch t.node
    else s

def execTileDone (origin : CoreId) (s : State) : Host.Outcome State Fault Refusal := doneKeep s (tileDone s origin.val)

/-- A thief core's reset notice: the origin re-issues every tile it granted there and holds no TILE_DONE for (R97). -/
def resetNotice (s : State) (o th : Nat) : State :=
  let m : XMsg := .resetNotice th o
  if !s.xmsgs.contains m then s
  else
    let s := { s with xmsgs := s.xmsgs.erase m }
    let ts := ((s.core o).granted.filter (fun p => p.1 = th)).map (·.2)
    pushTiles (s.modCore o (fun k => { k with granted := k.granted.filter (fun p => p.1 ≠ th) })) o ts

def execResetNotice (origin thief : CoreId) (s : State) : Host.Outcome State Fault Refusal :=
  doneKeep s (resetNotice s origin.val thief.val)

/- Engine resets and switches. -/

/-- Architectural state of an engine after a clear (R78). -/
def clearEng (e : Eng) : Eng := { e with vregs := [], masks := [], sregs := [], cvt := {}, atBarrier := false }

/-- Whether a contributor has sent segments of a group that is not yet complete (R233). -/
def sentByEngine (s : State) (core lid : Nat) : Bool :=
  s.net.groups.any (fun p => p.2.launch = lid && p.2.sent.any (fun q => q.1 = core))

/-- A running tile as it restarts from K_BEGIN: its K range is whole again (R506). -/
def restartTile (r : RunTile) : Tile :=
  { r.tile with kEnd := r.thieves.foldl (fun (m : Nat) (t : Thief) => max m t.oldEnd) r.tile.kEnd }

/-- Stop the thieves of a tile that restarts: it computes their ranges again, and their slots free. -/
def stopThieves (s : State) (c e : Nat) (ts : List Thief) : State :=
  let s := s.modCore c (fun k => { k with slots := ts.foldl (fun m t => del m t.slot) k.slots })
  (coreEngs c).foldl (fun s i =>
    match (s.eng i).run with
    | some q => if i ≠ e ∧ ts.any (fun t => t.slot = q.tile.slot) then s.modEng i (fun y => { y with run := none }) else s
    | none => s) s

/-- The victim of a thief that was reset computes [s, old K_END) itself (R97). -/
def handBack (s : State) (c slot : Nat) : State :=
  let s := s.modCore c (fun k => { k with slots := del k.slots slot })
  (coreEngs c).foldl (fun s i =>
    match (s.eng i).run with
    | some q => s.modEng i (fun y => { y with run := some { q with
        thieves := q.thieves.map (fun t => if t.slot = slot then { t with slot := 0xFF } else t) } })
    | none => s) s

/-- An engine reset: the engine stops and is cleared; its queued tiles return to the head of the tile queue, its running
tile restarts from K_BEGIN, and a K-split thief tile is recomputed by its victim (R97, R506). -/
def resetEngine (s : State) (e : Nat) : State :=
  let c := engCore e
  let x := s.eng e
  let (s, back) : State × List Tile :=
    match x.run with
    | none => (s, [])
    | some r =>
      let s := stopThieves s c e r.thieves
      if r.tile.slot = 0xFF then (s, [restartTile r]) else (handBack s c r.tile.slot, [])
  let s := s.modEng e (fun y => { clearEng y with run := none, queue := [], claimWait := false })
  s.modCore c (fun k => { k with
    tq := (back ++ x.queue ++ k.tq).take 256
    backlog := (back ++ x.queue ++ k.tq).drop 256 ++ k.backlog })

/-- Whether no tile of the outgoing VD is left on a core. -/
def coreQuiet (s : State) (c : Nat) : Bool :=
  (s.core c).tq = [] && (s.core c).backlog = [] && (coreEngs c).all (fun e => (s.eng e).run.isNone && (s.eng e).queue = [])

end Sys2Proof.Machine
end

