-- ==== Sys2Proof/Machine/Responses.lean ====
section
/-! DEFINITION. Response rings of queue pairs, the idle handshake, and lookups of queues (R114–R123, R284–R289). -/

namespace Sys2Proof.Machine

def State.qp? (s : State) (q : Nat) : Option Qp := look s.gfe.qps q
def State.setQp (s : State) (q : Nat) (x : Qp) : State := { s with gfe := { s.gfe with qps := put s.gfe.qps q x } }
def State.modQp (s : State) (q : Nat) (f : Qp → Qp) : State := { s with gfe := { s.gfe with qps := adjust s.gfe.qps q f } }
def State.liftq? (s : State) (q : Nat) : Option LiftQ := look s.talko.liftqs q
def State.setLiftq (s : State) (q : Nat) (x : LiftQ) : State := { s with talko := { s.talko with liftqs := put s.talko.liftqs q x } }
def State.wq? (s : State) (q : Nat) : Option Wq := look s.gfe.wqs q
def State.setWq (s : State) (q : Nat) (x : Wq) : State := { s with gfe := { s.gfe with wqs := put s.gfe.wqs q x } }

/-- Whether a context is LIVE (R328). -/
def ctxLive (s : State) (fn c : Nat) : Bool :=
  match s.ctx? fn c with
  | some x => decide (x.st = .live)
  | none => false

/- Responses. -/

/-- Write one response entry with its phase and REQ_HEAD, signal its fence and raise the vector (R117, R118, R122). -/
def writeRsp (s : State) (q : Nat) (x : Qp) (r : RspEntry) : State :=
  let bs := pokeB (pokeB (sliceB r.bytes 0 128) 4 (natLe 4 (phaseOf x.rspProd x.rspLog2))) 20 (natLe 4 x.sh.head)
  let s := match writeVa s x.fn x.ctx (x.rspRing + 128 * (x.rspProd % 2 ^ x.rspLog2)) bs with
    | .ok s => s
    | .error _ => s
  let s := s.modQp q (fun y => { y with rspProd := y.rspProd + 1 })
  let s := match r.fence with
    | some (i, v) => signalFence s x.fn i v r.err
    | none => s
  raiseVector s x.fn x.vector

/-- Whether a queue pair's response ring has a slot that the host has returned (R118). -/
def rspRoom (x : Qp) : Bool := decide (x.rspProd - x.rspCons < 2 ^ x.rspLog2)

/-- Post a response, or keep it in the overflow buffer while the ring is full (R118, R123). -/
def postRsp (s : State) (q : Nat) (r : RspEntry) : State :=
  match s.qp? q with
  | none => s
  | some x => if x.overflow = [] ∧ rspRoom x then writeRsp s q x r else s.setQp q { x with overflow := x.overflow ++ [r] }

/-- Post overflowed entries while slots are free, by fuel of one entry each (R123). -/
def drainRsp : Nat → State → Nat → State
  | 0, s, _ => s
  | f + 1, s, q =>
    match s.qp? q with
    | none => s
    | some x =>
      match x.overflow with
      | [] => s
      | r :: t => if rspRoom x then drainRsp f (writeRsp (s.setQp q { x with overflow := t }) q x r) q else s

/- The handshake. -/

/-- The consumer index a ring holds after the host writes `v`: the count that is `v` modulo 2^32 at or below `prod`. -/
def consOf (prod v : Nat) : Nat := prod - (prod + 2 ^ 32 - v % 2 ^ 32) % 2 ^ 32

/-- A producer write of `v` to an endpoint of 2^n entries: none when it overruns (R286), else TAIL, PEND and the wake
(R289). -/
def shakeWrite (n : Nat) (x : Shake) (v : Nat) : Option Shake :=
  if (v + 2 ^ 32 - x.head) % 2 ^ 32 > 2 ^ n then none
  else some { x with tail := v, pend := true, st := if x.st = .armed ∨ x.st = .idle then .active else x.st }

/-- Consume one entry; when HEAD reaches TAIL the sequence h1 to h4 ends IDLE, for no write falls inside it (R289;
DEDUCED, log 19). -/
def shakeTake (x : Shake) : Shake :=
  let h := (x.head + 1) % 2 ^ 32
  if h = x.tail then { x with head := h, pend := false, st := .idle } else { x with head := h }

/-- Entries published and not yet consumed. -/
def shakeWaiting (x : Shake) : Nat := (x.tail + 2 ^ 32 - x.head) % 2 ^ 32

end Sys2Proof.Machine
end

