-- ==== Sys2Proof/Machine/FrontEnd.lean ====
section
/-! DEFINITION. The front end: doorbells, fetching, aging, acceptance of packets, completions, and the admin ring's
enable (R283–R296, R321). -/

namespace Sys2Proof.Machine

/-- The state's name of a ring operand. -/
def refOf : RingId → RingRef
  | .admin f => .admin f.val
  | .cmd r => .cmd r.val

def countStray (s : State) (fn : Nat) : State :=
  s.modFn fn (fun x => { x with gfe := { x.gfe with stray := satAdd 16 x.gfe.stray 1 } })

def countOverrun (s : State) (fn : Nat) : State :=
  s.modFn fn (fun x => { x with gfe := { x.gfe with overruns := satAdd 16 x.gfe.overruns 1 } })

/-- A producer write to a ring (R286, R289). -/
def ringDoorbell (s : State) (r : RingRef) (v : Nat) : State :=
  match s.ring? r with
  | none => s
  | some x =>
    if x.sh.st = .error then s
    else
      match shakeWrite x.sqLog2 x.sh v with
      | some sh => s.setRing r { x with sh := sh }
      | none => ringError (countOverrun s x.fn) r 0 v

/-- A write of a ring's completion doorbell returns consumed entries (R285). -/
def ringReturn (s : State) (r : RingRef) (v : Nat) : State := s.modRing r (fun x => { x with cqCons := consOf x.cqProd v })

/-- A new tail reaches a work queue; an overrun ends its task with the cause "work queue overrun" (R314). -/
def wqTail (s : State) (w v : Nat) : State :=
  match s.wq? w with
  | none => s
  | some x =>
    if x.sh.st = .error then s
    else
      match shakeWrite x.log2 x.sh v with
      | some sh => s.setWq w { x with sh := sh }
      | none =>
        let s := countOverrun (s.setWq w { x with sh := { x.sh with st := .error } }) x.fn
        match x.task with
        | some t => endTask s t (some { cause := 0x0012, detail := natLe 2 w ++ [0, 0] ++ natLe 4 t })
        | none => s

/-- Whether an endpoint takes doorbells: its context is not being destroyed (R321). -/
def epLive (s : State) (fn : Nat) : Endpoint → Bool
  | .ringSq r | .ringCq r => match look s.gfe.rings r with | some x => ctxLive s fn x.ctx | none => false
  | .qpReq q | .qpRsp q => match s.qp? q with | some x => ctxLive s fn x.ctx | none => false
  | .liftq q => match s.liftq? q with | some x => ctxLive s fn x.ctx | none => false
  | .wq w => match s.wq? w with | some x => ctxLive s fn x.ctx | none => false

/-- A write of DB on a live endpoint's page (R285). -/
def endpointWrite (s : State) (fn v : Nat) : Endpoint → State
  | .ringSq r => ringDoorbell s (.cmd r) v
  | .ringCq r => ringReturn s (.cmd r) v
  | .qpReq q =>
    match s.qp? q with
    | none => s
    | some x =>
      if x.sh.st = .error then s
      else
        match shakeWrite x.reqLog2 x.sh v with
        | some sh => s.setQp q { x with sh := sh }
        | none => raiseVector (countOverrun (s.setQp q { x with sh := { x.sh with st := .error } }) fn) fn x.vector
  | .qpRsp q =>
    let s := s.modQp q (fun x => { x with rspCons := consOf x.rspProd v })
    drainRsp 65536 s q
  | .liftq q =>
    match s.liftq? q with
    | none => s
    | some x =>
      if x.sh.st = .error then s
      else
        match shakeWrite x.log2 x.sh v with
        | some sh => s.setLiftq q { x with sh := sh }
        | none => countOverrun (s.setLiftq q { x with sh := { x.sh with st := .error } }) fn
  | .wq w => wqTail s w v

/-- A write to a doorbell page of BAR2 (R283, R284, R248, R343). -/
def doorbell (s : State) (fn page off v : Nat) : State :=
  if (s.fn fn).resetting ∨ page = 0 ∨ (3 ≤ page ∧ page < 16) then s
  else if !(s.vd fn).live ∨ off ≠ 0 then countStray s fn
  else if page = 1 ∨ page = 2 then
    match s.ring? (.admin fn) with
    | none => countStray s fn
    | some _ => if page = 1 then ringDoorbell s (.admin fn) v else ringReturn s (.admin fn) v
  else
    match look s.gfe.pages (fn * 4096 + page) with
    | some e => if epLive s fn e then endpointWrite s fn v e else countStray s fn
    | none => countStray s fn

/-- DOORBELL_WRITE: a 32-bit write, or the low half of a 64-bit one, to an offset of a page of a function (R284). -/
def execDoorbellWrite (f : FnId) (page off : Fin 4096) (v : W32) (s : State) : Host.Outcome State Fault Refusal :=
  doneKeep s (hostGate s f.val (fun s => doorbell s f.val page.val off.val v.toNat))

/- Fetching. -/

/-- The bytes of a ring's entry slot: host memory for the admin ring, the context's memory for a command ring (R287). -/
def readEntry (s : State) (r : RingRef) (x : Ring) (i : Nat) : Option (List Byte) :=
  let a := x.sqBase + 64 * (i % 2 ^ x.sqLog2)
  match r with
  | .admin _ => some (readHost s a 64)
  | .cmd _ =>
    match readVa s x.fn x.ctx a 64 with
    | .ok (bs, none) => some bs
    | _ => none

/-- Whether a ring's packets may be fetched and accepted (R286, R339, R343). -/
def ringOpen (s : State) (r : RingRef) (x : Ring) : Bool :=
  decide (x.sh.st ≠ .error) && !(s.fn x.fn).resetting && (match r with | .admin _ => true | .cmd _ => ctxLive s x.fn x.ctx)

/-- A fetched entry returns (R289); a read that fails puts the ring in ERROR (R323). -/
def ringFetch (s : State) (r : RingRef) : State :=
  match s.ring? r with
  | none => s
  | some x =>
    if !ringOpen s r x ∨ x.sh.head = x.sh.tail then s
    else
      match readEntry s r x x.sh.head with
      | none => ringError s r 1 x.sh.head
      | some b => s.setRing r { x with fetched := x.fetched ++ [b], sh := shakeTake x.sh }

def execRingFetchComplete (r : RingId) (s : State) : Host.Outcome State Fault Refusal := doneKeep s (ringFetch s (refOf r))

/-- RING_AGING_PROMOTE: a ring whose packet has been ready for 4,096 S0 cycles has priority 3 for its next acceptance
(R293). -/
def execRingAgingPromote (r : RingId) (s : State) : Host.Outcome State Fault Refusal :=
  doneKeep s (match s.ring? (refOf r) with
    | some x => if x.fetched = [] then s else s.setRing (refOf r) { x with boosted := true }
    | none => s)

def execCompletionPost (r : RingId) (s : State) : Host.Outcome State Fault Refusal := doneKeep s (postCompletion s (refOf r))

/- Packets. -/

def pktOp (b : List Byte) : Nat := fieldAt b 0 1
def pktFlag (b : List Byte) (i : Nat) : Bool := (fieldAt b 1 1).testBit i
def isWorkOp (n : Nat) : Bool := decide (n ≤ 6)
def isAdminOp (n : Nat) : Bool := decide (0x80 ≤ n ∧ n ≤ 0x95)

/-- The offset of the first check of a list that fails. -/
def firstBad : List (Nat × Bool) → Option Nat
  | [] => none
  | (o, ok) :: t => if ok then firstBad t else some o

/-- Whether a packet of a ring may signal a fence: a command ring's packets only in their context's range (R332). -/
def fenceAllowed (s : State) (r : RingRef) (x : Ring) (i : Nat) : Bool :=
  match r with
  | .admin _ => true
  | .cmd _ => match s.ctx? x.fn x.ctx with
    | some c => decide (c.fenceFirst ≤ i ∧ i < c.fenceFirst + c.fenceCount)
    | none => false

/-- The first failing field of the packet header (R290, R292, R333). -/
def headBad (s : State) (r : RingRef) (x : Ring) (b : List Byte) : Option Nat :=
  firstBad [
    (0, isWorkOp (pktOp b) || isAdminOp (pktOp b)),
    (1, fieldAt b 1 1 < 32),
    (2, pktFlag b 0 || fieldAt b 2 2 = 0),
    (4, if pktFlag b 1 then fenceAllowed s r x (fieldAt b 4 2) else fieldAt b 4 2 = 0),
    (6, fieldAt b 6 2 = 0),
    (16, fieldAt b 16 8 ≠ errValue),
    (28, fieldAt b 28 4 = 0)]

/-- Whether the reserved bytes [lo, lo + n) of a packet or descriptor are zero. -/
def resZero (b : List Byte) (lo n : Nat) : Bool := allZero (sliceB b lo n)

/-- What running an accepted packet comes to. -/
inductive PktOut where
  | wait
  | running (s : State)
  | ends (s : State) (status result detail : Nat) (err : Option ErrRec)

/-- The priority a ring is served at (R293). -/
def effPrio (r : RingRef) (x : Ring) : Nat :=
  match r with
  | .admin _ => 3
  | .cmd _ => if x.boosted then 3 else x.prio

/-- Whether a VD's packets may be accepted: not HELD and not holding acceptance (R292). -/
def vdOpen (s : State) (v : Nat) : Bool := !(s.vd v).held && !(s.vd v).holdAccept && !(s.vd v).teardown

/-- The waits of R292 for a ring's next packet: WAIT, BARRIER, acceptance of the VD, a working CG (R246), and for a
launch its core set and constant-buffer slots. -/
def pktReady (s : State) (r : RingRef) (x : Ring) (b : List Byte) : Bool :=
  ringOpen s r x && vdOpen s x.fn
    && (!pktFlag b 0 || waitMet s x.fn (fieldAt b 2 2) (fieldAt b 8 8))
    && (!pktFlag b 3 || (x.inflight = [] && x.waiting = []))
    && (match r with | .admin _ => true | .cmd _ => !(s.vdWorking x.fn).isEmpty)
    && (if pktOp b = 1 ∨ pktOp b = 2 then
          !(launchCores s x.fn).isEmpty && (freeSlots s (launchCores s x.fn)).isSome
        else true)

def headReady (s : State) (r : RingRef) (x : Ring) : Bool :=
  match x.fetched with
  | b :: _ => pktReady s r x b
  | [] => false

/-- Whether a ring of higher priority has a packet ready (R293). -/
def outranked (s : State) (p : Nat) : Bool :=
  s.gfe.rings.any (fun q => decide (effPrio (.cmd q.1) q.2 > p) && headReady s (.cmd q.1) q.2)
    || s.gfe.admins.any (fun q => decide (3 > p) && headReady s (.admin q.1) q.2)

/-- Take the next packet off a ring: what its completion needs (R290, R295). -/
def takePkt (s : State) (r : RingRef) (x : Ring) (b : List Byte) (rest : List (List Byte)) : State × PktRef :=
  (s.setRing r { x with
      fetched := rest, accepted := x.accepted + 1, waitFence := none, boosted := false, inflight := x.inflight ++ [x.accepted] },
    { ring := r, opcode := pktOp b, tag := fieldAt b 24 4, cqe := pktFlag b 2,
      signal := if pktFlag b 1 then some (fieldAt b 4 2, fieldAt b 16 8) else none,
      sqHead := x.sh.head % 65536, seq := x.accepted })

/-- End a packet. A status that names no cause gives its fence the cause "field check" (DEDUCED, log 20). -/
def pktDone (s : State) (p : PktRef) (fn status result detail : Nat) (err : Option ErrRec) : State :=
  finishPkt s p fn status result detail 0 (if status = stOk then none else err.orElse (fun _ => some (fieldErr p detail)))

/-- The opcode tables name this opcode for the other kind of ring (R287). -/
def wrongRing (r : RingRef) (op : Nat) : Bool :=
  match r with
  | .admin _ => isWorkOp op
  | .cmd _ => isAdminOp op

/-- The error record of a packet whose wait ended at the error value (R291, R338). -/
def depErr (p : PktRef) (b : List Byte) : ErrRec :=
  { cause := 0x0002, source := 1, detail := natLe 2 (ringNum p.ring) ++ natLe 2 (fieldAt b 2 2) ++ natLe 4 p.tag }

/-- Take a ring's next packet where its opcode is wanted: field checks first, then waits, then acceptance (R287, R291,
R292, R293, R248; DEDUCED, log 20). -/
def runPacket (s : State) (r : RingRef) (want : Nat → Bool) (check : State → Ring → List Byte → Option Nat)
    (run : State → PktRef → Ring → List Byte → PktOut) : State :=
  match s.ring? r with
  | none => s
  | some x =>
    match x.fetched with
    | [] => s
    | b :: rest =>
      if !want (pktOp b) || !ringOpen s r x then s
      else
        let (s1, p) := takePkt s r x b rest
        if wrongRing r (pktOp b) then pktDone s1 p x.fn stNotHere 0 0 none
        else
          match (headBad s r x b).orElse (fun _ => check s x b) with
          | some off =>
            let p := if fenceAllowed s r x (fieldAt b 4 2) then p else { p with signal := none }
            pktDone s1 p x.fn stField 0 off (some (fieldErr p off))
          | none =>
            if (match r with | .admin _ => !(s.vd x.fn).live | .cmd _ => false) then pktDone s1 p x.fn stNoObject 0 0 none
            else if pktFlag b 0 && !pktFlag b 4 && decide ((s.fence x.fn (fieldAt b 2 2)).value.toNat = errValue) then
              pktDone s1 p x.fn stDepError 0 0 (some (depErr p b))
            else if pktFlag b 0 && !waitMet s x.fn (fieldAt b 2 2) (fieldAt b 8 8) then
              s.setRing r { x with waitFence := some (fieldAt b 2 2) }
            else if !pktReady s r x b || outranked s (effPrio r x) then s
            else
              match run s1 p x b with
              | .wait => s
              | .running t => t
              | .ends t st res det err => pktDone t p x.fn st res det err

/-- Discard a packet that is not accepted: its SIGNAL fence takes the error value with "ring destroyed" (R321). -/
def discardPkt (s : State) (r : RingRef) (x : Ring) (b : List Byte) : State :=
  if pktFlag b 1 && fenceAllowed s r x (fieldAt b 4 2) then
    failFence s x.fn (fieldAt b 4 2)
      { cause := 0x0003, source := 1, detail := natLe 2 (ringNum r) ++ [0, 0] ++ natLe 4 (fieldAt b 24 4) }
  else s

/-- The doorbell pages of an endpoint are free again (R285). -/
def freePages (s : State) (gone : Endpoint → Bool) : State :=
  { s with gfe := { s.gfe with pages := s.gfe.pages.filter (fun p => !gone p.2) } }

/-- Remove a ring. Unless `quiet`, its packets that are published and not accepted are discarded one by one; those
accepted finish without entries (R321, R339). -/
def destroyRingAt (s : State) (r : RingRef) (quiet : Bool) : State :=
  match s.ring? r with
  | none => s
  | some x =>
    let s := match r with
      | .cmd n => freePages { s with gfe := { s.gfe with rings := del s.gfe.rings n } }
          (fun e => decide (e = .ringSq n) || decide (e = .ringCq n))
      | .admin f => { s with gfe := { s.gfe with admins := del s.gfe.admins f } }
    -- completions that wait for room write no entry, and their fences are signalled (R295, R321)
    let s := x.waiting.foldl (fun s c => match c.signal with | some (i, v) => signalFence s x.fn i v c.err | none => s) s
    if quiet then s
    else
      let unread := (List.range (min (shakeWaiting x.sh) (2 ^ x.sqLog2))).filterMap (fun i => readEntry s r x (x.sh.head + i))
      (x.fetched ++ unread).foldl (fun s b => discardPkt s r x b) s

/- The admin ring. -/

def vectorMax (fn : Nat) : Nat := if fn = 0 then 2047 else 63

/-- A write of GFE_ADMIN_CFG (R323); setting EN makes the admin ring live and clearing it destroys the ring (R287). -/
def writeAdminCfg (s : State) (fn v : Nat) : State :=
  let sq := fld v 0 4
  let cq := fld v 4 4
  let vec := fld v 8 11
  let en := v.testBit 31
  if sq < 6 ∨ 12 < sq ∨ cq < 6 ∨ 12 < cq ∨ vec > vectorMax fn then s
  else
    let was := (s.fn fn).gfe.en
    let s := s.modFn fn (fun x => { x with gfe := { x.gfe with sqLog2 := sq, cqLog2 := cq, vector := vec, en := en } })
    if en ∧ !was then
      let g := (s.fn fn).gfe
      s.setRing (.admin fn) { fn := fn, sqLog2 := sq, cqLog2 := cq, prio := 3, vector := vec, sqBase := g.sqBase, cqBase := g.cqBase }
    else if was ∧ !en then destroyRingAt s (.admin fn) false
    else s.modRing (.admin fn) (fun x => { x with vector := vec })

/-- ADMIN_RING_ENABLE: a write of GFE_ADMIN_CFG with EN = 1. -/
def execAdminRingEnable (f : FnId) (sq cq : Fin 16) (vector : Fin 2048) (s : State) : Host.Outcome State Fault Refusal :=
  doneKeep s (hostGate s f.val (fun s => writeAdminCfg s f.val (sq.val + 16 * cq.val + 256 * vector.val + 2 ^ 31)))

/-- ADMIN_RING_DISABLE: a write of GFE_ADMIN_CFG with EN = 0. -/
def execAdminRingDisable (f : FnId) (sq cq : Fin 16) (vector : Fin 2048) (s : State) : Host.Outcome State Fault Refusal :=
  doneKeep s (hostGate s f.val (fun s => writeAdminCfg s f.val (sq.val + 16 * cq.val + 256 * vector.val)))

end Sys2Proof.Machine
end

