-- ==== Sys2Proof/Machine/Images.lean ====
section
/-! DEFINITION. Routine and program images, their checks, their stores and parameter pages (R304–R313, R567, R569). -/

namespace Sys2Proof.Machine

/- Formats of a node. -/

def isFp8 (f : Nat) : Bool := f = 0x01 || f = 0x02
/-- Formats of the 8-bit path (R49). -/
def is8 (f : Nat) : Bool := isFp8 f || decide (3 ≤ f ∧ f ≤ 6)
def isWide (f : Nat) : Bool := f = 0x08 || f = 0x09 || f = 0x0A
def isPathInt (f : Nat) : Bool := f = 0x0B || f = 0x0C
/-- Formats a MATMUL node may write (R34, R63). -/
def isOutFmt (f : Nat) : Bool := decide (1 ≤ f ∧ f ≤ 0x0C) || f = 0x12 || f = 0x13
def isIeee (f : Nat) : Bool := isFp8 f || isWide f

/-- The pairings of operands (R49, R50). -/
def pairOk (a b : Nat) : Bool :=
  (is8 a && is8 b) || ((isVqFmt b || b = 0x07) && (is8 a || a = 0x07)) || (a = 0x07 && is8 b)
    || (isPathInt a && isPathInt b) || (isWide a && a = b)

/-- The Relay types that a node's operands admit in some mode (R230). -/
def relayTypes (a : Nat) : List Nat :=
  if isPathInt a then [0] else if isWide a then (if a = 0x0A then [1] else [1, 2]) else [0, 1]

/-- A P field within its range (R305). -/
def pOk (v : Nat) : Bool := v = 0xFFFF || (v % 8 = 0 && decide (v ≤ 4088))

/-- A node of a 128-byte entry (R305). -/
def nodeOf (b : List Byte) : Node :=
  { kind := fieldAt b 0 1, flags := fieldAt b 1 1, fmtA := fieldAt b 3 1, fmtB := fieldAt b 4 1, fmtOut := fieldAt b 5 1,
    relay := fieldAt b 6 2, m := fieldAt b 8 4, n := fieldAt b 12 4, k := fieldAt b 16 4, tensor := fieldAt b 20 4,
    aP := fieldAt b 24 2, bP := fieldAt b 26 2, outP := fieldAt b 28 2, saP := fieldAt b 30 2, sbP := fieldAt b 32 2,
    tableP := fieldAt b 34 2, streamTag := fieldAt b 36 4, lda := fieldAt b 40 4, ldb := fieldAt b 44 4, ldo := fieldAt b 48 4,
    epi := fieldAt b 52 4, epiScaleP := fieldAt b 56 2, epiBiasP := fieldAt b 58 2, epiResP := fieldAt b 60 2,
    program := fieldAt b 64 2, tileElems := fieldAt b 66 2, elems := fieldAt b 68 4,
    deps := (List.range (fieldAt b 2 1)).map (fun i => fieldAt b (72 + 2 * i) 2), xferP := fieldAt b 88 2,
    nTables := fieldAt b 90 2, round := fieldAt b 92 1, ovf := fieldAt b 93 1 }

/-- The P fields of a node, each with whether the node must use it and whether it may (R305). -/
def pFields (n : Node) : List (Nat × Bool × Bool) :=
  let mm : Bool := n.kind = 1
  let lpw := n.flags.testBit 2
  let epi (i : Nat) := mm && n.flags.testBit 3 && n.epi.testBit i
  [(n.aP, mm, false), (n.bP, mm, false), (n.outP, mm, false), (n.saP, mm && isMxFmt n.fmtA, false),
   (n.sbP, mm && isMxFmt n.fmtB, mm && isVqFmt n.fmtB), (n.tableP, false, mm && lpw), (n.epiScaleP, epi 4, false),
   (n.epiBiasP, epi 5, false), (n.epiResP, epi 6, false), (n.xferP, decide (n.kind = 3), false)]

/-- The block length of a format whose blocks an LPW stride must not split (R567). -/
def fmtBlock (f : Nat) : Nat := if isMxFmt f then rowLen f 32 else if isVqFmt f then rowLen f 256 else 1

/-- The checks of a MATMUL node alone (R49, R50, R54, R63, R308, R567). -/
def matmulOk (n : Node) : Bool :=
  pairOk n.fmtA n.fmtB && isOutFmt n.fmtOut
    && (n.ovf ≠ 2 || isIeee n.fmtOut) && (n.fmtOut ≠ 0x13 || n.ovf = 0)
    && (n.fmtOut ≠ 0x13 || !(isWide n.fmtA || n.flags.testBit 3 || n.round ≠ 0))
    && decide (rowLen n.fmtA n.k ≤ n.lda) && decide (rowLen n.fmtB n.k ≤ n.ldb) && decide (rowLen n.fmtOut n.n ≤ n.ldo)
    && (!n.flags.testBit 2 || n.ldb % fmtBlock n.fmtB = 0)

/-- The checks of one node at index `i` (R305, R308). -/
def nodeOk (i : Nat) (b : List Byte) (nRelay nProg : Nat) (relays : List RelayGrp) : Bool :=
  let n := nodeOf b
  decide (1 ≤ n.kind ∧ n.kind ≤ 5) && decide (n.flags < 32) && decide (fieldAt b 2 1 ≤ 8) && resZero b 62 2 && resZero b 94 34
    && n.deps.all (fun d => decide (d < i)) && resZero b (72 + 2 * fieldAt b 2 1) (16 - 2 * fieldAt b 2 1)
    && (pFields n).all (fun p => pOk p.1 && (if p.1 = 0xFFFF then !p.2.1 else p.2.1 || p.2.2))
    && decide (n.nTables ≤ 256) && ((n.tableP ≠ 0xFFFF) == (n.nTables ≠ 0))
    && decide (n.epi < 128) && decide (n.epi % 16 ≤ 4) && (n.epi = 0 || n.flags.testBit 3)
    && decide (n.round ≤ 2) && decide (n.ovf ≤ 2) && (n.kind = 1 || (n.round = 0 && n.ovf = 0))
    && (n.relay = 0xFFFF || (n.kind = 1 && decide (n.relay < nRelay) && (relays.getD n.relay {}).node = i))
    && (n.kind ≠ 1 || matmulOk n)
    && (!(n.kind = 2 || n.kind = 4) || (decide (n.program < nProg) && decide (1 ≤ n.tileElems)))

/-- A Relay group entry (R307). -/
def relayGrpOf (b : List Byte) : RelayGrp :=
  { node := fieldAt b 0 2, n := fieldAt b 2 2, type := fieldAt b 4 1, ks := fieldAt b 8 4, peer := fieldAt b 12 4 }

/-- The checks of Relay entry `g` (R307, R308). -/
def relayOk (g : Nat) (b : List Byte) (nodes : List Node) : Bool :=
  let r := relayGrpOf b
  match nodes[r.node]? with
  | none => false
  | some n =>
    n.kind = 1 && n.relay = g && decide (2 ≤ r.n ∧ r.n ≤ 4096) && (relayTypes n.fmtA).contains r.type && resZero b 5 3
      && decide (0 < r.ks) && r.ks % 256 = 0 && r.n = ceilDiv n.k r.ks

/-- What an image gives a generation. -/
structure RoutineImage where
  nodes : List Node := []
  relays : List RelayGrp := []
  programs : List Nat := []
  params : List Byte := []
  budget : Nat := 1
  service : Bool := false

def cut (b : List Byte) (off size i : Nat) : List Byte := sliceB b (off + size * i) size

/-- Check a routine image; an error is the DETAIL of R295. `prog` says which program handles are live. -/
def parseRoutine (b : List Byte) (prog : Nat → Bool) : Except Nat RoutineImage :=
  let len := b.length
  let nn := fieldAt b 6 2
  let nr := fieldAt b 8 2
  let np := fieldAt b 10 2
  let fits (off size : Nat) : Bool := size = 0 || decide (off + size ≤ len)
  if len < 64 ∨ 2 ^ 20 < len then .error 0xFFFF
  else if !(fieldAt b 0 4 = 0x4B505254 && fieldAt b 4 2 = 1 && decide (1 ≤ nn ∧ nn ≤ 4096) && decide (nr ≤ 256)
      && decide (np ≤ 64) && decide (1 ≤ fieldAt b 12 4 ∧ fieldAt b 12 4 ≤ 65535) && decide (fieldAt b 32 4 < 2)
      && resZero b 36 28 && fits (fieldAt b 16 4) 4096 && fits (fieldAt b 20 4) (128 * nn) && fits (fieldAt b 24 4) (16 * nr)
      && fits (fieldAt b 28 4) (4 * np)) then .error 0xFFFF
  else
    let relays := (List.range nr).map (fun g => relayGrpOf (cut b (fieldAt b 24 4) 16 g))
    let nodes := (List.range nn).map (fun i => nodeOf (cut b (fieldAt b 20 4) 128 i))
    let progs := (List.range np).map (fun i => fieldAt b (fieldAt b 28 4 + 4 * i) 4)
    match (List.range nn).find? (fun i => !nodeOk i (cut b (fieldAt b 20 4) 128 i) nr np relays) with
    | some i => .error i
    | none =>
      match (List.range nr).find? (fun g => !relayOk g (cut b (fieldAt b 24 4) 16 g) nodes) with
      | some g => .error (0x8000 + g)
      | none =>
        match (List.range np).find? (fun i => !prog (progs.getD i 0)) with
        | some i => .error (0xC000 + i)
        | none => .ok {
            nodes := nodes, relays := relays, programs := progs, params := sliceB b (fieldAt b 16 4) 4096,
            budget := fieldAt b 12 4, service := (fieldAt b 32 4).testBit 0 }

/-- The checks of a program image (R313). -/
def programOk (b : List Byte) : Bool :=
  let cl := fieldAt b 8 4
  fieldAt b 0 4 = 0x4B505047 && fieldAt b 4 2 = 1 && resZero b 6 2 && decide (64 ≤ cl ∧ cl ≤ 2 ^ 20) && cl % 16 = 0
    && fieldAt b 12 4 % 16 = 0 && decide (fieldAt b 12 4 < cl) && decide (fieldAt b 16 4 ≤ 262144)
    && decide (fieldAt b 20 4 ≤ 2621440) && resZero b 24 40 && b.length = 64 + cl

/-- The Relay types of a node in the launch's mode (R230). -/
def relayTypesIn (a : Nat) (figures : Bool) : List Nat :=
  if isPathInt a then [0]
  else if isWide a then (if figures ∨ a = 0x0A then [1] else [1, 2])
  else if figures then [0] else [1]

/-- The checks of a launch at acceptance for the context's mode (R52, R61, R63, R230, R305, R388). -/
def launchOk (s : State) (vd : Nat) (nodes : List Node) (relays : List RelayGrp) (figures service : Bool) : Bool :=
  nodes.all (fun n =>
    (n.kind ≠ 4 || service)
    && (n.kind ≠ 1
      || ((!figures || n.round = 0)
        && (n.fmtOut ≠ 0x13 || figures || isPathInt n.fmtA)
        && (!((figures || isPathInt n.fmtA) && !isWide n.fmtA)
            || decide ((if blocked n then ceilDiv n.k 32 else n.k) ≤ 2 ^ 24))
        && (n.relay = 0xFFFF
            || (let r := relays.getD n.relay {}
                (relayTypesIn n.fmtA figures).contains r.type && (r.peer = 0 || (peerOf s vd r.peer).isSome))))))

/- Stores (R309, R569). -/

/-- Whether a VD is in size class XL (R249). -/
def isXl (s : State) (v : Nat) : Bool := decide ((s.vd v).cls = 3)

/-- The mirror distance of a context's stores: 0 while its VD is not XL (R309). -/
def storeDelta (s : State) (fn ctx : Nat) : Int :=
  if isXl s fn then ((s.ctx? fn ctx).map (·.mirror)).getD 0 else 0

/-- Read pieces, each from the mirror where the primary copy is poisoned. -/
def readMirrored (s : State) (fn : Nat) (delta : Int) (ps : List (Bool × Nat × Nat)) : List Byte × Option Nat :=
  ps.foldl (fun (acc : List Byte × Option Nat) p =>
    if p.1 then (acc.1 ++ readHost s p.2.1 p.2.2, acc.2)
    else
      match readDpaVd s fn p.2.1 p.2.2 with
      | (bs, none) => (acc.1 ++ bs, acc.2)
      | (bs, some a) =>
        if delta = 0 then (acc.1 ++ bs, acc.2.orElse (fun _ => some a))
        else
          match readDpaVd s fn ((p.2.1 : Int) + delta).toNat p.2.2 with
          | (bs, none) => (acc.1 ++ bs, acc.2)
          | (bs, some _) => (acc.1 ++ bs, acc.2.orElse (fun _ => some a))) ([], none)

/-- Write pieces of a store, and their mirror. -/
def writeMirrored (s : State) (fn : Nat) (delta : Int) (ps : List (Bool × Nat × Nat)) (bs : List Byte) : State :=
  let s := writePieces s fn ps bs
  if delta = 0 then s
  else writePieces s fn (ps.map (fun p => if p.1 then p else (false, ((p.2.1 : Int) + delta).toNat, p.2.2))) bs

/-- What a range check of R569 comes to. -/
inductive RangeRes where
  | ok (ps : List (Bool × Nat × Nat))
  | field
  | fail (e : ErrRec)

/-- Translate a range that must be device memory of a context. -/
def devRange (s : State) (fn ctx va n : Nat) (write : Bool) : RangeRes :=
  match rangeOf s fn ctx write va n with
  | .error r => .fail (walkErr va ctx 0 r)
  | .ok ps => if allDev ps then .ok ps else .field

/-- The size of a store for an image of `len` bytes (R309). -/
def storeSize (len : Nat) : Nat := roundUp len 65536 + 65536

/-- Translate a store for writing (R309, R569). -/
def storeRange (s : State) (fn ctx va len : Nat) : RangeRes :=
  if va % 65536 ≠ 0 ∨ va + storeSize len > 2 ^ 55 then .field else devRange s fn ctx va (storeSize len) true

/-- The VA of a generation's parameter page (R309). -/
def pageVa (g : RoutineGen) : Nat := g.store + roundUp g.len 65536

/-- Read a parameter page: a snapshot (R303, R309). -/
def readPage (s : State) (fn : Nat) (g : RoutineGen) : Except ErrRec (List Byte) :=
  match rangeOf s fn g.ctx false (pageVa g) 4096 with
  | .error r => .error (walkErr (pageVa g) g.ctx 0 r)
  | .ok ps =>
    match readMirrored s fn (storeDelta s fn g.ctx) ps with
    | (bs, none) => .ok bs
    | (_, some a) => .error { cause := 0x0006, source := 1, detail := natLe 8 a }

/-- Write bytes of a parameter page (R310). -/
def writePage (s : State) (fn : Nat) (g : RoutineGen) (off : Nat) (bs : List Byte) : Except ErrRec State :=
  match rangeOf s fn g.ctx true (pageVa g + off) bs.length with
  | .error r => .error (walkErr (pageVa g + off) g.ctx 0 r)
  | .ok ps => .ok (writeMirrored s fn (storeDelta s fn g.ctx) ps bs)

/-- The current generation of a routine handle of a function (R312). -/
def curGen (s : State) (fn h : Nat) : Option RoutineGen :=
  match look s.gfe.routines h with
  | some x => if x.fn = fn then x.cur.filter (fun g => !g.retired) else none
  | none => none

/-- Read a PARAM range (R303, R569). -/
def readParam (s : State) (fn ctx va n : Nat) : Except ErrRec (List Byte) :=
  if n = 0 then .ok []
  else
    match rangeOf s fn ctx false va n with
    | .error r => .error (walkErr va ctx 0 r)
    | .ok ps =>
      match readPieces s fn ps with
      | (bs, none) => .ok bs
      | (_, some a) => .error (memErr s a)

end Sys2Proof.Machine
end

