-- ==== Sys2Proof/Machine/Memory.lean ====
section
/-! DEFINITION. Memory controllers: reads with their errors, writes, conversions of the ECC layout, patrol scrub
(R151–R163). -/

namespace Sys2Proof.Machine

/-- A report to the manager, and to the virtual device it concerns: a kind, a unit and the VD, 64 for none. Kinds:
1 uncorrectable unit, 2 MAC failure, 3 degrading row, 4 late patrol pass, 5 failed core group, 6 failed zero-fill,
7 router fault, 8 NET_UNROUTABLE, 9 failed loop processor, 10 error-check-and-scrub counts, 11 laser line, 12 laser module,
13 port without its parity lane, 14 lane failure, 15 power or clock event, 16 control-state ECC error, 18 rail fault,
19 CAP_UNMET, 20 cooling fault, 21 failed key slot, 22 signatures running low, 23 VD left out at restore, 24 degrading row not
repaired. -/
def report (s : State) (kind unit vd : Nat) : State := { s with reports := s.reports ++ [(kind, unit, vd)] }

/-- The layout of the unit at an address, on its side of a running conversion's watermark (R157). -/
def layoutAt (s : State) (a : Nat) : Layout :=
  let ch := s.chan (dpaChan a)
  match ch.conv with
  | some cv => if dpaLocal a < cv.mark then cv.new else cv.old
  | none => ch.layout

/-- What a layout makes of an error (R155). -/
inductive EccOut where
  | good | corrected | detected | mac | open_
deriving DecidableEq, Repr

/-- The table of R155; a unit in the scrubbed state is corrected for one wrong bit and uncorrectable for more (R162). -/
def eccOut : Layout → EccErr → EccOut
  | _, .clean => .good
  | _, .oneBit => .corrected
  | .scrubbed, _ => .detected
  | .standard, .onePinTwo | .standard, .pinsTwo | .standard, .address => .detected
  | .standard, _ => .open_
  | .strong, .onePinTwo | .strong, .onePinMany => .corrected
  | .strong, .pinsTwo | .strong, .pinsMany | .strong, .address => .detected
  | .strong, _ => .open_
  | .sealed, _ => .mac

/-- Count bytes of a class at a channel, reads at index tc and writes at 8 + tc, and in the meter of the channel's VD (R229, R269). -/
def countBytes (s : State) (c i n : Nat) : State :=
  let old := lookD s.net.chanBytes c (List.replicate 16 0)
  let s := { s with net := { s.net with chanBytes := put s.net.chanBytes c (old.mapIdx (fun k x => if k = i then (x + n) % 2 ^ 64 else x)) } }
  match s.pairVd (c / 2) with
  | none => s
  | some v => s.modVd v (fun y =>
    let m := y.meter
    { y with meter := if i < 8 then { m with hbmRd := m.hbmRd + n } else { m with hbmWr := m.hbmWr + n } })

/-- The S0 cycles of 24 h. -/
def s0Day : Nat := 69120000000000

/-- A correction counts for its channel and its row; a row at the threshold is reported as degrading and
enters the repair table (R156, R172, R503). -/
def countCorrection (s : State) (c row : Nat) : State :=
  let ts := (lookD (s.chan c).rows row []).filter (fun t => decide (s.s0 < t + s0Day)) ++ [s.s0]
  let s := s.modChan c (fun x => { x with corr := x.corr + 1, rows := put x.rows row ts })
  if ts.length ≥ s.mem.degradeAt ∧ !(s.chan c).degrading.contains row then
    let s := { s with flash := { s.flash with repairs := s.flash.repairs ++ [(c, row)] } }
    report (s.modChan c (fun x => { x with degrading := x.degrading ++ [row] })) 3 (c * 2 ^ 33 + row) ((s.pairVd (c / 2)).getD 64)
  else s

/-- The home's copy after a read of HBM: a line the LLC does not hold under the owner's tag is filled (R156, R164). -/
def fillRead (s : State) (v line : Nat) (d : LineData) (p : Bool) : State :=
  let s := dropStale s (s.vdTag v) line
  if (s.llcLine line).valid then s else s.setLlc line { valid := true, tag := s.vdTag v, data := d, poison := p }

/-- A read that the controller answers with poison (R156). -/
def readBad (s : State) (v line : Nat) (mac : Bool) : State :=
  let c := dpaChan (line * 128)
  let s := s.modChan c (fun x => { x with uncorr := x.uncorr + 1, macFail := x.macFail + b2n mac })
  let s := report s (if mac then 2 else 1) line v
  let s := if mac then
      let s := { s with mem := { s.mem with macFails := s.mem.macFails ++ [line] } }
      amberAppend s v 0x0006 0xFFFF (natLe 2 0xFFFF ++ List.replicate 6 0 ++
        errBytes { cause := 0x0007, source := 6, detail := natLe 8 (line * 128) }) .none
    else s
  fillRead s v line (hbmLine s line) true

/-- HBM_READ of one line with the error its unit shows (R152, R155, R156). -/
def hbmReadCmd (s : State) (line : Nat) (err : EccErr) (row tc : Nat) : State :=
  let a := line * 128
  let c := dpaChan a
  let s := countBytes s c tc 128
  match s.pairVd (dpaPair a) with
  | none => if err = .oneBit then countCorrection s c row else s
  | some v =>
    let lay := if (unitMeta s (2 * line)).nz || (unitMeta s (2 * line + 1)).nz then layoutAt s a else .scrubbed
    match eccOut lay err with
    | .good => fillRead s v line (hbmLine s line) (hbmPoison s line)
    | .corrected => fillRead (countCorrection s c row) v line (hbmLine s line) (hbmPoison s line)
    | .detected => readBad s v line false
    | .mac => readBad s v line true
    | .open_ =>
      let (k, s) := takeFree s
      if Config.eccSeen k then readBad s v line false else fillRead s v line (Config.eccGuess k) (hbmPoison s line)

def execHbmRead (line : LineId) (err : EccErr) (pc : Fin 2) (row : W32) (tc : Fin 8) (s : State) : Host.Outcome State Fault Refusal :=
  doneKeep s (hbmReadCmd s line.val err (pc.val * 2 ^ 32 + row.toNat) tc.val)

/-- HBM_WRITE: bytes of one line reach the controller; a pair without a key takes none (R152, R156, R158). -/
def execHbmWrite (line : LineId) (off : Fin 128) (data : List Byte) (poison : Bool) (tc : Fin 8) (s : State) :
    Host.Outcome State Fault Refusal :=
  let bs := data.take (128 - off.val)
  if (s.pairOwner (dpaPair (line.val * 128))).isSome ∧ bs ≠ [] then
    doneKeep s (countBytes (hbmWrite s (line.val * 128 + off.val) bs poison) (dpaChan (line.val * 128)) (8 + tc.val) bs.length)
  else doneKeep s s

/-- Poison after a conversion between layouts of 64-byte and 128-byte units: both halves of a line carry it (R157). -/
def mergePoison (s : State) (c : Nat) : State :=
  let bad := (s.mem.units.filter (fun p => p.2.poison && dpaChan (64 * p.1) = c)).map (fun p => p.1 / 2)
  let units := (bad.flatMap (fun l => [2 * l, 2 * l + 1])).foldl (fun m u => putD m u { nz := true, poison := true } {}) s.mem.units
  { s with mem := { s.mem with units := units } }

/-- Start a conversion of a channel, or queue it behind the running one (R157). -/
def startConv (s : State) (c : Nat) (new : Layout) : State :=
  s.modChan c (fun x =>
    match x.conv with
    | some cv => if cv.new = new then { x with queued := none } else { x with queued := some new }
    | none =>
      if x.layout = new then x
      else if x.layout = .scrubbed then { x with layout := new }
      else { x with conv := some { old := x.layout, new := new } })

def execEccConversionDone (c : ChanId) (s : State) : Host.Outcome State Fault Refusal :=
  match (s.chan c.val).conv with
  | none => doneKeep s s
  | some cv =>
    let t := if (cv.old = .standard) ≠ (cv.new = .standard) then mergePoison s c.val else s
    let t := t.modChan c.val (fun x => { x with layout := cv.new, conv := none })
    match (t.chan c.val).queued with
    | some q => doneKeep s (startConv (t.modChan c.val (fun x => { x with queued := none })) c.val q)
    | none => doneKeep s t

def execPatrolScrubStart (n : StackId) (s : State) : Host.Outcome State Fault Refusal :=
  if (s.stack n.val).patrolHours = 0 ∨ (s.stack n.val).patrolOn then doneKeep s s
  else doneKeep s (s.modStack n.val (fun x => { x with patrolOn := true, patrolLate := false }))

def execPatrolLate (n : StackId) (s : State) : Host.Outcome State Fault Refusal :=
  if (s.stack n.val).patrolOn ∧ !(s.stack n.val).patrolLate then
    doneKeep s (report (s.modStack n.val (fun x => { x with patrolLate := true })) 4 n.val 64)
  else doneKeep s s

def execPatrolPassComplete (n : StackId) (ecs : List Nat) (s : State) : Host.Outcome State Fault Refusal :=
  if (s.stack n.val).patrolOn then
    let t := s.modStack n.val (fun x => { x with patrolOn := false, patrolLate := false, patrolPasses := x.patrolPasses + 1 })
    let t := (List.range 16).foldl (fun s i => s.modChan (16 * n.val + i) (fun x => { x with ecs := x.ecs + ecs.getD i 0 })) t
    doneKeep s (report t 10 n.val 64)
  else doneKeep s s

end Sys2Proof.Machine
end

