-- ==== Sys2Proof/Machine/Xlate.lean ====
section
/-! DEFINITION. Translation commands: fault records and resumes, invalidations, descriptor chunks, ATS and PRI, page
moves, dirty-log swaps (R184–R209). -/

namespace Sys2Proof.Machine

/- Faults (R198–R201). -/

/-- Post the record of an open fault, where the ring has room; else it waits in the fault (R198, R199). -/
def postFault (s : State) (id : Nat) : State :=
  match look s.xlt.faults id with
  | none => s
  | some f =>
    let r := (s.fn f.fn).xlt.fring
    if f.posted ∨ !ringRoom r then s
    else
      let s := writeHost s f.fn (r.base + r.prod % 2 ^ r.log2 * 64) (faultRecord s id f (phaseOf r.prod r.log2))
      let s := s.modFn f.fn (fun x => { x with xlt := { x.xlt with fring := { x.xlt.fring with prod := r.prod + 1 } } })
      let s := { s with xlt := { s.xlt with faults := put s.xlt.faults id { f with posted := true } } }
      let s := modSet s f.fn f.ctx (fun c => { c with faults := (c.faults + 1) % 2 ^ 32 })
      raiseVector s f.fn r.vector

def execFaultRecordPost (id : W32) (s : State) : Host.Outcome State Fault Refusal := doneKeep s (postFault s id.toNat)

/-- Translate a descriptor's chunk again from where it stopped, and go on or stall anew (R187). -/
def retryDesc (s : State) (id : Nat) : State :=
  match s.desc? id with
  | none => s
  | some _ => writeBlock (translateChunk (s.modDesc id (fun d => { d with stalled := none })) id) id

/-- Replay a waiter's access (R200). -/
def replay (s : State) : Waiter → State
  | .engine e => s.modEng e (fun x => { x with run := x.run.map (fun (r : RunTile) => { r with stalled := none }) })
  | .desc d => retryDesc s d
  | .scalar a => tryScalar s a
  | .coreUnit c => (s.net.groups.filter (fun p => groupDest p.2 = c)).foldl (fun s p =>
      match s.launch? p.2.launch with
      | some l => (List.range (nodeBlocks (l.nodes.getD p.2.node {}))).foldl (fun s b =>
          if holdOf s c p.1 b 0 = [] then s else relayWrite s p.1 b) s
      | none => s) s

/-- Fail a waiter's work (R200). -/
def abortWaiter (s : State) (e : ErrRec) : Waiter → State
  | .engine i => engineError s i e
  | .desc d => failDesc s d e
  | .scalar a => engineError s a.eng e
  | .coreUnit c => (s.net.groups.filter (fun p => groupDest p.2 = c)).foldl (fun s p => failLaunch s p.2.launch e) s

/-- After a fault closes, the first agent that stalled without an entry tries again (R198). -/
def admitStall (s : State) (fn : Nat) : State :=
  match popStall s fn with
  | (some w, s) => replay s w
  | (none, s) => s

def closeFault (s : State) (id : Nat) : State := { s with xlt := { s.xlt with faults := del s.xlt.faults id } }

def faultErr (cause id : Nat) (f : OpenFault) : ErrRec :=
  { cause := cause, source := 1, detail := natLe 8 f.page ++ natLe 4 id ++ natLe 1 f.kind ++ [0] ++ natLe 2 f.ctx }

/-- End a fault: each waiter is replayed after a fresh walk, or fails with a cause (R200, R201). -/
def endFault (s : State) (id : Nat) (cause : Option Nat) : State :=
  match look s.xlt.faults id with
  | none => s
  | some f =>
    let s := closeFault s id
    let s := f.waiters.foldl (fun s w => match w with
      | .engine e | .scalar { eng := e, .. } => traceEng s e 9 (agentOf s w).2 (id + 2 ^ 32 * b2n cause.isSome) 0
      | _ => s) s
    let s := match cause with
      | none => f.waiters.foldl replay s
      | some c => f.waiters.foldl (fun s w => abortWaiter s (faultErr c id f) w) s
    admitStall s f.fn

/-- A resume by a function: one that names no open fault of it is ignored and counted (R200). -/
def resume (s : State) (fn id : Nat) (abort : Bool) : State :=
  match look s.xlt.faults id with
  | some f =>
    if f.fn = fn then endFault s id (if abort then some 0x0008 else none)
    else s.modFn fn (fun x => { x with xlt := { x.xlt with badResume := satAdd 16 x.xlt.badResume 1 } })
  | none => s.modFn fn (fun x => { x with xlt := { x.xlt with badResume := satAdd 16 x.xlt.badResume 1 } })

def execXltResumeRetry (fn : FnId) (id : W32) (s : State) : Host.Outcome State Fault Refusal :=
  doneKeep s (hostGate s fn.val (fun s => resume s fn.val id.toNat false))

def execXltResumeAbort (fn : FnId) (id : W32) (s : State) : Host.Outcome State Fault Refusal :=
  doneKeep s (hostGate s fn.val (fun s => resume s fn.val id.toNat true))

def execFaultTimeout (id : W32) (s : State) : Host.Outcome State Fault Refusal := doneKeep s (endFault s id.toNat (some 0x0009))

/- Invalidations (R188–R193). -/

/-- Descriptors of the contexts whose current chunk an invalidation must wait for (R191). -/
def staleDescs (s : State) (v : Inval) : List Nat :=
  (s.xlt.descs.filter (fun p =>
    let d := p.2
    d.fn = v.fn && v.ctxs.contains d.ctx && d.stalled.isNone && !d.done &&
      (v.kind ≠ 1 || [false, true].any (fun dst => (descSegs d dst (d.chunkEnd - d.pos + 1) d.pos (d.chunkEnd - d.pos)).any (fun r =>
        decide (r.1 < v.hi) && decide (v.lo < r.1 + r.2)))))).map (·.1)

/-- Whether raising a context's epoch would leave a running descriptor 32,768 behind (R188). -/
def epochBlocked (s : State) (fn : Nat) (ctxs : List Nat) : Bool :=
  s.xlt.descs.any (fun p => p.2.fn = fn && ctxs.contains p.2.ctx && p.2.stalled.isNone &&
    (match s.ctx? fn p.2.ctx with
    | some x => decide ((x.epoch + 1 + 65536 - p.2.epoch) % 65536 ≥ 32768)
    | none => false))

/-- Steps 1 to 3 of an invalidation: epochs rise, matching entries go from the walk cache, from every core in the VD's
scope and from its loop processors (R191). -/
def invalRun (s : State) (id : Nat) : State :=
  match look s.xlt.invals id with
  | none => s
  | some v =>
    let s := v.ctxs.foldl (fun s c => s.modCtx v.fn c (fun x => { x with epoch := (x.epoch + 1) % 65536 })) s
    let dropT (t : List XEntry) : List XEntry := tlbDrop t v.fn v.ctxs v.lo v.hi
    let s := { s with
      cores := mapVals s.cores (fun _ k => { k with xtlb := dropT k.xtlb })
      xlt := { s.xlt with walkCache := dropT s.xlt.walkCache, loopTlb := mapVals s.xlt.loopTlb (fun _ t => dropT t) } }
    let s := match v.src, v.ctxs with
      | .slot n, c :: _ =>
        if v.kind = 3 then s
        else
          let ep : Nat := ((s.ctx? v.fn c).map (fun (x : Ctx) => x.epoch)).getD 0
          s.modFn v.fn (fun x => { x with xlt := { x.xlt with slots := adjust x.xlt.slots n (fun (q : InvSlot) => { q with epoch := ep }) } })
      | _, _ => s
    { s with xlt := { s.xlt with invals := put s.xlt.invals id { v with held := false, waits := staleDescs s v } } }

/-- Begin an invalidation, at once or when a descriptor far behind has retranslated (R188, R191). -/
def invalBegin (s : State) (v : Inval) : State × Nat :=
  let id := s.xlt.nextInval
  let s := { s with xlt := { s.xlt with invals := put s.xlt.invals id { v with held := true }, nextInval := id + 1 } }
  (if epochBlocked s v.fn v.ctxs then s else invalRun s id, id)

/-- The first failing check of a slot: 1 a field, 2 no such context, which is every one without a VD (R189, R190, R248). -/
def slotErr (s : State) (fn : Nat) (w : List Byte) : Nat :=
  let kind := fieldAt w 2 1
  let va := fieldAt w 8 8
  let np := fieldAt w 16 8
  let fence := fieldAt w 24 4
  let badRange := if kind = 1 then decide (va % 65536 ≠ 0) || decide (2 ^ 55 ≤ va) || decide (np = 0) || decide (np > 2 ^ 39) else decide (va ≠ 0) || decide (np ≠ 0)
  if !(s.vd fn).live then 2
  else if fieldAt w 0 2 > 4095 ∨ kind = 0 ∨ kind > 3 ∨ !allZero (sliceB w 3 5) ∨ badRange ∨ (fence > 65535 ∧ fence ≠ 0xFFFFFFFF)
      ∨ !allZero (sliceB w 28 4) ∨ !allZero (sliceB w 40 16) then 1
  else if kind ≠ 3 ∧ (s.ctx? fn (fieldAt w 0 2)).isNone then 2
  else 0

/-- A write of GO submits a slot (R189–R191). -/
def slotSubmit (s : State) (fn n seq : Nat) (goOk : Bool) : State :=
  let q := lookD (s.fn fn).xlt.slots n {}
  if q.st = 1 then s.modFn fn (fun x => { x with xlt := { x.xlt with invIgnored := satAdd 16 x.xlt.invIgnored 1 } })
  else
    let w := sliceB q.words 0 56
    let err := if goOk then slotErr s fn w else 1
    let fence := fieldAt w 24 4
    let set (s : State) (st err : Nat) : State := s.modFn fn (fun x => { x with xlt := { x.xlt with
      slots := put x.xlt.slots n { q with seq := seq, st := st, err := err, epoch := 0 } } })
    if err ≠ 0 then
      let s := set s 2 err
      if fence < 65536 then failFence s fn fence { cause := 0x000B, source := 4, detail := natLe 1 n ++ natLe 1 err ++ natLe 2 0 ++ natLe 4 seq }
      else s
    else
      let kind := fieldAt w 2 1
      (invalBegin (set s 1 0) {
        fn := fn, src := .slot n, kind := kind
        ctxs := if kind = 3 then s.fnCtxs fn else [fieldAt w 0 2]
        lo := if kind = 1 then fieldAt w 8 8 else 0
        hi := if kind = 1 then fieldAt w 8 8 + 65536 * fieldAt w 16 8 else 2 ^ 64
        fence := if fence < 65536 then some (fence, fieldAt w 32 8) else none }).1

/-- Write a slot's words and submit it. -/
def slotWrite (s : State) (fn n : Nat) (r : InvReq) (kind : Nat) : State :=
  let words := natLe 2 r.ctx.toNat ++ natLe 1 kind ++ List.replicate 5 0 ++ natLe 8 r.va.toNat ++ natLe 8 r.npages.toNat
    ++ natLe 4 r.fence.toNat ++ natLe 4 0 ++ natLe 8 r.fenceValue.toNat ++ List.replicate 16 0
  let q := lookD (s.fn fn).xlt.slots n {}
  let s := if q.st = 1 then s else s.modFn fn (fun x => { x with xlt := { x.xlt with slots := put x.xlt.slots n { q with words := words } } })
  slotSubmit s fn n r.seq.toNat (decide (r.seq ≠ 0))

def execInvRange (fn : FnId) (n : Fin 64) (r : InvReq) (s : State) : Host.Outcome State Fault Refusal :=
  doneKeep s (hostGate s fn.val (fun s => slotWrite s fn.val n.val r 1))

def execInvContext (fn : FnId) (n : Fin 64) (r : InvReq) (s : State) : Host.Outcome State Fault Refusal :=
  doneKeep s (hostGate s fn.val (fun s => slotWrite s fn.val n.val r 2))

def execInvFunction (fn : FnId) (n : Fin 64) (r : InvReq) (s : State) : Host.Outcome State Fault Refusal :=
  doneKeep s (hostGate s fn.val (fun s => slotWrite s fn.val n.val r 3))

/-- Complete an invalidation: its slot, its fence, its Invalidation Completion, or its move's next step (R191, R195). -/
def invalFinish (s : State) (id : Nat) : State :=
  match look s.xlt.invals id with
  | none => s
  | some v =>
    let s := { s with xlt := { s.xlt with invals := del s.xlt.invals id } }
    match v.src with
    | .slot n =>
      let s := s.modFn v.fn (fun x => { x with xlt := { x.xlt with slots := adjust x.xlt.slots n (fun (q : InvSlot) => { q with st := 0 }) } })
      match v.fence with
      | some (i, x) => signalFence s v.fn i x (if x = errValue then some { cause := 0x000B, source := 4 } else none)
      | none => s
    | .ats tag => { s with xlt := { s.xlt with atsDone := s.xlt.atsDone ++ [(v.fn, tag)] } }
    | .move _ _ => s

/-- Descriptors that an invalidation still waits for (R191, R193). -/
def invalLeft (s : State) (v : Inval) : List Nat :=
  v.waits.filter (fun i => match s.desc? i with
    | none => false
    | some d => d.stalled.isNone && (match s.ctx? d.fn d.ctx with | some x => decide (d.epoch ≠ x.epoch) | none => false))

/-- A context being destroyed holds a request that names it until it is gone (R193). -/
def invalDying (s : State) (v : Inval) : Bool :=
  v.ctxs.any (fun c => match s.ctx? v.fn c with | some x => decide (x.st ≠ .live) | none => false)

def invalComplete (s : State) (id : Nat) : State :=
  match look s.xlt.invals id with
  | none => s
  | some v =>
    if v.held then (if epochBlocked s v.fn v.ctxs then s else invalRun s id)
    else if invalLeft s v ≠ [] ∨ (invalDying s v ∧ v.kind ≠ 3) then s
    else invalFinish s id

def execInvComplete (id : W32) (s : State) : Host.Outcome State Fault Refusal := doneKeep s (invalComplete s id.toNat)

/-- INV_LIMIT: the descriptors that hold the request up are squashed and it completes (R192). -/
def invalLimit (s : State) (id : Nat) : State :=
  match look s.xlt.invals id with
  | none => s
  | some v =>
    if v.held then s
    else
      let left := invalLeft s v
      let s := left.foldl (fun s i =>
        match s.desc? i with
        | none => s
        | some d => failDesc s i { cause := 0x000A, source := 1, detail := natLe 2 d.ctx ++ natLe 2 (((s.ctx? d.fn d.ctx).map (·.epoch)).getD 0) }) s
      let s := match v.src with
        | .move m e => if left = [] then s else
            { s with xlt := { s.xlt with moves := adjust s.xlt.moves m (fun x => { x with timedOut := x.timedOut ++ [e] }) } }
        | _ => s
      invalFinish s id

def execInvLimitExpiry (id : W32) (s : State) : Host.Outcome State Fault Refusal := doneKeep s (invalLimit s id.toNat)

/- Descriptor chunks (R186, R187, R300). -/

/-- Whether the request of a descriptor has failed, so that no further part is issued (R319). -/
def descDead (s : State) (d : Desc) : Bool :=
  match d.owner with
  | .node l _ => (match s.launch? l with | some x => x.failed.isSome | none => true)
  | .packet _ => false

/-- Drop a descriptor whose request has failed. -/
def descEnd (s : State) (id : Nat) (d : Desc) : State :=
  match d.owner with
  | .node l _ => settleLaunch (dropDesc s id) l
  | .packet _ => dropDesc s id

/-- Count a chunk's accesses to host pages (R205). -/
def countChunk (s : State) (d : Desc) : State :=
  let n := d.chunkEnd - d.pos
  let go (s : State) (dst : Bool) : State := (descSegs d dst (n + 1) d.pos n).foldl (fun s r => countAc s d.fn d.ctx dst r.1 r.2) s
  match s.ctx? d.fn d.ctx with
  | some x => if x.acEn then go (if d.kind = 2 then s else go s false) true else s
  | none => s

/-- Whether a transfer would move a SEALED VD's device memory to host memory (R415). -/
def exposes (s : State) (d : Desc) : Bool :=
  (s.vd d.fn).posSealed && decide (d.kind ≠ 2) && d.exts.any (fun e => !e.dst && e.space = 0)
    && d.exts.any (fun e => e.dst && e.space = 1)

/-- A later chunk of a TRANSFER that would expose sealed memory ends the packet with POSTURE (R415; DEDUCED, log 21). -/
def postureStop (s : State) (id : Nat) (d : Desc) : Option State :=
  match d.owner with
  | .packet p => if exposes s d then some (finishPkt (dropDesc s id) p d.fn stPosture 0 0 0 (some (fieldErr p 0))) else none
  | .node _ _ => none

/-- Run the current chunk: the state after it, or none where the agent waits or the request has ended. -/
def chunkRun (s : State) (id : Nat) : State × Bool :=
  match s.desc? id with
  | none => (s, false)
  | some d =>
    if d.stalled.isSome then (s, false)
    else
      match takeExtSlot s id with
      | none => (s, false)
      | some s =>
        match postureStop s id d with
        | some s => (s, false)
        | none =>
        match runChunk s d with
        | .ok t => (countChunk t d, true)
        | .poisonToHost a => (failDesc s id (memErr s a), false)
        | .hole va w =>
          -- the walk is made again from the hole (R187)
          match gfeXlate s d.fn d.ctx va w with
          | (.dev _ _ _, s) | (.host _ _ _, s) =>
            let s := writeBlock (translateChunk s id) id
            match s.desc? id with
            | none => (s, false)
            | some d' =>
              match runChunk s d' with
              | .ok t => (countChunk t d', true)
              | .poisonToHost a => (failDesc s id (memErr s a), false)
              | .hole va w => (blockOn s d.fn d.ctx va w (xlateWith s [] d.fn d.ctx va w).1 (.desc id), false)
          | (r, s) => (blockOn s d.fn d.ctx va w r (.desc id), false)

/-- DESCRIPTOR_CHUNK_BOUNDARY: a chunk that is not the last ends; the next is translated under the current epoch. -/
def chunkCross (s : State) (id : Nat) : State :=
  match s.desc? id with
  | none => s
  | some d =>
    if descDead s d then descEnd s id d
    else if d.chunkEnd ≥ descTotal d then s
    else
      match chunkRun s id with
      | (s, false) => s
      | (s, true) =>
        let s := s.modDesc id (fun d => { d with pos := d.chunkEnd, chunks := (d.chunks + 1) % 2 ^ 32 })
        writeBlock (translateChunk s id) id

def execDescriptorChunkBoundary (d : W32) (s : State) : Host.Outcome State Fault Refusal := doneKeep s (chunkCross s d.toNat)

/-- The destination bytes of a transfer in transfer order (R300). -/
def destBytes (s : State) (d : Desc) : List Byte :=
  (descSegs d true (d.rows + 1) 0 (descTotal d)).flatMap (fun r => match readVa s d.fn d.ctx r.1 r.2 with
    | .ok (bs, _) => bs
    | .error _ => List.replicate r.2 0)

/-- TRANSFER_COMPLETE: the last chunk ends (R300). -/
def transferEnd (s : State) (id : Nat) : State :=
  match s.desc? id with
  | none => s
  | some d =>
    if descDead s d then descEnd s id d
    else if d.chunkEnd < descTotal d then s
    else
      match chunkRun s id with
      | (s, false) => s
      | (s, true) =>
        let s := modSet s d.fn d.ctx (fun c => { c with xferBytes := (c.xferBytes + descTotal d) % 2 ^ 64 })
        let bytes := if d.record then destBytes s d else []
        let s := dropDesc s id
        let rcd (s : State) (after : Deferred) : State :=
          if d.record then loadRecord s d.fn d.ctx 1 0 0 0 d.dst (descTotal d) [] (sha384 bytes) after else release s 0 after
        match d.owner with
        | .packet p =>
          let (s, after) := finishAfter s p d.fn 0 0
          settleCqes (rcd s after)
        | .node l i => partNode (rcd s .none) l i
where
  partNode (s : State) (l i : Nat) : State :=
    match s.launch? l with
    | some x => runLaunch (s.setLaunch l (nodeDone x i)) l
    | none => s

def execTransferComplete (d : W32) (s : State) : Host.Outcome State Fault Refusal := doneKeep s (transferEnd s d.toNat)

/- ATS and PRI (R194–R196, R412). -/

/-- End a wait for a host page as a refusal: every waiter faults with HOST_REFUSED (R196, R412). -/
def refusePage (s : State) (q : PageReq) : State :=
  let s := { s with xlt := { s.xlt with pageReqs := s.xlt.pageReqs.erase q } }
  q.waiters.foldl (fun s w => joinFault s q.fn q.ctx q.addr 6 q.write true w) s

/-- Page Requests of a function that are outstanding (R196). -/
def prOut (s : State) (fn : Nat) : Nat := (s.xlt.pageReqs.filter (fun q => q.fn = fn && q.sent)).length

/-- A Translation Completion for an untranslated page: the translated page and its write permission, or no access. -/
def atsComplete (s : State) (fn page : Nat) (ans : Option (Nat × Bool)) : State :=
  match s.xlt.pageReqs.find? (fun q => q.fn = fn && q.page = page && !q.sent) with
  | none => s
  | some q =>
    let ok := match ans with | some (_, w) => w || !q.write | none => false
    match ok, ans with
    | true, some (addr, w) =>
      let s := { s with xlt := { s.xlt with
        pageReqs := s.xlt.pageReqs.erase q
        atc := ({ fn := fn, page := page, addr := addr, write := w } ::
          s.xlt.atc.filter (fun a => !(a.fn = fn && a.page = page))).take 8192 } }
      q.waiters.foldl replay s
    | _, _ =>
      let pri : Bool := match s.ctx? fn q.ctx with | some x => x.priEn | none => false
      if pri ∧ (s.pf fn).priEn ∧ !q.retried then
        if prOut s fn ≥ 256 then s
        else { s with xlt := { s.xlt with pageReqs := s.xlt.pageReqs.map (fun r => if r = q then { r with sent := true } else r) } }
      else refusePage s q

def execAtsTranslationCompletion (fn : FnId) (page : W64) (ans : Option (W64 × Bool)) (s : State) : Host.Outcome State Fault Refusal :=
  doneKeep s (atsComplete s fn.val page.toNat (ans.map (fun a => (a.1.toNat / 4096 * 4096, a.2))))

def execPageRequestResponse (fn : FnId) (page : W64) (ok : Bool) (s : State) : Host.Outcome State Fault Refusal :=
  match s.xlt.pageReqs.find? (fun q => q.fn = fn.val && q.page = page.toNat && q.sent) with
  | none => doneKeep s s
  | some q =>
    if ok then
      doneKeep s { s with xlt := { s.xlt with pageReqs := s.xlt.pageReqs.map (fun r => if r = q then { r with sent := false, retried := true } else r) } }
    else doneKeep s (refusePage s q)

/-- ATS Invalidate Request: entries go, then a KIND 3 sequence on the contexts with HOST_EN, then its completion (R195). -/
def atsInvalidate (s : State) (fn addr size tag : Nat) : State :=
  let s := { s with xlt := { s.xlt with atc := s.xlt.atc.filter (fun a =>
    !(a.fn = fn && decide (a.page * 4096 < addr + size) && decide (addr < (a.page + 1) * 4096))) } }
  let cs := (s.fnCtxs fn).filter (fun c => match s.ctx? fn c with | some x => x.hostEn | none => false)
  (invalBegin s { fn := fn, src := .ats tag, kind := 3, ctxs := cs, hi := 2 ^ 64 }).1

def execAtsInvalidateRequest (fn : FnId) (addr size : W64) (tag : Nat) (s : State) : Host.Outcome State Fault Refusal :=
  doneKeep s (atsInvalidate s fn.val addr.toNat size.toNat tag)

/- Page moves (R203, R204). -/

/-- The address of the entry of a level that covers a VA, and its value: tables are read through the LLC (R204). -/
def entryAt (s : State) (fn : Nat) (x : Ctx) (va : Nat) (want : Nat) : Nat → Nat → Option (Nat × Nat)
  | 0, _ => none
  | level + 1, table =>
    let lv := level + 1
    let a := table + 8 * fld va (if lv = 3 then 42 else if lv = 2 then 29 else 16) 13
    match readPte s fn x.mirror a with
    | none => none
    | some e =>
      if !pteV e then none
      else if lv = want then some (a, e)
      else if pteLeaf e then none
      else entryAt s fn x va want level (pteAddr e)

/-- The size of a moved object (R203). -/
def moveSize (kind : Nat) : Nat := if kind = 2 then 0x20000000 else 65536

/-- The entry E that points at an entry's object, with its value; the root's own pointer has no address (R204). -/
def moveTarget (s : State) (fn : Nat) (x : Ctx) (b : List Byte) : Option (Option Nat × Nat) :=
  let kind := fieldAt b 2 1
  let va := fieldAt b 8 8
  if kind = 4 then some (none, x.root)
  else
    let want := if kind = 1 then 1 else if kind = 2 then 2 else fieldAt b 3 1 + 1
    match entryAt s fn x va want 3 x.root with
    | some (a, e) => if (kind = 3) = pteLeaf e ∨ pteHost e then none else some (some a, e)
    | none => none

/-- Write an entry in both copies where tables are mirrored (R204). -/
def putPte (s : State) (fn : Nat) (x : Ctx) (a e : Nat) : State :=
  let s := writeDpa s fn a (natLe 8 e)
  if x.mirror = 0 then s else writeDpa s fn ((a : Int) + x.mirror).toNat (natLe 8 e)

def modMove (s : State) (m : Nat) (f : MoveList → MoveList) : State :=
  { s with xlt := { s.xlt with moves := adjust s.xlt.moves m f } }

/-- Complete a move list after its last entry (R297, R319; DEDUCED, log 17). -/
def moveEnd (s : State) (m : Nat) : State :=
  match look s.xlt.moves m with
  | none => s
  | some x =>
    if x.results.any (· = 0) then s
    else
      let n := (x.results.filter (· = 1)).length
      let s := { s with xlt := { s.xlt with moves := del s.xlt.moves m } }
      if x.results.contains 6 then
        finishPkt s x.pkt x.fn stFailed n 0 0 (some { cause := 0x000A, source := 1, detail := natLe 2 x.ctx ++ natLe 2 (((s.ctx? x.fn x.ctx).map (·.epoch)).getD 0) })
      else finishPkt s x.pkt x.fn stOk n 0 0 none

/-- Record an entry's result, in the list too (R203). -/
def moveResult (s : State) (m i r : Nat) : State :=
  match look s.xlt.moves m with
  | none => s
  | some x =>
    let s := match writeVa s x.fn x.ctx (x.va + 32 * i + 24) (natLe 1 r) with | .ok s => s | .error _ => s
    let s := modMove s m (fun x => { x with
      results := x.results.mapIdx (fun j q => if j = i then r else q), running := x.running.erase i })
    moveEnd s m

/-- Whether an entry may start: tables and roots run alone, at most 64 others at once (R204). -/
def moveMayStart (x : MoveList) (i : Nat) : Bool :=
  let kindOf (j : Nat) : Nat := fieldAt (x.entries.getD j []) 2 1
  let ended (j : Nat) : Bool := x.results.getD j 0 ≠ 0
  decide (i < x.entries.length) && !ended i && !x.running.contains i &&
    (if kindOf i ≥ 3 then (List.range i).all ended
    else decide (x.running.length < 64) && (List.range i).all (fun j => kindOf j < 3 || ended j))

/-- Steps 1 to 3 of a move entry (R204). -/
def moveStart (s : State) (m i : Nat) : State :=
  match look s.xlt.moves m with
  | none => s
  | some x =>
    if !moveMayStart x i then s
    else
      let b := x.entries.getD i []
      let kind := fieldAt b 2 1
      let ctx := fieldAt b 0 2
      let dest := fieldAt b 16 8
      let v := s.vd x.fn
      match s.ctx? x.fn ctx with
      | none => moveResult s m i 3
      | some c =>
        match moveTarget s x.fn c b with
        | none => moveResult s m i 3
        | some (a, e) =>
          let obj := if kind = 4 then e else pteAddr e
          let sz := moveSize kind
          if !pairBit v.leave (dpaPair obj) then moveResult s m i 4
          else if dest % sz ≠ 0 ∨ dest + sz > dpaLimit ∨ dpaPair dest ≠ dpaPair (dest + sz - 1) ∨ s.pairVd (dpaPair dest) ≠ some x.fn
              ∨ pairBit v.leave (dpaPair dest) then moveResult s m i 5
          else if kind ≠ 4 ∧ pteMig e then moveResult s m i 2
          else
            let s := match a with
              | some a => putPte s x.fn c a (e ||| 32)
              | none => s.modCtx x.fn ctx (fun c => { c with rootHeld := true })
            let s := modMove s m (fun x => { x with running := x.running ++ [i], olds := put x.olds i e })
            let va := fieldAt b 8 8
            let span := if kind = 1 then 65536 else if kind = 2 then 0x20000000 else if kind = 4 then 2 ^ 55
              else if fieldAt b 3 1 = 1 then 0x20000000 else 2 ^ 42
            (invalBegin s { fn := x.fn, src := .move m i, kind := 1, ctxs := [ctx], lo := va / span * span, hi := va / span * span + span }).1

def execMoveEntryStart (m i : W32) (s : State) : Host.Outcome State Fault Refusal := doneKeep s (moveStart s m.toNat i.toNat)

/-- Copy an object line by line, poison included (R156, R204). -/
def copyDpa (s : State) (fn src dst n : Nat) : State :=
  (List.range (n / 128)).foldl (fun s k =>
    let (bs, po) := readDpaVd s fn (src + 128 * k) 128
    logDev (writeDpaRaw s (s.vdTag fn) (dst + 128 * k) bs po.isSome) fn (dst + 128 * k) 128) s

/-- Let the walks that wait on a page move try again (R203). -/
def wakeMig (s : State) (fn : Nat) : State :=
  let ws := s.xlt.migWaiters.filter (fun p => p.1 = fn)
  let s := { s with xlt := { s.xlt with migWaiters := s.xlt.migWaiters.filter (fun p => p.1 ≠ fn) } }
  ws.foldl (fun s p => replay s p.2) s

/-- Steps 4 and 5 of a move entry, once its invalidation has finished (R204). -/
def moveFinish (s : State) (m i : Nat) : State :=
  match look s.xlt.moves m with
  | none => s
  | some x =>
    if !x.running.contains i ∨ s.xlt.invals.any (fun p => p.2.src = .move m i) then s
    else
      let b := x.entries.getD i []
      let kind := fieldAt b 2 1
      let ctx := fieldAt b 0 2
      let dest := fieldAt b 16 8
      let old := lookD x.olds i 0
      let back (s : State) (c : Ctx) (e : Nat) : State :=
        match moveTarget s x.fn c b with
        | some (some a, now) => if now = old ||| 32 then putPte s x.fn c a e else s
        | _ => s
      match s.ctx? x.fn ctx with
      | none => moveResult s m i 3
      | some c =>
        if x.timedOut.contains i then
          wakeMig (moveResult (if kind = 4 then s.modCtx x.fn ctx (fun c => { c with rootHeld := false }) else back s c old) m i 6) x.fn
        else
          let obj := if kind = 4 then old else pteAddr old
          let s := if x.copied.any (fun p => p.1 = obj) then s
            else
              let s := copyDpa s x.fn obj dest (moveSize kind)
              if kind ≥ 3 ∧ c.mirror ≠ 0 then
                copyDpa s x.fn ((obj : Int) + c.mirror).toNat ((dest : Int) + c.mirror).toNat (moveSize kind)
              else s
          let s := modMove s m (fun x => { x with copied := (obj, dest) :: x.copied })
          if kind = 4 then
            wakeMig (moveResult (s.modCtx x.fn ctx (fun c => { c with root := dest, rootHeld := false })) m i 1) x.fn
          else
            match moveTarget s x.fn c b with
            | some (some a, now) =>
              if now = old ||| 32 then wakeMig (moveResult (putPte s x.fn c a (old % 65536 + dest)) m i 1) x.fn
              else wakeMig (moveResult s m i 2) x.fn
            | _ => wakeMig (moveResult s m i 2) x.fn

def execMoveEntryFinish (m i : W32) (s : State) : Host.Outcome State Fault Refusal := doneKeep s (moveFinish s m.toNat i.toNat)

/- Dirty-log swaps (R209). -/

/-- A write of XLT_DLOG_CTL.SWAP switches logging to the other set. -/
def dlogSwap (s : State) (fn : Nat) : State :=
  { s with xlt := { s.xlt with dlog := put s.xlt.dlog fn { lookD s.xlt.dlog fn {} with swapping := true } } }

def execDlogSwap (fn : FnId) (s : State) : Host.Outcome State Fault Refusal :=
  doneKeep s (hostGate s 0 (fun s => if fn.val = 0 then s else dlogSwap s fn.val))

/-- Every write before the switch has its bit set: the model sets bits with the write, so the swap may end at once. -/
def execDlogSwapDone (fn : FnId) (s : State) : Host.Outcome State Fault Refusal :=
  match look s.xlt.dlog fn.val with
  | some d =>
    if d.swapping then
      doneKeep s { s with xlt := { s.xlt with dlog := put s.xlt.dlog fn.val { d with swapping := false, swapDone := true, active := !d.active } } }
    else doneKeep s s
  | none => doneKeep s s

end Sys2Proof.Machine
end

