-- ==== Sys2Proof/Machine/Packets.lean ====
section
/-! DEFINITION. The work packets of command rings (R297–R303, R310, R318, R415, R569). -/

namespace Sys2Proof.Machine

/-- A packet that fails with a cause (R569). -/
def pktFails (s : State) (e : ErrRec) : PktOut := .ends s stFailed 0 0 (some e)

/- NOP. -/

/-- NOP, and any opcode that neither table names, which fails its field check (R297). -/
def execNop (r : RingId) (s : State) : Host.Outcome State Fault Refusal :=
  doneKeep s (runPacket s (refOf r) (fun op => op = 0 || !(isWorkOp op || isAdminOp op))
    (fun _ _ b => firstBad [(32, resZero b 32 32)]) (fun s _ _ _ => .ends s stOk 0 0 none))

/- Launches. -/

/-- Start a launch whose buffer is built, or wait for its slots (R292, R301–R303). -/
def startLaunch (s : State) (p : PktRef) (x : Ring) (l : Launch) : PktOut :=
  let cores := launchCores s x.fn
  match freeSlots s cores with
  | none => .wait
  | some slots =>
    if cores = [] then .wait
    else
      .running (acceptLaunch s { l with
        fn := x.fn, ctx := x.ctx, vd := x.fn, owner := some p, cores := cores,
        ring := (match x, p.ring with | _, .cmd n => some n | _, .admin _ => none) } slots).1

def ctxFigures (s : State) (fn ctx : Nat) : Bool := match s.ctx? fn ctx with | some c => c.figures | none => false

/-- LAUNCH_ROUTINE (R297, R303, R308). -/
def runRoutine (s : State) (p : PktRef) (x : Ring) (b : List Byte) : PktOut :=
  let h := fieldAt b 32 4
  match curGen s x.fn h with
  | none => .ends s stNoObject 0 0 none
  | some g =>
    let fig := ctxFigures s x.fn x.ctx
    if !launchOk s x.fn g.nodes g.relays fig false then .ends s stField 0 32 (some (fieldErr p 32))
    else
      match readParam s x.fn x.ctx (fieldAt b 40 8) (fieldAt b 38 2), readPage s x.fn g with
      | .error e, _ => pktFails s e
      | _, .error e => pktFails s e
      | .ok par, .ok page => startLaunch s p x {
          routine := h, gen := g.gen, nodes := g.nodes, relays := g.relays, programs := g.programs, budget := g.budget,
          figures := fig, seed := fieldAt b 56 8, cb := pokeB page (fieldAt b 36 2) par }

def execLaunchRoutine (r : RingId) (s : State) : Host.Outcome State Fault Refusal :=
  doneKeep s (runPacket s (refOf r) (· == 1) (fun _ _ b => firstBad [
    (36, fieldAt b 36 2 % 8 = 0), (38, decide (fieldAt b 38 2 ≤ 4096 ∧ fieldAt b 36 2 + fieldAt b 38 2 ≤ 4096)),
    (40, decide (fieldAt b 40 8 < 2 ^ 55)), (48, resZero b 48 8)]) runRoutine)

/-- LAUNCH_KERNEL: one PROGRAM node (R303). A kernel has no step budget, which 0 marks (R513). -/
def runKernel (s : State) (p : PktRef) (x : Ring) (b : List Byte) : PktOut :=
  match look s.gfe.programs (fieldAt b 32 4) with
  | none => .ends s stNoObject 0 0 none
  | some q =>
    if q.fn ≠ x.fn then .ends s stNoObject 0 0 none
    else
      match readParam s x.fn x.ctx (fieldAt b 40 8) (fieldAt b 48 2) with
      | .error e => pktFails s e
      | .ok par => startLaunch s p x {
          nodes := [{ kind := 2, elems := fieldAt b 36 4, tileElems := fieldAt b 50 2 }], programs := [fieldAt b 32 4],
          budget := 0, figures := ctxFigures s x.fn x.ctx, seed := fieldAt b 56 8, cb := sliceB par 0 4096 }

def execLaunchKernel (r : RingId) (s : State) : Host.Outcome State Fault Refusal :=
  doneKeep s (runPacket s (refOf r) (· == 2) (fun _ _ b => firstBad [
    (36, decide (1 ≤ fieldAt b 36 4)), (40, decide (fieldAt b 40 8 < 2 ^ 55)), (48, decide (fieldAt b 48 2 ≤ 4096)),
    (50, decide (1 ≤ fieldAt b 50 2)), (52, resZero b 52 4)]) runKernel)

/- Transfers. -/

/-- TRANSFER (R299, R300, R569): the descriptor is read and its first chunk translated at acceptance; where the chunk
needs an extent-list slot and none is free the packet waits (R186, R292). -/
def runTransfer (s : State) (p : PktRef) (x : Ring) (b : List Byte) : PktOut :=
  let va := fieldAt b 32 8
  match readDesc s x.fn x.ctx va with
  | .walk r => pktFails s (walkErr va x.ctx 0 r)
  | .poison a => pktFails s (memErr s a)
  | .misplaced => .ends s stField 0 32 (some (fieldErr p 32))
  | .ok bs =>
    match descBad bs with
    | some _ => .ends s stField 0 32 (some (fieldErr p 32))
    | none =>
      let id := s.xlt.nextDesc
      let d := descOf bs x.fn x.ctx va (.packet p)
      let t := translateChunk { s with xlt := { s.xlt with descs := put s.xlt.descs id d, nextDesc := id + 1 } } id
      match t.desc? id with
      | none => .wait
      | some d' =>
        if exposes t d' then .ends s stPosture 0 0 none
        else
          match takeExtSlot t id with
          | none => .wait
          | some t => .running (writeBlock t id)

def execTransfer (r : RingId) (s : State) : Host.Outcome State Fault Refusal :=
  doneKeep s (runPacket s (refOf r) (· == 3) (fun _ _ b => firstBad [
    (32, fieldAt b 32 8 % 128 = 0 && decide (fieldAt b 32 8 < 2 ^ 55)), (40, resZero b 40 24)]) runTransfer)

/- PATCH. -/

/-- PATCH: bytes of the current parameter page, applied whole at acceptance (R310, R311). -/
def runPatch (s : State) (p : PktRef) (x : Ring) (b : List Byte) : PktOut :=
  match curGen s x.fn (fieldAt b 32 4) with
  | none => .ends s stNoObject 0 0 none
  | some g =>
    if g.service ∧ fieldAt b 36 2 < 64 then .ends s stField 0 36 (some (fieldErr p 36))
    else
      let src : Except ErrRec (List Byte) :=
        if fieldAt b 38 1 = 0 then .ok (sliceB b 40 (fieldAt b 39 1))
        else readParam s x.fn x.ctx (fieldAt b 40 8) (fieldAt b 48 2)
      match src with
      | .error e => pktFails s e
      | .ok bs =>
        match writePage s x.fn g (fieldAt b 36 2) bs with
        | .error e => pktFails s e
        | .ok s => .ends s stOk 0 0 none

def execPatch (r : RingId) (s : State) : Host.Outcome State Fault Refusal :=
  doneKeep s (runPacket s (refOf r) (· == 4) (fun _ _ b =>
    let mode := fieldAt b 38 1
    let n := if mode = 0 then fieldAt b 39 1 else fieldAt b 48 2
    firstBad [
      (36, decide (1 < mode) || decide (fieldAt b 36 2 + n ≤ 4096)), (38, decide (mode ≤ 1)),
      (39, if mode = 0 then decide (1 ≤ n ∧ n ≤ 16) else fieldAt b 39 1 = 0),
      (40, mode = 0 || decide (fieldAt b 40 8 < 2 ^ 55)), (48, mode = 0 || decide (1 ≤ n ∧ n ≤ 4096)),
      (50, mode = 0 || resZero b 50 6), (56, resZero b 56 8)]) runPatch)

/- PHASE_HINT. -/

/-- A hint's phase starts; a COMPUTE phase ends the VD's MEMORY windows (R435). -/
def startHint (s : State) (h : Hint) : State :=
  let rest := s.hints.filter (fun x => x ≠ h && !(h.phase = 1 && x.vd = h.vd && x.active && x.phase = 2))
  { s with hints := rest ++ [{ h with active := true }] }

/-- A VD holds at most four pending hints: a fifth replaces the one that would start first. A hint whose start has come
takes effect at once (R436). -/
def addHint (s : State) (h : Hint) : State :=
  let mine := s.hints.filter (fun x => x.vd = h.vd && !x.active)
  let first := mine.foldl (fun (m : Option Hint) x => match m with
    | some y => if x.start < y.start then some x else some y
    | none => some x) none
  let s := match first with
    | some x => if mine.length < 4 then s else
      let p := lookD s.pow.vds h.vd {}
      { s with hints := s.hints.erase x
               pow := { s.pow with vds := put s.pow.vds h.vd { p with hintsReplaced := (p.hintsReplaced + 1) % 2 ^ 32 } } }
    | none => s
  if h.start ≤ s.s0 then startHint { s with hints := s.hints ++ [h] } h else { s with hints := s.hints ++ [h] }

/-- PHASE_HINT passes to the power controller and completes at acceptance (R318). -/
def execPhaseHint (r : RingId) (s : State) : Host.Outcome State Fault Refusal :=
  doneKeep s (runPacket s (refOf r) (· == 5) (fun _ _ b => firstBad [
    (32, decide (1 ≤ fieldAt b 32 1 ∧ fieldAt b 32 1 ≤ 4)), (34, resZero b 34 2), (36, decide (fieldAt b 36 4 ≤ 100000)),
    (40, decide (1 ≤ fieldAt b 40 4 ∧ fieldAt b 40 4 ≤ 10000000)), (44, resZero b 44 20)])
    (fun s _ x b => .ends (addHint s {
      vd := x.fn, phase := fieldAt b 32 1, level := fieldAt b 33 1, start := s.s0 + 800 * fieldAt b 36 4,
      stop := s.s0 + 800 * (fieldAt b 36 4 + fieldAt b 40 4) }) stOk 0 0 none))

/- MOVE_LIST. -/

/-- The checks of a move-list entry's fields (R203). -/
def moveEntryOk (b : List Byte) : Bool :=
  let kind := fieldAt b 2 1
  let level := fieldAt b 3 1
  decide (1 ≤ kind ∧ kind ≤ 4) && (if kind = 3 then level = 1 || level = 2 else level = 0) && resZero b 4 4 && resZero b 25 7

/-- MOVE_LIST: the list is read and checked at acceptance; its entries then run by MOVE_ENTRY_START (R203, R204). -/
def runMove (s : State) (p : PktRef) (x : Ring) (b : List Byte) : PktOut :=
  let va := fieldAt b 32 8
  let n := fieldAt b 40 4
  match rangeOf s x.fn x.ctx false va (32 * n) with
  | .error r => pktFails s (walkErr va x.ctx 0 r)
  | .ok ps =>
    match readPieces s x.fn ps with
    | (_, some a) => pktFails s (memErr s a)
    | (bs, none) =>
      let es := (List.range n).map (fun i => sliceB bs (32 * i) 32)
      if es.all moveEntryOk then
        let id := s.xlt.nextMove
        .running { s with xlt := { s.xlt with
          nextMove := id + 1
          moves := put s.xlt.moves id { pkt := p, fn := x.fn, ctx := x.ctx, va := va, entries := es, results := List.replicate n 0 } } }
      else .ends s stField 0 32 (some (fieldErr p 32))

def execMoveList (r : RingId) (s : State) : Host.Outcome State Fault Refusal :=
  doneKeep s (runPacket s (refOf r) (· == 6) (fun _ _ b => firstBad [
    (32, fieldAt b 32 8 % 32 = 0 && decide (fieldAt b 32 8 < 2 ^ 55)),
    (40, decide (1 ≤ fieldAt b 40 4 ∧ fieldAt b 40 4 ≤ 65536)), (44, resZero b 44 20)]) runMove)

end Sys2Proof.Machine
end

