-- ==== Sys2Proof/Machine/Resident.lean ====
section
/-! DEFINITION. Resident tasks and work queues (R298, R314–R317). -/

namespace Sys2Proof.Machine

def State.task? (s : State) (t : Nat) : Option Task := look s.gfe.tasks t
def State.modTask (s : State) (t : Nat) (f : Task → Task) : State := { s with gfe := { s.gfe with tasks := adjust s.gfe.tasks t f } }

/-- Resident tasks on a core. -/
def coreTasks (s : State) (c : Nat) : Nat := (s.gfe.tasks.filter (fun p => engCore p.2.engine = c)).length

/-- Whether an engine may hold a resident task of a VD: a bulk working CG, no spare, not shared (R315). -/
def taskEngine (s : State) (vd e : Nat) : Bool :=
  decide (e < 1536) && (s.vdBulk vd).contains (coreCg (engCore e)) && !s.cgShared (coreCg (engCore e))
    && (s.core (engCore e)).engOk.toNat.testBit (engIdx e)

/-- An assigned page for an endpoint of a function: the lowest free one, with the table's limits (R285; DESIGN CHOICE, log 9). -/
def takePage (s : State) (fn : Nat) (e : Endpoint) : Option (Nat × State) :=
  if s.gfe.pages.length ≥ 32768 then none
  else
    match (List.range 4080).find? (fun i => !has s.gfe.pages (fn * 4096 + 16 + i)) with
    | none => none
    | some i => some (16 + i, { s with gfe := { s.gfe with pages := put s.gfe.pages (fn * 4096 + 16 + i) e } })

/- Work queues. -/

/-- CREATE_WQ (R298, R314). -/
def runCreateWq (s : State) (p : PktRef) (x : Ring) (b : List Byte) : PktOut :=
  let ctx := fieldAt b 32 2
  let base := fieldAt b 40 8
  if !ctxLive s x.fn ctx then .ends s stNoObject 0 0 none
  else
    match devRange s x.fn ctx base (64 + 64 * 2 ^ fieldAt b 34 1) true with
    | .field => .ends s stField 0 40 (some (fieldErr p 40))
    | .fail e => pktFails s e
    | .ok _ =>
      match lowestFree s.gfe.wqs 0 4096 with
      | none => .ends s stNoResource 0 0 none
      | some w =>
        let q : Wq := { fn := x.fn, ctx := ctx, log2 := fieldAt b 34 1, base := base }
        if (fieldAt b 35 1).testBit 0 then
          match takePage s x.fn (.wq w) with
          | none => .ends s stNoResource 0 0 none
          | some (pg, s) => .ends (s.setWq w { q with page := some pg }) stOk (w + pg * 65536) 0 none
        else .ends (s.setWq w q) stOk w 0 none

def execCreateWq (r : RingId) (s : State) : Host.Outcome State Fault Refusal :=
  doneKeep s (runPacket s (refOf r) (· == 0x8B) (fun _ _ b => firstBad [
    (34, decide (4 ≤ fieldAt b 34 1 ∧ fieldAt b 34 1 ≤ 12)), (35, decide (fieldAt b 35 1 < 2)), (36, resZero b 36 4),
    (40, decide (fieldAt b 40 8 + 64 + 64 * 2 ^ fieldAt b 34 1 ≤ 2 ^ 55)), (48, resZero b 48 16)]) runCreateWq)

/-- The error record of a work queue's task whose queue goes away (DEDUCED, log 22). -/
def dropWq (s : State) (w : Nat) (e : ErrRec) : State :=
  match s.wq? w with
  | none => s
  | some x =>
    let s := match x.task with | some t => endTask s t (some e) | none => s
    freePages { s with gfe := { s.gfe with wqs := del s.gfe.wqs w } } (fun p => decide (p = .wq w))

def execDestroyWq (r : RingId) (s : State) : Host.Outcome State Fault Refusal :=
  doneKeep s (runPacket s (refOf r) (· == 0x8C) (fun _ _ b => firstBad [(34, resZero b 34 30)]) (fun s _ x b =>
    match s.wq? (fieldAt b 32 2) with
    | none => .ends s stNoObject 0 0 none
    | some q =>
      if q.fn ≠ x.fn ∨ !ctxLive s x.fn q.ctx then .ends s stNoObject 0 0 none
      else .ends (dropWq s (fieldAt b 32 2) { cause := 0x0004, detail := natLe 2 q.ctx }) stOk 0 0 none))

/-- A task's HEAD as the device writes it into the control block (R314). -/
def writeHead (s : State) (q : Wq) : State :=
  match writeVa s q.fn q.ctx q.base (natLe 4 q.sh.head) with
  | .ok s => s
  | .error _ => s

/- Tasks. -/

/-- START_RESIDENT: the task runs once its engine holds no tile; until then, and without a buffer slot, the packet
waits (R292, R315; DEDUCED, log 23). -/
def runStartResident (s : State) (p : PktRef) (x : Ring) (b : List Byte) : PktOut :=
  let e := fieldAt b 38 2
  let su := fieldAt b 40 2
  let fieldFail (o : Nat) : PktOut := .ends s stField 0 o (some (fieldErr p o))
  match look s.gfe.programs (fieldAt b 32 4), s.wq? (fieldAt b 36 2) with
  | some g, some q =>
    if g.fn ≠ x.fn ∨ q.fn ≠ x.fn ∨ !ctxLive s x.fn q.ctx then .ends s stNoObject 0 0 none
    else if q.task.isSome then fieldFail 36
    else if !taskEngine s x.fn e ∨ coreTasks s (engCore e) ≥ 2 ∨ (engTask s e).isSome then fieldFail 38
    else if su ≠ 0xFFFF ∧ (!taskEngine s x.fn su ∨ coreCg (engCore su) = coreCg (engCore e) ∨ coreTasks s (engCore su) ≥ 2) then
      fieldFail 40
    else
      match readParam s x.fn q.ctx (fieldAt b 48 8) (fieldAt b 42 2) with
      | .error er => pktFails s er
      | .ok par =>
        if (s.eng e).run.isSome then .wait
        else
          match freeSlot s (engCore e), lowestFree s.gfe.tasks 1 (2 ^ 32) with
          | some k, some t =>
            let back := (s.eng e).queue
            let s := s.modEng e (fun y => { y with queue := [] })
            let s := s.modCore (engCore e) (fun c => { c with tq := back ++ c.tq })
            let cb := sliceB par 0 4096
            let s := deliverCb (useSlot s (engCore e) k) x.fn (engCore e) k cb
            let s := { s with gfe := { s.gfe with
              tasks := put s.gfe.tasks t { fn := x.fn, ctx := q.ctx, program := fieldAt b 32 4, wq := fieldAt b 36 2, engine := e,
                                           successor := if su = 0xFFFF then none else some su, signal := p.signal, cbSlot := k, cb := cb }
              wqs := put s.gfe.wqs (fieldAt b 36 2) { q with task := some t } } }
            -- the completion reports the task; its SIGNAL belongs to the task's end
            .running (finishPkt s { p with signal := none } x.fn stOk t 0 0 none)
          | _, _ => .wait
  | _, _ => .ends s stNoObject 0 0 none

def execStartResident (r : RingId) (s : State) : Host.Outcome State Fault Refusal :=
  doneKeep s (runPacket s (refOf r) (· == 0x89) (fun _ _ b => firstBad [
    (42, decide (fieldAt b 42 2 ≤ 4096)), (44, resZero b 44 4), (48, decide (fieldAt b 48 8 < 2 ^ 55)), (56, resZero b 56 8)])
    runStartResident)

/-- Stop a task at its next wait: at once where it waits now (R315, R257, R339). -/
def stopTask (s : State) (t : Nat) (p : Option PktRef) : State :=
  match s.task? t with
  | none => s
  | some x =>
    let s := s.modTask t (fun x => { x with stopPend := true, stopSrc := 0, stopPkts := x.stopPkts ++ p.toList })
    if x.st = .waiting then endTask s t none else s

def execStopResident (r : RingId) (s : State) : Host.Outcome State Fault Refusal :=
  doneKeep s (runPacket s (refOf r) (· == 0x8A) (fun _ _ b => firstBad [(36, resZero b 36 28)]) (fun s p x b =>
    match s.task? (fieldAt b 32 4) with
    | none => .ends s stNoObject 0 0 none
    | some t => if t.fn ≠ x.fn then .ends s stNoObject 0 0 none else .running (stopTask s (fieldAt b 32 4) (some p))))

/-- Restart a task at ENTRY on an engine, with its constant buffer; the engine's queued tiles go back to its core. A move
to a core without a free slot waits for one (R317; DEDUCED, log 23). -/
def restartTask (s : State) (t e : Nat) : State :=
  match s.task? t with
  | none => s
  | some x =>
    let s := dropSlot s (engCore x.engine) x.cbSlot
    match freeSlot s (engCore e) with
    | none => s.modTask t (fun x => { x with engine := e, successor := none, st := .moving, cbSlot := 32 })
    | some k =>
      let back := (s.eng e).queue
      let s := s.modCore (engCore e) (fun c => { c with tq := back ++ c.tq })
      let s := s.modEng e (fun y => { y with queue := [] })
      let s := deliverCb (useSlot s (engCore e) k) x.fn (engCore e) k x.cb
      s.modTask t (fun x => { x with engine := e, successor := none, st := .running, cbSlot := k, stopSrc := 0,
                                     stopPend := x.stopPend && decide (x.stopSrc ≠ 1), restarts := x.restarts + 1 })

/-- Move a task off its engine, or end it with the cause "resident engine lost" (R317). -/
def moveTask (s : State) (t : Nat) : State :=
  match s.task? t with
  | none => s
  | some x =>
    match x.successor with
    | some e => restartTask s t e
    | none => endTask s t (some { cause := 0x0013, detail := natLe 4 t ++ natLe 2 x.engine })

/-- Tasks whose engine's core group is in a list. -/
def tasksOn (s : State) (gs : List Nat) : List Nat :=
  (s.gfe.tasks.filter (fun p => gs.contains (coreCg (engCore p.2.engine)))).map (·.1)

/-- WQ_WAIT: the task has handled `n` more entries and waits on its queue (R289, R314, R316). A pending stop ends it
here; it goes on where entries are published. -/
def wqWait (s : State) (t n : Nat) : State :=
  match s.task? t with
  | none => s
  | some x =>
    if x.st ≠ .running then s
    else
      let s := match s.wq? x.wq with
        | none => s
        | some q =>
          let k := min n (shakeWaiting q.sh)
          let sh : Shake := { q.sh with head := (q.sh.head + k) % 2 ^ 32 }
          let sh : Shake := if sh.head = sh.tail then { sh with pend := false, st := .idle } else sh
          if k = 0 then s.setWq x.wq { q with sh := sh } else writeHead (s.setWq x.wq { q with sh := sh }) { q with sh := sh }
      if x.stopPend then (if x.stopSrc = 1 then moveTask s t else endTask s t none)
      else
        match s.wq? x.wq with
        | some q => if q.sh.head = q.sh.tail then s.modTask t (fun x => { x with st := .waiting }) else s
        | none => s

def execWqWait (t : W32) (n : Fin 4097) (s : State) : Host.Outcome State Fault Refusal := doneKeep s (wqWait s t.toNat n.val)

/-- RESIDENT_TASK_WAKE: the wake that a tail posted reaches the waiting task (R289, R316). A task whose move waits for a
slot restarts once there is one (R317; DEDUCED, log 23). -/
def taskWake (s : State) (t : Nat) : State :=
  match s.task? t with
  | none => s
  | some x =>
    if x.st = .moving then restartTask s t x.engine
    else
    match s.wq? x.wq with
    | some q => if x.st = .waiting ∧ q.sh.st = .active then s.modTask t (fun x => { x with st := .running }) else s
    | none => s

def execResidentTaskWake (t : W32) (s : State) : Host.Outcome State Fault Refusal := doneKeep s (taskWake s t.toNat)

/-- RESIDENT_TASK_EXIT: the program ends (R315). -/
def execResidentTaskExit (t : W32) (s : State) : Host.Outcome State Fault Refusal := doneKeep s (endTask s t.toNat none)

/-- WQ_SIGNAL: an engine publishes a new tail of a work queue of its VD's function (R286, R314). -/
def execWqSignal (e : EngId) (w : Fin 4096) (tail : W32) (s : State) : Host.Outcome State Fault Refusal :=
  doneKeep s (match s.wq? w.val with
    | some x => if s.engVd e.val = some x.fn ∧ ctxLive s x.fn x.ctx then wqTail s w.val tail.toNat else s
    | none => s)

end Sys2Proof.Machine
end

