-- ==== Sys2Proof/Machine/ServeOps.lean ====
section
/-! DEFINITION. Requests of the serving loop: response entries, request records, and how requests and sequences end
(R113–R125, R145, R482). -/

namespace Sys2Proof.Machine

/-- A 128-byte response entry (R117); the phase, REQ_HEAD and AMBER_SEQ follow when it is posted. -/
def rspOf (kind status nTok finish reqId generated : Nat) (logprob : W32) (drafts : Nat) (payload : List Byte) : List Byte :=
  natLe 1 kind ++ natLe 1 status ++ natLe 1 nTok ++ natLe 1 finish ++ natLe 4 0 ++ natLe 8 reqId ++ natLe 4 generated
    ++ natLe 4 0 ++ natLe 4 logprob.toNat ++ natLe 2 drafts ++ natLe 2 0 ++ sliceB payload 0 68 ++ List.replicate 28 0

def tokBytes (ts : List Nat) : List Byte := ts.flatMap (natLe 4)

/-- The error record of a request that fails (R122, R338). -/
def serveErr (reqId q status : Nat) : ErrRec :=
  { cause := 0x000F, source := 2, detail := natLe 8 reqId ++ natLe 2 q ++ natLe 1 status }

/-- A final entry with what its fence receives once it is posted (R122). -/
def finalRsp (q reqId status fence value : Nat) (bytes : List Byte) : RspEntry :=
  { bytes := bytes
    fence := if fence = 0xFFFFFFFF then none else some (fence, if status = 0 ∨ status = 0x0E then value else errValue)
    err := if status = 0 ∨ status = 0x0E then none else some (serveErr reqId q status) }

/-- The bytes of a request entry that a digest covers: the fields of R144 read as 0 (R145). -/
def digestEntry (e : List Byte) : List Byte :=
  let e := sliceB e 0 256
  let flags := fieldAt e 1 1 / 2 * 2
  let e := pokeB e 1 [BitVec.ofNat 8 flags, 0]
  let e := pokeB e 8 (List.replicate 24 0)
  pokeB e 84 (List.replicate 12 0)

/-- The current generation number of a service's MAIN_ROUTINE. -/
def mainGen (s : State) (v : Svc) : Nat := ((curGen s v.fn v.mainRoutine).map (·.gen)).getD 0

/-- What a REQUEST record says of one request (R482). -/
def requestPayload (s : State) (svc : Nat) (v : Svc) (q : Nat) (entry : List Byte) (status finish generated : Nat)
    (input output : List Byte) : List Byte :=
  natLe 4 svc ++ natLe 2 q ++ natLe 1 (fieldAt entry 0 1) ++ natLe 1 status ++ natLe 8 (fieldAt entry 8 8)
    ++ natLe 8 (if fieldAt entry 0 1 = 1 then fieldAt entry 40 8 else 0) ++ natLe 1 (b2n (ctxFigures s v.fn v.ctx)) ++ natLe 1 finish
    ++ natLe 2 (mainGen s v) ++ natLe 4 v.mainRoutine ++ natLe 4 (if fieldAt entry 0 1 = 1 then fieldAt entry 4 4 else 0)
    ++ natLe 4 generated ++ sha384 (digestEntry entry ++ input) ++ sha384 output

/-- Append a request's record and queue its final entry behind it (R28, R295). -/
def endRequest (s : State) (svc : Nat) (v : Svc) (q : Nat) (entry : List Byte) (status finish generated : Nat)
    (input output : List Byte) (r : RspEntry) : State :=
  match s.qp? q with
  | none => s
  | some x =>
    amberAppend s x.fn 0x0005 x.ctx (requestPayload s svc v q entry status finish generated input output) (.rsp q r)

def State.service? (s : State) (h : Nat) : Option Service := look s.gfe.services h
def State.setService (s : State) (h : Nat) (x : Service) : State := { s with gfe := { s.gfe with services := put s.gfe.services h x } }
def State.modService (s : State) (h : Nat) (f : Service → Service) : State :=
  { s with gfe := { s.gfe with services := adjust s.gfe.services h f } }
def State.modSeq (s : State) (h k : Nat) (f : Seq → Seq) : State :=
  s.modService h (fun x => { x with seqs := adjust x.seqs k f })

/-- The U32 tokens of a byte list. -/
def toksOf (bs : List Byte) : List Nat := (List.range (bs.length / 4)).map (fun i => fieldAt bs (4 * i) 4)

/- Parked state (R275, R386, R387). -/

/-- PARK_KEY of a sequence: VD, number of the service in its VD, slot and admission count (R386). -/
def parkKey (x : Service) (slot order : Nat) : Nat := x.d.vd + 64 * (x.idx % 16) + 1024 * (slot % 65536) + 2 ^ 26 * (order % 2 ^ 38)

/-- STATE in a PARK record, in the order R275 lists the states (DESIGN CHOICE, log 25). -/
def parkCode : ParkSt → Nat
  | .parking => 0
  | .parked => 1
  | .restoring => 2
  | .transferring => 3

/-- The PARK record of an ownership record (R275, R482). -/
def parkRecord (s : State) (vd key : Nat) (r : ParkRec) (outcome : Nat) : State :=
  amberAppend s vd 0x0008 0xFFFF
    (natLe 8 key ++ natLe 8 r.handle ++ natLe 4 r.epoch ++ natLe 2 r.pool ++ natLe 2 r.nextPool ++ natLe 1 (parkCode r.st)
      ++ natLe 1 outcome) .none

/-- Send a PARK frame to a pool by a port (R386, R387). -/
def sendPark (s : State) (port pool op result key handle epoch newEpoch other addr bytes : Nat) : State :=
  let body := natLe 1 op ++ natLe 1 result ++ List.replicate 6 0 ++ natLe 8 key ++ natLe 8 handle ++ natLe 4 epoch ++ natLe 4 newEpoch
    ++ natLe 2 other ++ List.replicate 6 0 ++ natLe 8 addr ++ natLe 8 bytes ++ List.replicate 8 0
  portSend s port { type := 0x20, vc := 3, dst := pool, src := s.talko.devId, payload := body }

/-- Tell the pool to free a parked state and forget its record (R247, R387). -/
def freePark (s : State) (key : Nat) : State :=
  match look s.gfe.parks key with
  | none => s
  | some r =>
    let s := sendPark s r.port r.pool 7 0 key r.handle r.epoch 0 0 0 0
    parkRecord { s with gfe := { s.gfe with parks := del s.gfe.parks key } } (key % 64) key r 0

/-- End a live sequence: its pages, its slot and its parked state are free, its record is appended, and FINAL follows it
(R117, R125). -/
def endSeq (s : State) (h k status finish : Nat) (stepToks : List Nat) (lp : W32) (drafts : Nat) : State :=
  match s.service? h with
  | none => s
  | some x =>
    match look x.seqs k with
    | none => s
    | some q =>
      let s := s.setService h { x with seqs := del x.seqs k }
      let s := ((s.gfe.parks.filter (fun r => r.2.svc = h ∧ r.2.seq = k)).map (·.1)).foldl freePark s
      let n := q.generated
      let bytes := rspOf 3 status stepToks.length finish q.req.reqId n (if q.req.flags.testBit 1 then lp else 0) drafts (tokBytes stepToks)
      endRequest s h x.d q.req.qp q.req.entry status finish n (tokBytes (q.toks.take q.req.promptLen))
        (tokBytes ((q.toks.drop q.req.promptLen).take n))
        (finalRsp q.req.qp q.req.reqId status q.req.fence q.req.fenceValue bytes)

/-- The prompt of a queued request, as far as it can be read. -/
def promptBytes (s : State) (g : GenReq) : List Byte :=
  match s.qp? g.qp with
  | none => []
  | some x => match readVa s x.fn x.ctx g.promptAddr (4 * g.promptLen) with
    | .ok (bs, _) => bs
    | .error _ => []

/-- End a queued GENERATE request with a FINAL of no tokens (R119, R124). -/
def endQueued (s : State) (h : Nat) (v : Svc) (g : GenReq) (status finish : Nat) : State :=
  endRequest s h v g.qp g.entry status finish 0 (promptBytes s g) []
    (finalRsp g.qp g.reqId status g.fence g.fenceValue (rspOf 3 status 0 finish g.reqId 0 0 0 []))

/-- The input of a SCORE request, as far as it can be read. -/
def inputBytesOf (s : State) (v : Svc) (r : ScoreReq) : List Byte :=
  match s.qp? r.qp with
  | none => []
  | some x => match readVa s x.fn x.ctx r.inAddr v.inputBytes with
    | .ok (bs, _) => bs
    | .error _ => []

/-- End a SCORE request with its result entry (R117, R119). -/
def endScore (s : State) (h : Nat) (v : Svc) (r : ScoreReq) (status : Nat) (late : Bool) (out : List Byte) : State :=
  endRequest s h v r.qp r.entry status 0 0 (inputBytesOf s v r) out
    (finalRsp r.qp r.reqId status r.fence r.fenceValue
      (rspOf 5 status 0 (b2n late) r.reqId 0 0 0 (out.take (min 68 v.outputBytes))))

/-- Queue pairs of a service, in handle order. -/
def svcQps (s : State) (h : Nat) : List (Nat × Qp) := s.gfe.qps.filter (fun p => p.2.service = h)

/-- CANCEL_ACK (R119, R124). -/
def cancelAck (s : State) (q id : Nat) (found : Bool) : State :=
  postRsp s q { bytes := rspOf 6 (if found then 0 else 0x0F) 0 0 id 0 0 0 [] }

/-- Every live and queued request of a service ends with SERVICE_DOWN (R113). -/
def serviceDown (s : State) (h : Nat) : State :=
  match s.service? h with
  | none => s
  | some x =>
    let s := (keys x.seqs).foldl (fun s k => endSeq s h k 0x10 5 [] 0 0) s
    let s := (svcQps s h).foldl (fun s p =>
      let s := s.modQp p.1 (fun y => { y with queue := [], cancels := [] })
      let s := p.2.queue.foldl (fun s g => endQueued s h x.d g 0x10 5) s
      p.2.cancels.foldl (fun s c => cancelAck s p.1 c.1 false) s) s
    let s := (x.scores ++ x.batch).foldl (fun s r => if r.entry = [] then s else endScore s h x.d r 0x10 false []) s
    s.modService h (fun y => { y with scores := [], batch := [], plan := [] })

/-- Take a service out of the device; its parked state is freed at the pools. -/
def dropService (s : State) (h : Nat) : State :=
  let s := { s with gfe := { s.gfe with services := del s.gfe.services h } }
  ((s.gfe.parks.filter (fun p => p.2.svc = h)).map (·.1)).foldl freePark s

/-- Whether a step or micro-batch of a service is under way. -/
def stepRunning (x : Service) : Bool :=
  match x.st with
  | .run | .sample | .commit => true
  | _ => false

/-- Deregistration completes at a batch-step boundary (R113). -/
def settleDereg (s : State) (h : Nat) : State :=
  match s.service? h with
  | none => s
  | some x =>
    match x.dereg with
    | some p => if stepRunning x then s else finishPkt (dropService (serviceDown s h) h) p x.d.fn stOk 0 0 0 none
    | none => s

/- Queue pairs that end. -/

/-- The error record of a request of a destroyed queue pair (R338). -/
def qpErr (reqId q : Nat) : ErrRec := { cause := 0x0010, source := 2, detail := natLe 8 reqId ++ natLe 2 q }

def failIf (s : State) (fn fence : Nat) (e : ErrRec) : State := if fence = 0xFFFFFFFF then s else failFence s fn fence e

/-- A response that will not be posted any more: the fence of its request takes the error value. -/
def failRsp (s : State) (fn q : Nat) (r : RspEntry) : State :=
  match r.fence with
  | some (i, _) => failFence s fn i (qpErr (fieldAt r.bytes 8 8) q)
  | none => s

/-- Remove a queue pair and end its requests without responses; unless `quiet`, their fences take the error value with
"queue pair destroyed" (R298, R339). -/
def destroyQpAt (s : State) (q : Nat) (quiet : Bool) : State :=
  match s.qp? q with
  | none => s
  | some x =>
    let mine (d : Deferred) : Bool := match d with | .rsp n _ => n = q | _ => false
    let held : List RspEntry := (s.chain x.fn).held.filterMap (fun a => match a.after with | .rsp n r => if n = q then some r else none | _ => none)
    let s := s.modChain x.fn (fun c => { c with held := c.held.map (fun a => if mine a.after then { a with after := .none } else a) })
    let s := { s with ready := s.ready.filter (fun p => !mine p.1) }
    let live : List (Nat × Nat) := match s.service? x.service with
      | some v => (v.seqs.filter (fun p => p.2.req.qp = q)).map (fun p => (p.2.req.fence, p.2.req.reqId))
          ++ ((v.scores ++ v.batch).filter (fun r => r.qp = q ∧ r.entry ≠ [])).map (fun r => (r.fence, r.reqId))
      | none => []
    let s := s.modService x.service (fun v => { v with
      seqs := v.seqs.filter (fun p => p.2.req.qp ≠ q)
      scores := v.scores.filter (fun r => r.qp ≠ q)
      batch := v.batch.map (fun r => if r.qp = q then { r with entry := [] } else r) })
    let lost := (s.gfe.parks.filter (fun p => match s.service? p.2.svc with | some v => !has v.seqs p.2.seq | none => false)).map (·.1)
    let s := lost.foldl freePark s
    let s := freePages { s with gfe := { s.gfe with qps := del s.gfe.qps q } } (fun e => decide (e = .qpReq q) || decide (e = .qpRsp q))
    if quiet then s
    else
      let s := (live ++ x.queue.map (fun g => (g.fence, g.reqId))).foldl (fun s p => failIf s x.fn p.1 (qpErr p.2 q)) s
      (held ++ x.overflow).foldl (fun s r => failRsp s x.fn q r) s

end Sys2Proof.Machine
end

