-- ==== Sys2Proof/Machine/Abort.lean ====
section
/-! DEFINITION. The forced abort of a context and function reset (R201, R328–R331, R339–R344). -/

namespace Sys2Proof.Machine

/-- Append a RESET record: its kind, cause and unit (R482, R505). -/
def resetRecord (s : State) (vd kind cause unit : Nat) : State :=
  amberAppend s vd 0x000A 0xFFFF (natLe 1 kind ++ [0] ++ natLe 2 cause ++ natLe 4 unit) .none

/-- Reset an engine for a cause, with its record in the chain of the VD that holds the core (R505, R506, R514). -/
def engineResetFor (s : State) (e cause : Nat) : State :=
  let s := resetEngine s e
  match s.engVd e with
  | some v => resetRecord s v 2 cause e
  | none => s

/-- The error record of an owner that was destroyed (R338). -/
def ownerErr (ctx ptag seq : Nat) : ErrRec :=
  { cause := 0x0004, source := 6, detail := natLe 2 ctx ++ [0, 0] ++ natLe 4 ptag ++ natLe 8 seq }

/-- Open faults and host-page waits of a context end as ABORT (R201). -/
def abortFaults (s : State) (fn c : Nat) : State :=
  let ids := (s.xlt.faults.filter (fun p => p.2.fn = fn && p.2.ctx = c)).map (·.1)
  let s := ids.foldl (fun s id => endFault s id (some 0x0008)) s
  { s with xlt := { s.xlt with pageReqs := s.xlt.pageReqs.filter (fun q => !(q.fn = fn && q.ctx = c)) } }

/-- t0 of a forced abort: nothing more of the context is accepted, what was not accepted is discarded, queued requests,
open faults and move lists end, and its resident tasks are told to stop (R339). -/
def beginAbort (s : State) (fn c : Nat) (p : Option PktRef) : State :=
  match s.ctx? fn c with
  | none => s
  | some x =>
    if x.st ≠ .live then s
    else
      let s := s.setCtx fn c { x with st := .draining, destroyPkt := p, rootHeld := false }
      let mine (r : Ring) : Bool := r.fn = fn && r.ctx = c
      let s := { s with gfe := { s.gfe with
        rings := mapVals s.gfe.rings (fun _ r => if mine r then { r with fetched := [], waitFence := none } else r)
        qps := mapVals s.gfe.qps (fun _ q => if q.fn = fn ∧ q.ctx = c then { q with queue := [], cancels := [] } else q)
        services := mapVals s.gfe.services (fun _ v => { v with scores := v.scores.filter (fun r =>
          match s.qp? r.qp with | some q => !(q.fn = fn && q.ctx = c) | none => true) }) } }
      let s := abortFaults s fn c
      let s := { s with xlt := { s.xlt with
        moves := s.xlt.moves.filter (fun q => !(q.2.fn = fn && q.2.ctx = c)) } }
      (s.gfe.tasks.filter (fun t => t.2.fn = fn && t.2.ctx = c)).foldl (fun s t => stopTask s t.1 none) s

/-- Take a launch out without a completion: its slots, partial slots and Relay groups are free (R339). -/
def dropLaunch (s : State) (lid : Nat) : State :=
  match s.launch? lid with
  | none => s
  | some l =>
    let s := dropTiles s lid
    let busy := (s.engs.filter (fun p => match p.2.run with | some r => r.tile.launch = lid | none => false)).map (·.1)
    let s := busy.foldl (fun s e => engineResetFor s e 4) s
    let s := dropTiles s lid
    let ds := (s.xlt.descs.filter (fun p => match p.2.owner with | .node k _ => k = lid | .packet _ => false)).map (·.1)
    let s := ds.foldl dropDesc s
    let s := l.cores.foldl flushHostLines s
    let s := (l.cores.zip l.slots).foldl (fun s p => dropSlot s p.1 p.2) s
    let s := { s with cores := mapVals s.cores (fun _ k => { k with slots := k.slots.filter (fun q => q.2.launch ≠ lid) }) }
    settleRoutine (closeGroups { s with gfe := { s.gfe with launches := del s.gfe.launches lid } } lid) l.routine

/-- Whether a launch runs a routine generation or a program that is registered with a context (R329). -/
def runsOf (s : State) (fn c : Nat) (l : Launch) : Bool :=
  l.fn = fn &&
    ((match look s.gfe.routines l.routine with
      | some r => (r.cur.toList ++ r.old.toList).any (fun g => g.gen = l.gen && g.ctx = c)
      | none => false)
    || l.programs.any (fun p => match look s.gfe.programs p with | some g => g.ctx = c | none => false))

/-- Take a resident task out without signalling its fence: the forced abort signals it at t3 (R339). -/
def dropTask (s : State) (t : Nat) : State := endTask (s.modTask t (fun x => { x with signal := none })) t none

/-- Abandon the transport operations of a context: late responses find none (R339). -/
def dropOps (s : State) (gone : LiftOp → Bool) : State :=
  let ids := (s.talko.ops.filter (fun p => gone p.2)).map (·.1)
  { s with talko := { s.talko with
    ops := s.talko.ops.filter (fun p => !ids.contains p.1)
    ports := mapVals s.talko.ports (fun _ p => { p with
      reads := p.reads.filter (fun u => !ids.contains u.2.op), writes := p.writes.filter (fun u => !ids.contains u.2.op) }) } }

/-- t2 of a forced abort: the squash (R329, R339). -/
def squashCtx (s : State) (fn c : Nat) : State :=
  match s.ctx? fn c with
  | none => s
  | some x =>
    if x.st ≠ .draining then s
    else
      let s := s.setCtx fn c { x with st := .squashing }
      let own := (s.gfe.launches.filter (fun p => p.2.fn = fn && p.2.ctx = c)).map (·.1)
      let others := (s.gfe.launches.filter (fun p => !(p.2.fn = fn && p.2.ctx = c) && runsOf s fn c p.2)).map (·.1)
      let s := own.foldl dropLaunch s
      let s := others.foldl (fun s l => failLaunch s l (ownerErr c x.ptag 0)) s
      let mine := (s.gfe.tasks.filter (fun t => t.2.fn = fn && t.2.ctx = c)).map (·.1)
      let s := mine.foldl (fun s t => dropTask s t) s
      let prog (p : Nat) : Bool := match look s.gfe.programs p with | some g => g.fn = fn && g.ctx = c | none => false
      let using_ := (s.gfe.tasks.filter (fun t => prog t.2.program)).map (·.1)
      let s := using_.foldl (fun s t => endTask s t (some (ownerErr c x.ptag 0))) s
      let ds := (s.xlt.descs.filter (fun p => p.2.fn = fn && p.2.ctx = c)).map (·.1)
      let s := ds.foldl dropDesc s
      let s := dropOps s (fun o => o.fn = fn && o.ctx = c)
      let svcs := (s.gfe.services.filter (fun v => v.2.d.fn = fn && v.2.d.ctx = c)).map (·.1)
      let s := svcs.foldl dropService s
      (s.vdCgs fn).foldl (fun s g => (cgCores g).foldl flushHostLines s) s

def execAbortDrainEnd (f : FnId) (c : Fin 4096) (s : State) : Host.Outcome State Fault Refusal :=
  doneKeep s (squashCtx s f.val c.val)

/-- References that a context holds. -/
def ctxRefs (s : State) (fn c : Nat) : List Nat :=
  (s.obj.refs.filter (fun p => p.1 / 2 ^ 32 = fn && p.2.ctx = c)).map (·.1)

/-- End a reference; the last one releases its object, which signals unless a function reset ended it (R331). -/
def endRef (s : State) (key : Nat) (quiet : Bool) : State :=
  match look s.obj.refs key with
  | none => s
  | some r =>
    let s := { s with obj := { s.obj with refs := del s.obj.refs key } }
    if s.obj.refs.any (fun p => p.2.obj = r.obj) then s
    else
      match look s.obj.objs r.obj with
      | none => s
      | some o =>
        let s := { s with obj := { s.obj with objs := del s.obj.objs r.obj } }
        match o.fence with
        | some (i, v) => if quiet then s else signalFence s (key / 2 ^ 32) i v (if v = errValue then some { source := 6 } else none)
        | none => s

/-- Routines and programs of a context end (R329). -/
def endRegistered (s : State) (fn c : Nat) : State :=
  let cutR (r : Routine) : Routine := if r.fn = fn then
      { r with cur := r.cur.filter (fun g => g.ctx ≠ c), old := r.old.filter (fun g => g.ctx ≠ c) } else r
  { s with gfe := { s.gfe with
    routines := (mapVals s.gfe.routines (fun _ r => cutR r)).filter (fun p => p.2.cur.isSome || p.2.old.isSome)
    programs := s.gfe.programs.filter (fun p => !(p.2.fn = fn && p.2.ctx = c)) } }

/-- Remove a Lift queue; its operations go on (R298, R273). -/
def dropLiftq (s : State) (q : Nat) : State :=
  freePages { s with talko := { s.talko with liftqs := del s.talko.liftqs q } } (fun e => decide (e = .liftq q))

/-- t3 and t4 of a forced abort, after its destruction record: fences take the error value, references end, queues,
routines and programs are destroyed, the number is released and the packet completes (R328–R331, R339). -/
def destroyCtxAt (s : State) (fn c seq : Nat) : State :=
  match s.ctx? fn c with
  | none => s
  | some x =>
    let quiet := (s.fn fn).resetting
    let e := ownerErr c x.ptag seq
    let s := (List.range x.fenceCount).foldl (fun s i => failFence s fn (x.fenceFirst + i) e) s
    let s := (ctxRefs s fn c).foldl (fun s k => endRef s k quiet) s
    let s := match x.counterSet with
      | some k => { s with obj := { s.obj with sets := del s.obj.sets k } }
      | none => s
    let rings := (s.gfe.rings.filter (fun r => r.2.fn = fn && r.2.ctx = c)).map (·.1)
    let s := rings.foldl (fun s r => destroyRingAt s (.cmd r) true) s
    let qps := (s.gfe.qps.filter (fun q => q.2.fn = fn && q.2.ctx = c)).map (·.1)
    let s := qps.foldl (fun s q => destroyQpAt s q true) s
    let wqs := (s.gfe.wqs.filter (fun q => q.2.fn = fn && q.2.ctx = c)).map (·.1)
    let s := wqs.foldl (fun s w => dropWq s w e) s
    let lqs := (s.talko.liftqs.filter (fun q => q.2.fn = fn && q.2.ctx = c)).map (·.1)
    let s := lqs.foldl dropLiftq s
    let s := endRegistered s fn c
    let s := { s with obj := { s.obj with ctxs := del s.obj.ctxs (ctxKey fn c) } }
    match x.destroyPkt with
    | some p => finishPkt s p fn stOk 0 0 0 none
    | none => s

/-- Handle what Amber appends released besides ring completions: responses are posted with their AMBER_SEQ, and contexts
reach t3 (R117, R339). -/
def settleItem (s : State) (d : Deferred) (seq : Nat) : State :=
  match d with
  | .rsp q r => postRsp s q { r with bytes := pokeB r.bytes 100 (natLe 8 seq) }
  | .destroyDone k => destroyCtxAt s (k / 4096) (k % 4096) seq
  | .unsealDone v =>
    { s with sec := { s.sec with unseals := adjust s.sec.unseals v (fun u => { u with st := 2, seq := seq }) } }
  | .closeVd _ | .none | .cqe _ _ _ => s

/-- The items of `ready` that are no ends of VDs, until none is left; one round of fuel per item. -/
def settleSome : Nat → State → State
  | 0, s => s
  | f + 1, s =>
    let s := settleCqes s
    match s.ready.find? (fun p => match p.1 with | .closeVd _ => false | _ => true) with
    | none => s
    | some (d, seq) => settleSome f (settleItem { s with ready := s.ready.erase (d, seq) } d seq)

def settle (s : State) : State := settleSome 4096 s

/-- ABORT_SQUASH_DONE: the destruction record is appended, and t3 and t4 follow it (R339, R482). -/
def abortEnd (s : State) (fn c : Nat) : State :=
  match s.ctx? fn c with
  | none => s
  | some x =>
    if x.st ≠ .squashing then s
    else
      settle (amberAppend s fn 0x0009 c
        (natLe 1 2 ++ natLe 1 (b2n x.figures) ++ natLe 2 c ++ natLe 4 x.ptag ++ natLe 4 x.fenceFirst ++ natLe 4 x.fenceCount)
        (.destroyDone (ctxKey fn c)))

def execAbortSquashDone (f : FnId) (c : Fin 4096) (s : State) : Host.Outcome State Fault Refusal :=
  doneKeep s (abortEnd s f.val c.val)

/- Function reset. -/

/-- The COMPOSITION record of a VD (R482). -/
def compRecord (s : State) (v op status : Nat) : State :=
  let x := s.vd v
  amberAppend s v 0x0003 0xFFFF
    (natLe 4 x.gen ++ natLe 1 op ++ natLe 1 status ++ natLe 1 x.cls ++ natLe 1 x.spares.length ++ natLe 8 (maskOf (s.vdCgs v))
      ++ natLe 8 (maskOf (s.vdPairs v)) ++ natLe 4 (maskOf (s.vdPorts v)) ++ natLe 2 x.ways0.toNat ++ natLe 2 x.ways1.toNat) .none

/-- t0 of a function reset: inputs stop, every context's abort starts, invalidation slots in progress are squashed,
Page Requests are abandoned, and an open composition request ends ABORTED (R280, R343). -/
def functionReset (s : State) (fn : Nat) : State :=
  let s := s.modFn fn (fun x => { x with resetting := true, xlt := { x.xlt with
    slots := mapVals x.xlt.slots (fun _ (q : InvSlot) => if q.st = 1 then { q with st := 0 } else q) } })
  let s := { s with xlt := { s.xlt with
    invals := s.xlt.invals.filter (fun p => !(p.2.fn = fn && (match p.2.src with | .slot _ => true | _ => false)))
    pageReqs := s.xlt.pageReqs.filter (fun q => q.fn ≠ fn)
    stalledNoEntry := s.xlt.stalledNoEntry.filter (fun p => p.1 ≠ fn) } }
  let s := (s.fnCtxs fn).foldl (fun s c => beginAbort s fn c none) s
  match (s.vd fn).req with
  | some r => if r.op ≠ 3 ∧ (r.stage = .accepted ∨ r.stage = .memory) then
      compRecord (s.modVd fn (fun v => { v with req := none, lastStatus := 9, leaving := false, leave := 0 })) fn r.op 9 else s
  | none => s

/-- A function's configuration state takes its reset values; the SR-IOV capability and the AER log keep theirs, and the power
state is D0 (R399, R408). -/
def clearPf (s : State) (fn : Nat) : State :=
  s.modPf fn (fun p => { vfEn := p.vfEn, numVfs := p.numVfs, ariHier := p.ariHier, aerUr := p.aerUr,
                         aerPoisonEgress := p.aerPoisonEgress, aerPoisonRx := p.aerPoisonRx, aerTimeout := p.aerTimeout,
                         sealedDrops := p.sealedDrops })

/-- t2 of a function reset: fences, pages and registers are cleared and the record is appended, once every context is
destroyed (R343, R344). -/
def functionResetClear (s : State) (fn : Nat) : State :=
  if !(s.fn fn).resetting ∨ s.fnCtxs fn ≠ [] then s
  else
    let s := { s with
      obj := { s.obj with fences := s.obj.fences.filter (fun p => p.1 / 65536 ≠ fn), refs := s.obj.refs.filter (fun p => p.1 / 2 ^ 32 ≠ fn) }
      gfe := { s.gfe with pages := s.gfe.pages.filter (fun p => p.1 / 4096 ≠ fn), admins := del s.gfe.admins fn }
      fns := del s.fns fn
      dun := { s.dun with mbx := del s.dun.mbx fn } }
    let s := clearPf s fn
    let s := if fn = 0 then { s with pow := { s.pow with railSel := 0, cgSel := 0 }, sec := { s.sec with amberSel := 0 } } else s
    let s := s.modVd fn (fun v => { v with
      leaving := false, changed := false, spareUsed := false, laneChanged := false, vector := 0, noticeEn := false })
    resetRecord s fn 1 0 fn

/-- The VFs that PF0, or C1, carries and has enabled (R397). -/
def vfsOf (s : State) (c1 : Bool) : List Nat :=
  (List.range 64).filter (fun n => decide (1 ≤ n) && vfOn s n && (decide (s.pcie.split ∧ s.pcie.splitPoint < n) == c1))

/-- VF Enable clears on PF0 or C1: the function reset runs on each of its VFs (R399). -/
def vfClear (s : State) (c1 : Bool) : State :=
  let vfs := vfsOf s c1
  let s := vfs.foldl functionReset s
  s.modPf (if c1 then 64 else 0) (fun p => { p with vfEn := false })

/-- The function reset of a function; one of PF0 clears VF Enable as well (R343, R344, R399). -/
def fnReset (s : State) (f : Nat) : State :=
  let s := functionReset s f
  if f = 0 then vfClear s false else s

def execFunctionReset (f : FnId) (s : State) : Host.Outcome State Fault Refusal := doneKeep s (fnReset s f.val)

end Sys2Proof.Machine
end

