-- ==== Sys2Proof/Machine/Admin.lean ====
section
/-! DEFINITION. The admin packets over contexts, rings, routines, programs, services, queue pairs, Lift queues and memory
objects, and the signal slots (R298, R308–R313, R324–R337). -/

namespace Sys2Proof.Machine

def noObject (s : State) : PktOut := .ends s stNoObject 0 0 none
def noResource (s : State) : PktOut := .ends s stNoResource 0 0 none
def fieldAtFails (s : State) (p : PktRef) (off : Nat) : PktOut := .ends s stField 0 off (some (fieldErr p off))
def verifyFails (s : State) (detail : Nat) : PktOut := .ends s stVerify 0 detail none

/- Contexts. -/

/-- Whether a fence range overlaps one of a context of the function (R327). -/
def fenceOverlap (s : State) (fn first count : Nat) : Bool :=
  (s.fnCtxs fn).any (fun c => match s.ctx? fn c with
    | some x => decide (0 < count ∧ 0 < x.fenceCount) && decide (first < x.fenceFirst + x.fenceCount) && decide (x.fenceFirst < first + count)
    | none => false)

/-- The first failing offset of a context descriptor (R181, R326, R327). -/
def ctxBad (s : State) (fn : Nat) (d : List Byte) : Option Nat :=
  let root := fieldAt d 0 8
  let delta := sgn (fieldAt d 8 8) 64
  let mroot := (root : Int) + delta
  firstBad [
    (0, root % 65536 = 0 && tableOk s fn root 65536),
    (8, delta % (pairBytes : Int) = 0 && (!isXl s fn || (delta ≠ 0 && decide (0 ≤ mroot) && tableOk s fn mroot.toNat 65536))),
    (16, fieldAt d 16 8 % 65536 = 0),
    (24, if fieldAt d 16 8 = 0 then fieldAt d 24 2 = 0 else decide (1 ≤ fieldAt d 24 2 ∧ fieldAt d 24 2 ≤ 1024)),
    (26, decide (fieldAt d 26 1 < 8)), (27, resZero d 27 5),
    (32, decide (fieldAt d 32 4 ≤ 65535) && !fenceOverlap s fn (fieldAt d 32 4) (fieldAt d 36 4)),
    (36, decide (fieldAt d 36 4 ≤ 65536 ∧ fieldAt d 32 4 + fieldAt d 36 4 ≤ 65536)),
    (40, decide (fieldAt d 40 1 ≤ 1)), (41, decide (fieldAt d 41 1 < 2)), (42, resZero d 42 2), (48, resZero d 48 16)]

/-- Claim a fence range: value 0, no record, counts and arm cleared (R327). -/
def claimFences (s : State) (fn first count : Nat) : State :=
  (List.range count).foldl (fun s i => writeMirror (s.setFence fn (first + i) {}) fn (first + i)) s

/-- The counter set a new context receives (R349). -/
def newSet (s : State) (fn : Nat) (asked : Bool) : Option Nat :=
  if decide (8 ≤ (s.vdCgs fn).length) || ((s.vd fn).telemetry && asked) then lowestFree s.obj.sets 0 1024 else none

/-- CREATE_CONTEXT (R326–R328). -/
def runCreateContext (s : State) (p : PktRef) (x : Ring) (b : List Byte) : PktOut :=
  let d := readHost s (fieldAt b 32 8) 64
  let fn := x.fn
  match ctxBad s fn d with
  | some o => fieldAtFails s p o
  | none =>
    match (List.range 4096).find? (fun c => (s.ctx? fn c).isNone) with
    | none => noResource s
    | some c =>
      if s.obj.ctxs.length ≥ 16384 then noResource s
      else
        let fl := fieldAt d 26 1
        let set := newSet s fn ((fieldAt d 41 1).testBit 0)
        let s := s.setCtx fn c {
          root := fieldAt d 0 8, mirror := sgn (fieldAt d 8 8) 64, extPool := fieldAt d 16 8, extSlots := fieldAt d 24 2,
          hostEn := fl.testBit 0, priEn := fl.testBit 1, acEn := fl.testBit 2, fenceFirst := fieldAt d 32 4,
          fenceCount := fieldAt d 36 4, figures := decide (fieldAt d 40 1 = 1), counterSet := set, ptag := fieldAt d 44 4 }
        let s := match set with
          | some k => { s with obj := { s.obj with sets := put s.obj.sets k { fn := fn, ctx := c } } }
          | none => s
        let s := claimFences s fn (fieldAt d 32 4) (fieldAt d 36 4)
        let (s, after) := finishAfter s p fn c 0
        .running (settle (amberAppend s fn 0x0009 c
          (natLe 1 1 ++ natLe 1 (fieldAt d 40 1) ++ natLe 2 c ++ natLe 4 (fieldAt d 44 4) ++ natLe 4 (fieldAt d 32 4)
            ++ natLe 4 (fieldAt d 36 4)) after))

def execCreateContext (r : RingId) (s : State) : Host.Outcome State Fault Refusal :=
  doneKeep s (runPacket s (refOf r) (· == 0x80) (fun _ _ b => firstBad [(40, resZero b 40 24)]) runCreateContext)

/-- DESTROY_CONTEXT: its forced abort starts; the packet completes at t4 (R328, R339). -/
def execDestroyContext (r : RingId) (s : State) : Host.Outcome State Fault Refusal :=
  doneKeep s (runPacket s (refOf r) (· == 0x81) (fun _ _ b => firstBad [(34, resZero b 34 30)]) (fun s p x b =>
    if ctxLive s x.fn (fieldAt b 32 2) then .running (beginAbort s x.fn (fieldAt b 32 2) (some p)) else noObject s))

/-- SET_NUMERICS: the mode applies from the next launch accepted (R328). -/
def execSetNumerics (r : RingId) (s : State) : Host.Outcome State Fault Refusal :=
  doneKeep s (runPacket s (refOf r) (· == 0x93) (fun _ _ b => firstBad [
    (34, decide (fieldAt b 34 1 ≤ 1)), (35, resZero b 35 29)]) (fun s _ x b =>
    if ctxLive s x.fn (fieldAt b 32 2) then
      .ends (s.modCtx x.fn (fieldAt b 32 2) (fun c => { c with figures := decide (fieldAt b 34 1 = 1) })) stOk 0 0 none
    else noObject s))

/- Command rings. -/

/-- Whether a packet of a former ring of this number is still in flight, so that the number is not given out. -/
def ringBusy (s : State) (r : Nat) : Bool :=
  let of (p : PktRef) : Bool := p.ring = .cmd r
  let ofD (d : Deferred) : Bool := match d with | .cqe _ q _ => q = .cmd r | _ => false
  s.xlt.descs.any (fun d => match d.2.owner with | .packet p => of p | .node _ _ => false)
    || s.gfe.launches.any (fun l => match l.2.owner with | some p => of p | none => false)
    || s.xlt.moves.any (fun m => of m.2.pkt)
    || s.chains.any (fun c => c.2.held.any (fun h => ofD h.after))
    || s.ready.any (fun d => ofD d.1)

/-- CREATE_RING (R288, R298). -/
def runCreateRing (s : State) (_ : PktRef) (x : Ring) (b : List Byte) : PktOut :=
  if !ctxLive s x.fn (fieldAt b 32 2) then noObject s
  else
    match (List.range 4096).find? (fun n => !has s.gfe.rings n && !ringBusy s n) with
    | none => noResource s
    | some n =>
      match takePage s x.fn (.ringSq n) with
      | none => noResource s
      | some (sp, s1) =>
        match takePage s1 x.fn (.ringCq n) with
        | none => noResource s
        | some (cp, s) =>
          let q : Ring := {
            fn := x.fn, ctx := fieldAt b 32 2, sqLog2 := fieldAt b 34 1, cqLog2 := fieldAt b 35 1, prio := fieldAt b 36 1,
            vector := fieldAt b 38 2, sqBase := fieldAt b 40 8, cqBase := fieldAt b 48 8, report := fieldAt b 56 8,
            sqPage := sp, cqPage := cp }
          .ends (s.setRing (.cmd n) q) stOk (n + sp * 65536 + cp * 2 ^ 32) 0 none

def vaOk (v align : Nat) : Bool := v % align = 0 && decide (v < 2 ^ 55)

def execCreateRing (r : RingId) (s : State) : Host.Outcome State Fault Refusal :=
  doneKeep s (runPacket s (refOf r) (· == 0x82) (fun _ x b => firstBad [
    (34, decide (6 ≤ fieldAt b 34 1 ∧ fieldAt b 34 1 ≤ 16)), (35, decide (6 ≤ fieldAt b 35 1 ∧ fieldAt b 35 1 ≤ 16)),
    (36, decide (fieldAt b 36 1 ≤ 3)), (37, resZero b 37 1), (38, decide (fieldAt b 38 2 ≤ vectorMax x.fn)),
    (40, vaOk (fieldAt b 40 8) 4096), (48, vaOk (fieldAt b 48 8) 4096), (56, vaOk (fieldAt b 56 8) 65536)]) runCreateRing)

/-- DESTROY_RING (R298, R321). -/
def execDestroyRing (r : RingId) (s : State) : Host.Outcome State Fault Refusal :=
  doneKeep s (runPacket s (refOf r) (· == 0x83) (fun _ _ b => firstBad [(34, resZero b 34 30)]) (fun s _ x b =>
    match look s.gfe.rings (fieldAt b 32 2) with
    | none => noObject s
    | some q =>
      if q.fn ≠ x.fn ∨ !ctxLive s x.fn q.ctx then noObject s
      else .ends (destroyRingAt s (.cmd (fieldAt b 32 2)) false) stOk 0 0 none))

/- Routines and programs. -/

/-- Copy an image, and a parameter page where there is one, into a store whose range is translated (R309). -/
def storeImage (s : State) (fn ctx va : Nat) (img : List Byte) (page : Option (List Byte)) : State :=
  let put (s : State) (va : Nat) (bs : List Byte) : State :=
    match rangeOf s fn ctx true va bs.length with
    | .ok ps => writeMirrored s fn (storeDelta s fn ctx) ps bs
    | .error _ => s
  let s := put s va img
  match page with
  | some pg => put s (va + roundUp img.length 65536) pg
  | none => s

def progLive (s : State) (fn h : Nat) : Bool :=
  match look s.gfe.programs h with
  | some g => g.fn = fn
  | none => false

/-- The routine that a generation of an image makes. -/
def genOf (m : RoutineImage) (gen ctx store len : Nat) : RoutineGen :=
  { gen := gen, ctx := ctx, store := store, len := len, nodes := m.nodes, relays := m.relays, programs := m.programs,
    budget := m.budget, service := m.service }

/-- Read, store and check a routine image; the continuation installs it (R308, R309, R569). -/
def withRoutineImage (s : State) (p : PktRef) (fn ctx ptr len store : Nat) (page : Option (List Byte))
    (install : State → RoutineImage → List Byte → PktOut) : PktOut :=
  if len > 2 ^ 20 then verifyFails s 0xFFFF
  else
    match storeRange s fn ctx store len with
    | .field => fieldAtFails s p 48
    | .fail e => pktFails s e
    | .ok _ =>
      let img := readHost s ptr len
      match parseRoutine img (progLive s fn) with
      | .error d => verifyFails (storeImage s fn ctx store img none) d
      | .ok m => install (storeImage s fn ctx store img (some (page.getD m.params))) m img

/-- REGISTER_ROUTINE (R304–R309). -/
def runRegisterRoutine (s : State) (p : PktRef) (x : Ring) (b : List Byte) : PktOut :=
  let ctx := fieldAt b 40 2
  let len := fieldAt b 44 4
  let store := fieldAt b 48 8
  if !ctxLive s x.fn ctx then noObject s
  else
    withRoutineImage s p x.fn ctx (fieldAt b 32 8) len store none (fun s m img =>
      match lowestFree s.gfe.routines 1 (2 ^ 32 - 1) with
      | none => noResource s
      | some h =>
        let s := { s with gfe := { s.gfe with
          routines := put s.gfe.routines h { fn := x.fn, cur := some (genOf m 0 ctx store len) } } }
        let (s, after) := finishAfter s p x.fn h 0
        .running (settle (loadRecord s x.fn ctx 2 0 0 h store len [] (sha384 img) after)))

def execRegisterRoutine (r : RingId) (s : State) : Host.Outcome State Fault Refusal :=
  doneKeep s (runPacket s (refOf r) (· == 0x84) (fun _ _ b => firstBad [(42, resZero b 42 2), (56, resZero b 56 8)])
    runRegisterRoutine)

/-- NEW_GENERATION (R312). -/
def runNewGeneration (s : State) (p : PktRef) (x : Ring) (b : List Byte) : PktOut :=
  let h := fieldAt b 40 4
  let len := fieldAt b 44 4
  let store := fieldAt b 48 8
  match curGen s x.fn h, look s.gfe.routines h with
  | some g, some q =>
    if !ctxLive s x.fn g.ctx then noObject s
    else if q.old.isSome then noResource s
    else
      let page : Except ErrRec (Option (List Byte)) :=
        if (fieldAt b 56 1).testBit 0 then (readPage s x.fn g).map some else .ok none
      match page with
      | .error e => pktFails s e
      | .ok page =>
        withRoutineImage s p x.fn g.ctx (fieldAt b 32 8) len store page (fun s m img =>
          let n := q.nextGen % 65536
          let s := { s with gfe := { s.gfe with
            routines := put s.gfe.routines h { q with cur := some (genOf m n g.ctx store len), old := some g, nextGen := n + 1 } } }
          let s := settleRoutine s h
          let (s, after) := finishAfter s p x.fn (h + n * 2 ^ 32) 0
          .running (settle (loadRecord s x.fn g.ctx 2 0 n h store len [] (sha384 img) after)))
  | _, _ => noObject s

def execNewGeneration (r : RingId) (s : State) : Host.Outcome State Fault Refusal :=
  doneKeep s (runPacket s (refOf r) (· == 0x85) (fun _ _ b => firstBad [
    (56, decide (fieldAt b 56 1 < 2)), (57, resZero b 57 7)]) runNewGeneration)

/-- RETIRE_ROUTINE: the current generation is freed once its launches complete (R312). -/
def execRetireRoutine (r : RingId) (s : State) : Host.Outcome State Fault Refusal :=
  doneKeep s (runPacket s (refOf r) (· == 0x86) (fun _ _ b => firstBad [(36, resZero b 36 28)]) (fun s _ x b =>
    match curGen s x.fn (fieldAt b 32 4) with
    | none => noObject s
    | some _ =>
      .ends (settleRoutine { s with gfe := { s.gfe with routines := adjust s.gfe.routines (fieldAt b 32 4) (fun q =>
        { q with cur := q.cur.map (fun g => { g with retired := true }) }) } } (fieldAt b 32 4)) stOk 0 0 none))

/-- REGISTER_PROGRAM (R313). -/
def runRegisterProgram (s : State) (p : PktRef) (x : Ring) (b : List Byte) : PktOut :=
  let ctx := fieldAt b 40 2
  let len := fieldAt b 44 4
  let store := fieldAt b 48 8
  if !ctxLive s x.fn ctx then noObject s
  else if len < 128 ∨ 64 + 2 ^ 20 < len then verifyFails s 0xFFFF
  else
    match storeRange s x.fn ctx store len with
    | .field => fieldAtFails s p 48
    | .fail e => pktFails s e
    | .ok _ =>
      let img := readHost s (fieldAt b 32 8) len
      let s := storeImage s x.fn ctx store img none
      if !programOk img then verifyFails s 0xFFFF
      else
        match lowestFree s.gfe.programs 1 (2 ^ 32 - 1) with
        | none => noResource s
        | some h =>
          let s := { s with gfe := { s.gfe with programs := put s.gfe.programs h {
            fn := x.fn, ctx := ctx, store := store, codeLen := fieldAt img 8 4, entry := fieldAt img 12 4,
            losBytes := fieldAt img 16 4, spBytes := fieldAt img 20 4 } } }
          let (s, after) := finishAfter s p x.fn h 0
          .running (settle (loadRecord s x.fn ctx 3 0 0 h store len [] (sha384 img) after))

def execRegisterProgram (r : RingId) (s : State) : Host.Outcome State Fault Refusal :=
  doneKeep s (runPacket s (refOf r) (· == 0x87) (fun _ _ b => firstBad [(42, resZero b 42 2), (56, resZero b 56 8)])
    runRegisterProgram)

/-- Whether a routine or task names a program (R321). -/
def programNamed (s : State) (h : Nat) : Bool :=
  s.gfe.routines.any (fun q => (q.2.cur.toList ++ q.2.old.toList).any (fun g => g.programs.contains h))
    || s.gfe.tasks.any (fun t => t.2.program = h)

def execReleaseProgram (r : RingId) (s : State) : Host.Outcome State Fault Refusal :=
  doneKeep s (runPacket s (refOf r) (· == 0x88) (fun _ _ b => firstBad [(36, resZero b 36 28)]) (fun s _ x b =>
    if progLive s x.fn (fieldAt b 32 4) && !programNamed s (fieldAt b 32 4) then
      .ends { s with gfe := { s.gfe with programs := del s.gfe.programs (fieldAt b 32 4) } } stOk 0 0 none
    else noObject s))

/- Services and queue pairs. -/

/-- A service descriptor (R111). -/
def svcOf (d : List Byte) (fn ctx : Nat) : Svc :=
  { fn := fn, ctx := ctx, vd := fn, scoring := decide (fieldAt d 0 1 = 2), kvFormat := fieldAt d 1 1, draftMode := fieldAt d 2 1,
    draftCap := fieldAt d 3 1, lookupN := fieldAt d 4 1, vocab := fieldAt d 8 4, nLayers := fieldAt d 12 2, nKvHeads := fieldAt d 14 2,
    headDim := fieldAt d 16 2, contextMax := fieldAt d 20 4, liveMax := fieldAt d 24 4, pageBytes := fieldAt d 28 4,
    pagePool := fieldAt d 32 8, pageCount := fieldAt d 40 4, stepTokens := fieldAt d 44 4, stepSeqs := fieldAt d 48 2,
    prefillChunk := fieldAt d 52 4, prefillReserve := fieldAt d 56 4, admitHeadroom := fieldAt d 60 4, seqTable := fieldAt d 64 8,
    pageList := fieldAt d 72 8, tokLog := fieldAt d 80 8, mainRoutine := fieldAt d 88 4, scoreBatch := fieldAt d 92 4,
    scoreWindow := fieldAt d 96 4, inputBytes := fieldAt d 100 4, outputBytes := fieldAt d 104 4 }

/-- The page size of R112. -/
def kvPageBytes (v : Svc) : Nat :=
  let e := 2 * v.nLayers * v.nKvHeads * v.headDim
  roundUp (if v.kvFormat ≤ 2 then 16 * e else 16 * (3 * e / 4 + e / 32)) 4096

/-- Whether two of a list of (start, length) regions overlap. -/
def regionsOverlap : List (Nat × Nat) → Bool
  | [] => false
  | r :: t => t.any (fun q => decide (r.1 < q.1 + q.2) && decide (q.1 < r.1 + r.2)) || regionsOverlap t

/-- The first failing offset of a service descriptor (R111, R112); an overlap names PAGE_POOL. -/
def svcBad (d : List Byte) : Option Nat :=
  let v := svcOf d 0 0
  let mx := v.kvFormat = 5 ∨ v.kvFormat = 6
  let within (x lo hi : Nat) : Bool := decide (lo ≤ x ∧ x ≤ hi)
  if fieldAt d 0 1 = 2 then
    firstBad [(1, resZero d 1 87), (92, within v.scoreBatch 1 256), (96, within v.scoreWindow 0 1000),
      (100, within v.inputBytes 1 1048576), (104, within v.outputBytes 1 65536), (108, resZero d 108 20)]
  else
    firstBad [
      (0, fieldAt d 0 1 = 1), (1, [1, 2, 5, 6].contains v.kvFormat), (2, within v.draftMode 0 2), (3, within v.draftCap 0 16),
      (4, if v.draftMode = 1 then within v.lookupN 1 8 else v.lookupN = 0), (5, resZero d 5 3), (8, within v.vocab 2 1048576),
      (12, within v.nLayers 1 512), (14, within v.nKvHeads 1 256),
      (16, within v.headDim 16 512 && v.headDim % (if mx then 32 else 16) = 0), (18, resZero d 18 2),
      (20, within v.contextMax 16 262144 && v.contextMax % 16 = 0), (24, within v.liveMax 1 65536),
      (28, decide (v.pageBytes = kvPageBytes v)), (32, vaOk v.pagePool 65536),
      (40, within v.pageCount (v.contextMax / 16 + 1) (2 ^ 31)), (44, within v.stepTokens 16 65536),
      (48, within v.stepSeqs 1 4096), (50, resZero d 50 2),
      (52, within v.prefillChunk 16 16384 && v.prefillChunk % 16 = 0), (56, decide (v.prefillReserve + 16 ≤ v.stepTokens)),
      (60, within v.admitHeadroom 0 65536), (64, vaOk v.seqTable 4096), (72, vaOk v.pageList 4096), (80, vaOk v.tokLog 4096),
      (92, resZero d 92 16), (108, resZero d 108 20),
      (32, !regionsOverlap [(v.pagePool, v.pageCount * v.pageBytes), (v.seqTable, v.liveMax * 128),
        (v.pageList, v.liveMax * v.contextMax / 16 * 4), (v.tokLog, v.liveMax * v.contextMax * 4)])]

/-- REGISTER_SERVICE (R111–R113). -/
def runRegisterService (s : State) (p : PktRef) (x : Ring) (b : List Byte) : PktOut :=
  let ctx := fieldAt b 40 2
  let d := readHost s (fieldAt b 32 8) 128
  if !ctxLive s x.fn ctx then noObject s
  else
    match svcBad d with
    | some o => fieldAtFails s p o
    | none =>
      let v := svcOf d x.fn ctx
      if (curGen s x.fn v.mainRoutine).isNone then noObject s
      else if (s.gfe.services.filter (fun q => q.2.d.vd = x.fn)).length ≥ 16 then noResource s
      else
        match lowestFree s.gfe.services 1 (2 ^ 32 - 1) with
        | none => noResource s
        | some h =>
          let idx := ((List.range 16).find? (fun i => !s.gfe.services.any (fun q => q.2.d.vd = x.fn && q.2.idx = i))).getD 0
          .ends (s.setService h { d := v, idx := idx }) stOk h 0 none

def execRegisterService (r : RingId) (s : State) : Host.Outcome State Fault Refusal :=
  doneKeep s (runPacket s (refOf r) (· == 0x8D) (fun _ _ b => firstBad [(42, resZero b 42 22)]) runRegisterService)

/-- DEREGISTER_SERVICE completes at the service's next step boundary (R113). -/
def execDeregisterService (r : RingId) (s : State) : Host.Outcome State Fault Refusal :=
  doneKeep s (runPacket s (refOf r) (· == 0x8E) (fun _ _ b => firstBad [(36, resZero b 36 28)]) (fun s p x b =>
    match s.service? (fieldAt b 32 4) with
    | none => noObject s
    | some v =>
      if v.d.fn ≠ x.fn ∨ v.dereg.isSome then noObject s
      else .running (settle (settleDereg (s.setService (fieldAt b 32 4) { v with dereg := some p }) (fieldAt b 32 4)))))

/-- The first failing offset of a queue-pair descriptor (R114, R265). -/
def qpBad (s : State) (fn : Nat) (d : List Byte) : Option Nat :=
  let within (x lo hi : Nat) : Bool := decide (lo ≤ x ∧ x ≤ hi)
  let pool := fieldAt d 36 2
  let port := fieldAt d 38 1
  firstBad [
    (0, match s.service? (fieldAt d 0 4) with | some v => v.d.fn = fn && v.dereg.isNone | none => false),
    (4, ctxLive s fn (fieldAt d 4 2)), (6, within (fieldAt d 6 1) 4 16), (7, within (fieldAt d 7 1) 6 16),
    (8, vaOk (fieldAt d 8 8) 4096), (16, vaOk (fieldAt d 16 8) 4096), (24, within (fieldAt d 24 4) 1 65536),
    (28, within (fieldAt d 28 4) 1 (2 ^ 31)), (32, within (fieldAt d 32 2) 1 4096), (34, within (fieldAt d 34 1) 0 1),
    (35, within (fieldAt d 35 1) 0 63), (36, pool = 0xFFFF || decide (pool ≤ 4095)),
    (38, if pool = 0xFFFF then port = 0xFF else decide (port ≤ 23) && decide (s.portVd port = some fn)), (39, resZero d 39 25)]

/-- CREATE_QP (R114, R265). A new queue pair joins the lane of its service's other queue pairs (R264; DEDUCED, log 24). -/
def runCreateQp (s : State) (p : PktRef) (x : Ring) (b : List Byte) : PktOut :=
  let d := readHost s (fieldAt b 32 8) 64
  match qpBad s x.fn d with
  | some o => fieldAtFails s p o
  | none =>
    match lowestFree s.gfe.qps 0 4096 with
    | none => noResource s
    | some n =>
      match takePage s x.fn (.qpReq n) with
      | none => noResource s
      | some (rp, s1) =>
        match takePage s1 x.fn (.qpRsp n) with
        | none => noResource s
        | some (sp, s) =>
          let q : Qp := {
            fn := x.fn, ctx := fieldAt d 4 2, service := fieldAt d 0 4, reqLog2 := fieldAt d 6 1, rspLog2 := fieldAt d 7 1,
            reqRing := fieldAt d 8 8, rspRing := fieldAt d 16 8, liveQuota := fieldAt d 24 4, pageQuota := fieldAt d 28 4,
            admitDepth := fieldAt d 32 2, retain := (fieldAt d 34 1).testBit 0, vector := fieldAt d 35 1,
            parkPool := fieldAt d 36 2, parkPort := fieldAt d 38 1, reqPage := rp, rspPage := sp,
            lane := ((svcQps s (fieldAt d 0 4)).head?.map (fun q => q.2.lane)).getD 0xFF }
          .ends (s.setQp n q) stOk (n + rp * 65536 + sp * 2 ^ 32) 0 none

def execCreateQp (r : RingId) (s : State) : Host.Outcome State Fault Refusal :=
  doneKeep s (runPacket s (refOf r) (· == 0x8F) (fun _ _ b => firstBad [(40, resZero b 40 24)]) runCreateQp)

def execDestroyQp (r : RingId) (s : State) : Host.Outcome State Fault Refusal :=
  doneKeep s (runPacket s (refOf r) (· == 0x90) (fun _ _ b => firstBad [(34, resZero b 34 30)]) (fun s _ x b =>
    match s.qp? (fieldAt b 32 2) with
    | none => noObject s
    | some q =>
      if q.fn ≠ x.fn ∨ !ctxLive s x.fn q.ctx then noObject s
      else .ends (settle (destroyQpAt s (fieldAt b 32 2) false)) stOk 0 0 none))

/- Lift queues. -/

/-- CREATE_LIFTQ (R273, R298). -/
def runCreateLiftq (s : State) (p : PktRef) (x : Ring) (b : List Byte) : PktOut :=
  let ctx := fieldAt b 32 2
  let port := fieldAt b 34 1
  if !ctxLive s x.fn ctx then noObject s
  else if s.portVd port ≠ some x.fn then fieldAtFails s p 34
  else if (s.talko.liftqs.filter (fun q => q.2.port = port)).length ≥ 64 then noResource s
  else
    match lowestFree s.talko.liftqs 0 1536 with
    | none => noResource s
    | some n =>
      match takePage s x.fn (.liftq n) with
      | none => noResource s
      | some (pg, s) =>
        .ends (s.setLiftq n { fn := x.fn, ctx := ctx, port := port, log2 := fieldAt b 35 1, base := fieldAt b 40 8,
                              report := fieldAt b 48 8, page := pg }) stOk (n + pg * 65536) 0 none

def execCreateLiftq (r : RingId) (s : State) : Host.Outcome State Fault Refusal :=
  doneKeep s (runPacket s (refOf r) (· == 0x91) (fun _ _ b => firstBad [
    (34, decide (fieldAt b 34 1 ≤ 23)), (35, decide (4 ≤ fieldAt b 35 1 ∧ fieldAt b 35 1 ≤ 12)), (36, resZero b 36 4),
    (40, decide (fieldAt b 40 8 < 2 ^ 55)), (48, decide (fieldAt b 48 8 < 2 ^ 55)), (56, resZero b 56 8)]) runCreateLiftq)

def execDestroyLiftq (r : RingId) (s : State) : Host.Outcome State Fault Refusal :=
  doneKeep s (runPacket s (refOf r) (· == 0x92) (fun _ _ b => firstBad [(34, resZero b 34 30)]) (fun s _ x b =>
    match s.liftq? (fieldAt b 32 2) with
    | none => noObject s
    | some q =>
      if q.fn ≠ x.fn ∨ !ctxLive s x.fn q.ctx then noObject s
      else .ends (dropLiftq s (fieldAt b 32 2)) stOk 0 0 none))

/- Memory objects. -/

/-- A reference key of a function's handle. -/
def refKey (fn h : Nat) : Nat := fn * 2 ^ 32 + h

def refObj (s : State) (key : Nat) : Option (Nat × MemObj) :=
  match look s.obj.refs key with
  | some r => (look s.obj.objs r.obj).map (fun o => (r.obj, o))
  | none => none

/-- MEM_DEVICE or MEM_HOST of a context: the sizes of its live references (R350). -/
def ctxMem (s : State) (fn c : Nat) (host : Bool) : Nat :=
  (ctxRefs s fn c).foldl (fun a k => match refObj s k with
    | some (_, o) => if o.host = host then a + o.size else a
    | none => a) 0

/-- Whether a VA range overlaps a reference held by a context (R330). -/
def refOverlap (s : State) (fn c va n : Nat) : Bool :=
  (ctxRefs s fn c).any (fun k => match look s.obj.refs k, refObj s k with
    | some r, some (_, o) => decide (va < r.va + o.size) && decide (r.va < va + n)
    | _, _ => false)

/-- The first failing offset of a memory-object descriptor (R330). -/
def memobjBad (s : State) (fn : Nat) (d : List Byte) : Option Nat :=
  let new : Bool := decide (fieldAt d 0 1 = 1)
  let va := fieldAt d 8 8
  let size := fieldAt d 16 8
  firstBad [
    (0, new || fieldAt d 0 1 = 2), (1, if new then decide (fieldAt d 1 1 < 2) else fieldAt d 1 1 = 0),
    (2, ctxLive s fn (fieldAt d 2 2)),
    (4, if new then fieldAt d 4 4 = 0 else (refObj s (refKey fn (fieldAt d 4 4))).isSome),
    (8, va % 65536 = 0 && decide (va + size ≤ 2 ^ 55) && !refOverlap s fn (fieldAt d 2 2) va size),
    (16, size % 65536 = 0 && decide (65536 ≤ size ∧ size ≤ 2 ^ 55)
      && (new || decide ((refObj s (refKey fn (fieldAt d 4 4))).map (·.2.size) = some size))),
    (24, if new then decide (fieldAt d 24 4 ≤ 65535) || fieldAt d 24 4 = 0xFFFFFFFF else fieldAt d 24 4 = 0),
    (28, resZero d 28 4), (40, resZero d 40 24)]

/-- MEMOBJ_CREATE (R330, R350). -/
def runMemobjCreate (s : State) (p : PktRef) (x : Ring) (b : List Byte) : PktOut :=
  let d := readHost s (fieldAt b 32 8) 64
  let fn := x.fn
  match memobjBad s fn d with
  | some o => fieldAtFails s p o
  | none =>
    let mine := (s.obj.refs.filter (fun q => q.1 / 2 ^ 32 = fn)).length
    if s.obj.refs.length ≥ 1048576 ∨ mine ≥ 262144 then noResource s
    else
      match (List.range 262145).find? (fun h => h ≠ 0 && !has s.obj.refs (refKey fn h)),
          (List.range 1048577).find? (fun o => !has s.obj.objs o) with
      | some h, some o =>
        let c := fieldAt d 2 2
        let new := fieldAt d 0 1 = 1
        let obj := if new then o else ((refObj s (refKey fn (fieldAt d 4 4))).map (·.1)).getD o
        let s := if new then { s with obj := { s.obj with objs := put s.obj.objs o {
              size := fieldAt d 16 8, host := (fieldAt d 1 1).testBit 0,
              fence := if fieldAt d 24 4 = 0xFFFFFFFF then none else some (fieldAt d 24 4, fieldAt d 32 8) } } }
          else s
        let s := { s with obj := { s.obj with refs := put s.obj.refs (refKey fn h) { ctx := c, obj := obj, va := fieldAt d 8 8 } } }
        let s := modSet s fn c (fun k => { k with memPeak := max k.memPeak (ctxMem s fn c false) })
        .ends s stOk h 0 none
      | _, _ => noResource s

def execMemobjCreate (r : RingId) (s : State) : Host.Outcome State Fault Refusal :=
  doneKeep s (runPacket s (refOf r) (· == 0x94) (fun _ _ b => firstBad [(40, resZero b 40 24)]) runMemobjCreate)

def execMemobjDrop (r : RingId) (s : State) : Host.Outcome State Fault Refusal :=
  doneKeep s (runPacket s (refOf r) (· == 0x95) (fun _ _ b => firstBad [(36, resZero b 36 28)]) (fun s _ x b =>
    if has s.obj.refs (refKey x.fn (fieldAt b 32 4)) then .ends (endRef s (refKey x.fn (fieldAt b 32 4)) false) stOk 0 0 none
    else noObject s))

/- Signal slots and the mirror. -/

/-- SIGNAL_SLOT_SIGNAL: a 64-bit write of SIGNAL (R337). -/
def slotSignal (s : State) (fn n v : Nat) : State :=
  if (s.fn fn).resetting then s
  else signalFence s fn (lookD (s.fn fn).int.sel n {}).fence v (if v = errValue then some { cause := 0x0016, source := 7 } else none)

def execSignalSlotSignal (f : FnId) (n : Fin 64) (v : W64) (s : State) : Host.Outcome State Fault Refusal :=
  doneKeep s (hostGate s f.val (fun s => slotSignal s f.val n.val v.toNat))

/-- SIGNAL_SLOT_ARM: a 64-bit write of ARM (R337, R340). -/
def slotArm (s : State) (fn n v : Nat) : State :=
  if (s.fn fn).resetting then s
  else
    let e := lookD (s.fn fn).int.sel n {}
    armFence s fn e.fence v e.vector

def execSignalSlotArm (f : FnId) (n : Fin 64) (v : W64) (s : State) : Host.Outcome State Fault Refusal :=
  doneKeep s (hostGate s f.val (fun s => slotArm s f.val n.val v.toNat))

/-- MIRROR_ENABLE: setting INT_FENCE_CFG.EN writes every entry (R336). -/
def mirrorEnable (s : State) (fn : Nat) : State :=
  let s := s.modFn fn (fun x => { x with int := { x.int with fenceEn := true } })
  (List.range 65536).foldl (fun s i => writeMirror s fn i) s

def execMirrorEnable (f : FnId) (s : State) : Host.Outcome State Fault Refusal := doneKeep s (hostGate s f.val (fun s => mirrorEnable s f.val))

end Sys2Proof.Machine
end

