-- ==== Sys2Proof/Machine/Lift.lean ====
section
/-! DEFINITION. Transport operations of the device and what ends them: Lift queues, parking writes, restore reads, ports
that go down or renegotiate (R273–R276, R319, R320, R366, R367, R373, R384). -/

namespace Sys2Proof.Machine

def State.port (s : State) (p : Nat) : Port := (look s.talko.ports p).getD {}
def State.setPort (s : State) (p : Nat) (x : Port) : State := { s with talko := { s.talko with ports := put s.talko.ports p x } }
def State.modPort (s : State) (p : Nat) (f : Port → Port) : State := s.setPort p (f (s.port p))
def State.modOp (s : State) (i : Nat) (f : LiftOp → LiftOp) : State := { s with talko := { s.talko with ops := adjust s.talko.ops i f } }

/- Parked sequences whose transfer ends (R125, R276, R278). -/

/-- The live sequence that a parking record belongs to. -/
def parkSeq (s : State) (r : ParkRec) : Option (Service × Seq) :=
  (s.service? r.svc).bind (fun x => (look x.seqs r.seq).map (fun q => (x, q)))

/-- Take a parking record out, with an Amber record of the outcome, and tell its pool to free the state. -/
def parkRemove (s : State) (key : Nat) (r : ParkRec) (outcome : Nat) : State :=
  let s := parkRecord { s with gfe := { s.gfe with parks := del s.gfe.parks key } } (key % 64) key r outcome
  sendPark s r.port r.pool 7 0 key r.handle r.epoch 0 0 0 0

/-- Parking does not go through: the sequence keeps its pages and decodes on (DEDUCED, log 33). -/
def parkAbort (s : State) (key : Nat) : State :=
  match look s.gfe.parks key with
  | none => s
  | some r => (parkRemove s key r 0).modSeq r.svc r.seq (fun q => { q with st := .decode })

/-- Whether a sequence's queue pair retains prompts (R265, R266). -/
def seqRetains (s : State) (q : Seq) : Bool := ((s.qp? q.req.qp).map (·.retain)).getD false

/-- Parked state is lost: prefill is recomputed from the retained token log, or the sequence ends with KV_LOST (R278). -/
def parkLost (s : State) (key : Nat) : State :=
  match look s.gfe.parks key with
  | none => s
  | some r =>
    match parkSeq s r with
    | none => parkRemove s key r 3
    | some (_, q) =>
      if seqRetains s q then
        (parkRemove s key r 2).modSeq r.svc r.seq (fun q => { q with st := .prefill, prefilled := 0, pages := [], drafts := [] })
      else endSeq (parkRemove s key r 3) r.svc r.seq 0x0C 5 [] 0 0

/-- Restored state: the sequence decodes and the pool frees its copy (R276, R278, R387). -/
def parkRestored (s : State) (key : Nat) : State :=
  match look s.gfe.parks key with
  | none => s
  | some r => (parkRemove s key r 1).modSeq r.svc r.seq (fun q => { q with st := .decode, prefilled := q.toks.length - 1 })

/- Transport operations. -/

/-- Ranges of a sorted list of (offset, length) parts, merged where they touch. -/
def mergeRanges : List (Nat × Nat) → List (Nat × Nat)
  | (a, n) :: t =>
    match mergeRanges t with
    | (b, m) :: u => if a + n = b then (a, n + m) :: u else (a, n) :: (b, m) :: u
    | [] => [(a, n)]
  | [] => []

/-- The bytes of the part of an operation at an offset: a 256-byte unit, or a WR_REQ of up to 4,096 bytes (R384). -/
def partLen (o : LiftOp) (off : Nat) : Nat := if o.op = 1 then 256 else if o.op = 2 then min 4096 (o.len - off) else 0

/-- A split report of a Lift queue (R319, R320). -/
def liftReport (s : State) (q : Nat) (o : LiftOp) : State × Nat :=
  match s.liftq? q with
  | none => (s, 0)
  | some x =>
    if x.report = 0 then (s, 0)
    else
      let seq := x.reportSeq + 1
      let parts := mergeRanges ((o.ok.mergeSort).map (fun a => (a, partLen o a)))
      let recs := (parts.take 14).map (fun p => natLe 8 p.1 ++ natLe 8 p.2)
      let body := natLe 4 seq ++ natLe 2 q ++ natLe 1 3 ++ natLe 1 (b2n (decide (14 < parts.length))) ++ natLe 4 0 ++ natLe 4 0
        ++ natLe 4 (o.len / 256) ++ natLe 4 ((o.ok.map (partLen o)).sum / 256) ++ natLe 1 recs.length ++ List.replicate 7 0 ++ recs.flatten
      let s := s.setLiftq q { x with reportSeq := seq }
      match writeVa s x.fn x.ctx (x.report + seq % 256 * 256) (sliceB body 0 256) with
      | .ok s => (s, seq)
      | .error _ => (s, seq)

/-- "Far memory timeout" at an address of an operation (R338, R379). -/
def farErr (o : LiftOp) (off : Nat) : ErrRec :=
  { cause := 0x0011, source := 3, detail := natLe 8 (o.addr + off) ++ natLe 2 (match o.owner with | .queue q => q | _ => 0xFFFF) ++ natLe 2 o.pool }

/-- End an operation whose parts have all ended (R273, R276, R319). -/
def endOp (s : State) (i : Nat) : State :=
  match look s.talko.ops i with
  | none => s
  | some o =>
    let s := { s with talko := { s.talko with ops := del s.talko.ops i } }
    match o.owner, o.failed with
    | .queue _, none => match o.fence with | some (f, v) => signalFence s o.fn f v none | none => s
    | .queue q, some e =>
      let (s, seq) := liftReport s q o
      let e : ErrRec := if seq = 0 then e else { e with report := true, ref := seq }
      match o.fence with | some (f, _) => failFence s o.fn f e | none => s
    | .park k, none => match look s.gfe.parks k with
      | some r => sendPark s r.port r.pool 3 0 k r.handle r.epoch 0 0 0 0
      | none => s
    | .park k, some _ => parkAbort s k
    | .restore k, none => parkRestored s k
    | .restore k, some _ => parkLost s k

/-- A part of an operation ends (R319): no part is issued after a failure. -/
def partEnds (s : State) (i off : Nat) (err : Option ErrRec) : State :=
  match look s.talko.ops i with
  | none => s
  | some o =>
    let o := { o with
      left := o.left.erase off
      ok := if err.isNone then o.ok ++ [off] else o.ok
      failed := o.failed.orElse (fun _ => err) }
    let s := s.modOp i (fun _ => o)
    let more := decide (o.next < o.len) && o.failed.isNone
    if o.left = [] ∧ !more then endOp s i else s

/-- The parts of a port that have no answer: reads and writes with their operations. -/
def portParts (x : Port) : List UnitRef := x.reads.map (·.2) ++ x.writes.map (·.2)

/-- End every transport request a port has outstanding (R367). -/
def endOutstanding (s : State) (p : Nat) : State :=
  let x := s.port p
  let s := s.setPort p { x with
    reads := [], writes := [], queue := x.queue.filter (fun f => !(f.src = s.talko.devId ∧ (f.type = 1 ∨ f.type = 3 ∨ f.type = 5))) }
  let s := { s with talko := { s.talko with ops := mapVals s.talko.ops (fun _ o =>
    if o.port = p ∧ o.failed.isNone ∧ (o.left ≠ [] ∨ o.waiting) then { o with failed := some (farErr o o.next) } else o) } }
  let s := (portParts x).foldl (fun s u => match look s.talko.ops u.op with
    | some o => partEnds s u.op u.off (some (farErr o u.off))
    | none => s) s
  ((s.talko.ops.filter (fun o => o.2.port = p ∧ o.2.left = [])).map (·.1)).foldl endOp s

/-- A port's link starts over: buffers, credits, sequence numbers and keys of the last link are gone (R363–R367, R374). -/
def linkFresh (x : Port) : Port :=
  { x with
    echoed := false, peerCaps := none, mode := none, peerRecord := [], session := false, spdmIn := [], keyUpdate := false, keys := []
    txCount := 0, rxCount := 0, txSeq := 0, acked := 0, replay := [], replaying := none, naks := (0, 0), rxNext := 0, nakSent := none
    rxSkip := none, rx := [], sending := none, sinceLink := 0, credits := [0, 0, 0, 0], used := [0, 0, 0, 0], freed := [0, 0, 0, 0]
    laneDown := none, spareUsed := false }

/-- Renegotiate a port that is up, keying or negotiating: its requests end and ECHO starts again (R367, R370 t2, R373). -/
def renegPort (s : State) (p : Nat) : State :=
  match (s.port p).st with
  | .up | .keying | .negotiating | .renegotiating =>
    let s := endOutstanding s p
    s.modPort p (fun x => { linkFresh x with st := .renegotiating, attempts := 0, sentMsgs := x.sentMsgs ++ [.echo false 0 0] })
  | _ => s

/-- Take a port down with a reason of R373, with or without a DOWN message. -/
def portDown (s : State) (p reason : Nat) (say : Bool) : State :=
  let s := endOutstanding s p
  s.modPort p (fun x => { linkFresh x with
    st := .down, reason := reason
    sentMsgs := if say then x.sentMsgs ++ [.down reason] else x.sentMsgs
    errNeg := x.errNeg || reason = 5, errLink := x.errLink || reason = 6, errLaser := x.errLaser || reason = 8 })

/-- A port outside every slice is held aside while it is down, and enters the pool when it comes up (R243). -/
def asidePort (s : State) (p : Nat) : State :=
  if (s.portSlice p).isSome then s
  else
    let bit := BitVec.ofNat 24 (1 <<< p)
    match (s.port p).st with
    | .up => { s with pool := { s.pool with portAside := s.pool.portAside &&& ~~~ bit } }
    | .down => { s with pool := { s.pool with portAside := s.pool.portAside ||| bit } }
    | _ => s

/- Issuing requests (R274, R384). -/

/-- Whether `n` unit tags from `t` on, modulo 4,096, name no outstanding unit. -/
def tagsFree4096 (x : Port) (t n : Nat) : Bool := (List.range n).all (fun i => !has x.reads ((t + i) % 4096))

/-- Unit tags for `n` units, where the port has them free (R274, R378; DEDUCED, log 34). -/
def unitTags (x : Port) (n : Nat) : Option Nat :=
  if x.reads.length + n > 4096 then none else ((List.range 4096).map (fun i => (x.nextTag + i) % 4096)).find? (fun t => tagsFree4096 x t n)

/-- Issue reads of an operation, up to 65,536 bytes a request, while units are free; one request per round. -/
def issueReads : Nat → State → Nat → State
  | 0, s, _ => s
  | f + 1, s, i =>
    match look s.talko.ops i with
    | none => s
    | some o =>
      let n := min 65536 (o.len - o.next)
      if n = 0 ∨ o.failed.isSome then s.modOp i (fun o => { o with waiting := false })
      else
        let x := s.port o.port
        match unitTags x (n / 256) with
        | none => s.modOp i (fun o => { o with waiting := true })
        | some t =>
          let offs := (List.range (n / 256)).map (fun k => o.next + 256 * k)
          let s := s.setPort o.port { x with
            reads := offs.zipIdx.foldl (fun m a => put m ((t + a.2) % 4096) { op := i, off := a.1 }) x.reads, nextTag := (t + n / 256) % 4096 }
          let s := portSend s o.port { type := 1, vc := 0, dst := o.pool, src := s.talko.devId, tag := t, addr := o.addr + o.next, aux := n + o.epoch * 2 ^ 32 }
          issueReads f (s.modOp i (fun o => { o with waiting := false, next := o.next + n, left := o.left ++ offs })) i

/-- A write tag that names no outstanding write of the port. -/
def writeTag (x : Port) : Nat := (lowestFree x.writes 0 (x.writes.length + 1)).getD 0

/-- Issue the writes of an operation in address order (R384). -/
def issueWrites (s : State) (i : Nat) (o : LiftOp) (data : List Byte) : State :=
  let offs := (List.range (ceilDiv o.len 4096)).map (4096 * ·)
  let s := s.modOp i (fun o => { o with next := o.len, left := offs })
  offs.foldl (fun s off =>
    let x := s.port o.port
    let t := writeTag x
    let s := s.setPort o.port { x with writes := put x.writes t { op := i, off := off } }
    portSend s o.port { type := 3, vc := 0, dst := o.pool, src := s.talko.devId, tag := t, addr := o.addr + off, aux := o.epoch * 2 ^ 32,
                        payload := (data.drop off).take 4096 }) s

/-- Send the FLUSH of an operation once every earlier LWRITE of its queue has its WR_ACKs (R384). -/
def issueFlush (s : State) (i : Nat) : State :=
  match look s.talko.ops i with
  | none => s
  | some o =>
    if s.talko.ops.any (fun p => p.1 < i ∧ p.2.owner = o.owner ∧ p.2.op = 2) then s.modOp i (fun o => { o with waiting := true })
    else
      let x := s.port o.port
      let t := writeTag x
      let s := s.setPort o.port { x with writes := put x.writes t { op := i } }
      portSend (s.modOp i (fun o => { o with waiting := false, left := [0] })) o.port { type := 5, vc := 0, dst := o.pool, src := s.talko.devId, tag := t }

def newOp (s : State) (o : LiftOp) : State × Nat :=
  let i := s.talko.nextOp
  ({ s with talko := { s.talko with ops := put s.talko.ops i o, nextOp := i + 1 } }, i)

end Sys2Proof.Machine
end

