-- ==== Sys2Proof/Machine/ComposeOps.lean ====
section
/-! DEFINITION. Virtual devices: size classes, spares, tags, keys, meters, release of changes, zero-fills and time-sharing
(R78–R85, R157–R166, R174, R243–R250, R261, R271, R272). -/

namespace Sys2Proof.Machine

/-- Run an operation that has no business with slices, pools or fenced sets: they stay as they are. -/
def poolKept (f : State → State) (s : State) : State := { f s with pool := s.pool }

/-- Change the state, group or holder of a slice; its members never change (R244). -/
def setSlice (s : State) (k : Nat) (f : Slice → Slice) : State :=
  { s with pool := { s.pool with slices := adjust s.pool.slices k (fun x => { f x with cgs := x.cgs, pairs := x.pairs, ports := x.ports }) } }

/- Size classes (R249). -/

def classOf (c : Nat) : Nat := if c ≤ 4 then 0 else if c ≤ 12 then 1 else if c ≤ 24 then 2 else 3
def sparesFor (c : Nat) : Nat :=
  if c ≤ 4 then 0 else if c ≤ 12 then ceilDiv c 8 else if c ≤ 24 then ceilDiv c 6 else ceilDiv c 4

/-- The spares that a set of core groups gives: the highest-numbered that are in no lane and in no shared slice. -/
def sparesOf (s : State) (v : Nat) (cgs : List Nat) : Option (List Nat) :=
  let can := cgs.filter (fun g => (s.cgLane v g).isNone && !s.cgShared g)
  let h := sparesFor cgs.length
  if can.length < h then none else some (can.drop (can.length - h))

/-- The layout of a VD's channels (R30, R249). -/
def vdLayout (s : State) (v : Nat) : Layout :=
  if (s.vd v).posSealed then .sealed else if (s.vd v).cls = 0 then .standard else .strong

def pairsChans (ps : List Nat) : List Nat := ps.flatMap (fun p => [2 * p, 2 * p + 1])

/-- Mirror every store of a VD that enters XL (R250, R309). -/
def mirrorStores (s : State) (fn : Nat) : State :=
  let rs : List (Nat × Nat × Nat) := (s.gfe.routines.filter (fun r => r.2.fn = fn)).flatMap (fun r =>
    (r.2.cur.toList ++ r.2.old.toList).map (fun g => (g.ctx, g.store, storeSize g.len)))
  let ps : List (Nat × Nat × Nat) := (s.gfe.programs.filter (fun q => q.2.fn = fn)).map (fun q => (q.2.ctx, q.2.store, storeSize (64 + q.2.codeLen)))
  (rs ++ ps).foldl (fun s r =>
    match rangeOf s fn r.1 true r.2.1 r.2.2 with
    | .error _ => s
    | .ok q => writeMirrored s fn (storeDelta s fn r.1) q (readPieces s fn q).1) s

/-- The class, the spares, the layout of every pair and the mirrors of a VD after a bind or unbind (R249, R250). -/
def reclass (s : State) (v : Nat) : State :=
  let was := s.vd v
  let cgs := s.vdCgs v
  let s := s.modVd v (fun x => { x with cls := classOf cgs.length, need := sparesFor cgs.length, spares := (sparesOf s v cgs).getD [] })
  let s := (pairsChans (s.vdPairs v)).foldl (fun s c => startConv s c (vdLayout s v)) s
  let xl := (s.vd v).cls = 3
  let s := if (s.vd v).cls ≠ was.cls then (s.vdPorts v).foldl renegPort s else s
  let s := if xl ∧ was.cls ≠ 3 then mirrorStores s v else s
  let newSpares := (s.vd v).spares.filter (fun g => !was.spares.contains g)
  (tasksOn s newSpares).foldl moveTask s

/- Meters (R269–R272). -/

/-- A meter statement (R272). -/
def meterBytes (s : State) (v : Nat) (final comp : Bool) : List Byte :=
  let m := (s.vd v).meter
  natLe 1 v ++ natLe 1 (b2n final + 2 * b2n comp) ++ natLe 2 0 ++ natLe 4 m.window ++ natLe 8 m.s0Begin ++ natLe 8 s.s0
    ++ natLe 8 (m.cgPs / 1000) ++ natLe 8 (m.sparePs / 1000) ++ natLe 8 (m.enginePs / 1000) ++ natLe 8 (m.pairPs / 1000)
    ++ natLe 8 (m.portPs / 1000) ++ natLe 8 m.hbmRd ++ natLe 8 m.hbmWr ++ natLe 8 m.linkTx ++ natLe 8 m.linkRx
    ++ natLe 8 m.hostBytes ++ natLe 4 m.steps ++ natLe 4 m.compGen ++ List.replicate 16 0

/-- Close a VD's meter window: its statement enters the VD's chain and VD0's, and the remainders stay (R270, R271). -/
def closeMeter (s : State) (v : Nat) (final comp : Bool) : State :=
  let b := meterBytes s v final comp
  let s := amberAppend s v 0x0007 0xFFFF b .none
  let s := if v = 0 then s else amberAppend s 0 0x0007 0xFFFF b .none
  s.modVd v (fun x =>
    let m := x.meter
    { x with meter := {
        window := (m.window + 1) % 2 ^ 32, s0Begin := s.s0, cgPs := m.cgPs % 1000, sparePs := m.sparePs % 1000,
        enginePs := m.enginePs % 1000, pairPs := m.pairPs % 1000, portPs := m.portPs % 1000, compGen := x.gen } })

/- Holding and releasing (R127, R254, R257). -/

def vdServices (s : State) (v : Nat) : List Nat := (s.gfe.services.filter (fun p => p.2.d.vd = v)).map (·.1)

/-- Whether every service of a VD is in BOUNDARY (or waits), and every ring launch has completed (R254, R257). -/
def vdQuiet (s : State) (v : Nat) : Bool :=
  s.gfe.services.all (fun p => p.2.d.vd ≠ v || !stepRunning p.2) && !s.gfe.launches.any (fun l => l.2.vd = v)

/-- Whether a hang sequence runs on a core of a VD (R33, R280). -/
def vdHung (s : State) (v : Nat) : Bool :=
  (s.vdCgs v).any (fun g => (cgCores g).any (fun c => (coreEngs c).any (fun e => decide ((s.eng e).hangReason ≠ 0))))

def setHeld (s : State) (v : Nat) : State :=
  let s := s.modVd v (fun x => { x with held := true, holdAccept := true })
  (vdServices s v).foldl (fun s h => s.modService h (fun x => { x with st := .held })) s

def unhold (s : State) (v : Nat) : State :=
  let s := s.modVd v (fun x => { x with held := false, holdAccept := false })
  (vdServices s v).foldl (fun s h => s.modService h (fun x => { x with st := if x.st = .held then .wait else x.st })) s

/-- End the open request of a VD with a status (R252, R254 t4, R257 t7). -/
def endReq (s : State) (v op status : Nat) (changed : Bool) : State :=
  let s := s.modVd v (fun x => { x with req := none, leave := 0, lastStatus := status })
  let s := if changed then
      let s := reclass s v
      let s := s.modVd v (fun x => { x with gen := (x.gen + 1) % 2 ^ 32 })
      { s with cmp := { s.cmp with capGen := (s.cmp.capGen + 2) % 2 ^ 32 } }
    else s
  let s := unhold s v
  let s := if changed then notice s v 1 else s
  let s := compRecord s v op status
  settle (if changed then closeMeter s v false true else s)

/- Tags (R79, R85). -/

/-- Tags that are neither live nor retired. -/
def tagsFree (s : State) : Nat := 4094 - (s.cmp.tagsLive.filter (· ≥ 2)).length - s.cmp.tagsRetired.length

/-- The next tag to issue: the lowest free one from the last issued on, in ascending order. -/
def nextTag (s : State) : Option Nat :=
  let used (t : Nat) : Bool := s.cmp.tagsLive.contains t || s.cmp.tagsRetired.contains t
  ((List.range 4094).map (fun i => 2 + (s.cmp.nextTag - 2 + i) % 4094)).find? (fun t => !used t)

/-- Issue a tag to a VD, if one is free (R79). -/
def issueTag (s : State) (v : Nat) : Option State :=
  (nextTag s).map (fun t =>
    let s := s.modVd v (fun x => { x with tag := BitVec.ofNat 12 t })
    { s with cmp := { s.cmp with tagsLive := s.cmp.tagsLive ++ [t], nextTag := if t = 4095 then 2 else t + 1 } })

def retireTag (s : State) (v : Nat) : State :=
  let t := (s.vd v).tag.toNat
  { s with cmp := { s.cmp with tagsLive := s.cmp.tagsLive.erase t, tagsRetired := if t = 0 then s.cmp.tagsRetired else s.cmp.tagsRetired ++ [t] } }

/-- Rewrite to 0x000 every tag of a set in the four stores (R85). -/
def sweepTags (s : State) (ts : List Nat) : State :=
  let wipe (t : BitVec 12) : BitVec 12 := if ts.contains t.toNat then 0 else t
  { s with
    cores := mapVals s.cores (fun _ c => { c with
      sp := mapVals c.sp (fun _ (b : SpBlock) => { b with tag := wipe b.tag })
      dcache := mapVals c.dcache (fun _ (l : CacheLine) => { l with tag := wipe l.tag }) })
    engs := mapVals s.engs (fun _ e => { e with los := mapVals e.los (fun _ (l : LosLine) => { l with tag := wipe l.tag }) })
    mem := { s.mem with llc := mapVals s.mem.llc (fun _ l => { l with tag := wipe l.tag }) } }

/- Keys (R158). -/

/-- Generate a VD's key set: it receives the next KEY_GEN (R158). -/
def newKeys (s : State) (v : Nat) : State :=
  let g := (s.cmp.keyGen + 1) % 65536
  let s := s.modVd v (fun x => { x with keyGen := g })
  { s with cmp := { s.cmp with keyGen := g } }

/-- Load a VD's key set into the controllers of pairs, or unload them. -/
def loadKeys (s : State) (v : Nat) (ps : List Nat) : State := ps.foldl (fun s p => s.modPair p (fun x => { x with keyGen := some (s.vd v).keyGen })) s
def unloadKeys (s : State) (ps : List Nat) : State := ps.foldl (fun s p => s.modPair p (fun x => { x with keyGen := none })) s

/- Zero-fill (R162, R163). -/

/-- Every pair that holds a VD's data: bound, or of its MARKED slices (R245). -/
def ownedPairs (s : State) (v : Nat) : List Nat := (List.range 64).filter (fun p => s.pairOwner p = some v)

def startFill (s : State) (ps : List Nat) : State := ps.foldl (fun s p => s.modPair p (fun x => { x with filling := true })) s

/-- The fill of pairs has ended: their contents are zero in the scrubbed state, but for pairs whose fill failed. -/
def endFill (s : State) (ps : List Nat) : State :=
  let inP (a : Nat) : Bool := ps.contains (dpaPair a)
  let s := { s with mem := { s.mem with
    hbm := s.mem.hbm.filter (fun c => !inP c.1)
    units := s.mem.units.filter (fun u => !inP (64 * u.1))
    llc := s.mem.llc.filter (fun l => !inP (128 * l.1))
    macFails := s.mem.macFails.filter (fun l => !inP (128 * l)) } }
  let s := (pairsChans ps).foldl (fun s c => s.modChan c (fun x => { x with layout := .scrubbed, conv := none, queued := none })) s
  ps.foldl (fun s p => s.modPair p (fun x => { x with filling := false })) s

/- Wheels (R222, R223). -/

/-- The default contents of a controller's wheel. -/
def autoSlots (s : State) (k : Nat) : List Nat :=
  (List.range 256).map (fun i => match s.pairVd (4 * k + i / 64) with
    | some v => v + 64 * (lookD s.net.vdTc v {}).bulk
    | none => 0x8000)

/-- Rewrite the AUTO wheels of the controllers, numbered 0 to 15 (R223). -/
def autoWheels (s : State) : State :=
  { s with net := { s.net with wheels := mapVals s.net.wheels (fun k w => if w.auto then { w with slots := autoSlots s k } else w) } }

/- Cores and slices. -/

/-- A core leaves its VD: it flushes, leaves the scope of both dies and is cleared (R78, R174). -/
def coreLeaves (s : State) (c : Nat) : State :=
  let tag := (s.coreTag c).toNat
  let s := flushCore s c
  let s := leaveScope (leaveScope s c 0 tag) c 1 tag
  let s := (coreEngs c).foldl (fun s e => s.modEng e clearEng) s
  s.modCore c (fun k => { k with curTag := 0, switchGen := k.switchGen + 1, st := .idle })

/-- A core joins a VD: it enters the scope at every home and switches to the VD's tag (R78, R174). -/
def coreJoins (s : State) (c v : Nat) : State :=
  let s := coreLeaves s c
  let tag := s.vdTag v
  let s := joinScope s c tag
  let s := s.modCore c (fun k => { k with curTag := tag })
  let s := traceEv s c 0xFF 12 0 (tag.toNat + 2 ^ 32 * (s.core c).switchGen.toNat) 0
  if (s.vd v).posSealed ∧ cgBit s.trace.cgMask (coreCg c) then traceStop s (coreDie c) 3 else s

def sliceCores (x : Slice) : List Nat := (bitsOf 48 x.cgs.toNat).flatMap cgCores
/-- The members of a slice that work: fenced ones are never used again (R244). -/
def sliceCgs (s : State) (x : Slice) : List Nat := (bitsOf 48 x.cgs.toNat).filter (fun g => !cgBit s.pool.cgFenced g)
def slicePairs (s : State) (x : Slice) : List Nat := (bitsOf 64 x.pairs.toNat).filter (fun p => !pairBit s.pool.pairFenced p)

/-- A live context of a VD keeps no mirrored tables (R182). -/
def unmirrored (s : State) (v : Nat) : Bool :=
  (s.fnCtxs v).any (fun c => match s.ctx? v c with | some x => x.mirror = 0 | none => false)

/-- Whether way masks meet R165 for a VD that holds pairs. -/
def waysOk (s : State) (v : Nat) (pairs : List Nat) (w0 w1 : Nat) : Bool :=
  let clash (x : Vd) : Bool := x.ways0.toNat &&& w0 ≠ 0 || x.ways1.toNat &&& w1 ≠ 0
  !(s.cmp.vds.any (fun q => q.1 ≠ v && q.2.live && clash q.2))
    && (!(v = 0 || pairs.any (fun p => decide (p < 32))) || w0 ≠ 0)
    && (!(v = 0 || pairs.any (fun p => decide (32 ≤ p))) || w1 ≠ 0)

def setWays (s : State) (v w0 w1 : Nat) : State :=
  s.modVd v (fun x => { x with ways0 := BitVec.ofNat 16 w0, ways1 := BitVec.ofNat 16 w1 })

/-- The slice that an open BIND names, so that nothing else takes it. -/
def sliceBusy (s : State) (k : Nat) : Bool :=
  s.cmp.vds.any (fun q => match q.2.req with | some r => (r.op = 5 || r.op = 6) && r.slice = k | none => false)

/-- Unbind a slice's units from a VD: its cores leave, its lines are written back, its keys are unloaded (R257 t5, t6). -/
def sliceLeaves (s : State) (x : Slice) : State :=
  let s := (sliceCores x).foldl coreLeaves s
  let ps := bitsOf 64 x.pairs.toNat
  unloadKeys (flushPairs s ps) ps

/- Lanes (R263). -/

/-- Apply a lane change at a step boundary (R263). -/
def applyLane (s : State) (v : Nat) (r : OpenReq) : State :=
  let s := s.modVd v (fun x => { x with
    lanes := if r.cgs = 0 then del x.lanes r.lane else put x.lanes r.lane (bitsOf 48 r.cgs.toNat)
    req := none, lastStatus := 0, gen := (x.gen + 1) % 2 ^ 32 })
  settle (compRecord (notice s v 4) v 8 0)

/- Time-sharing (R261). -/

/-- Whether a VD has work: requests of a service, a launch in flight, or packets fetched. -/
def vdHasWork (s : State) (v : Nat) : Bool :=
  s.gfe.services.any (fun p => p.2.d.vd = v && (p.2.seqs ≠ [] || p.2.scores ≠ [] || stepRunning p.2))
    || s.gfe.qps.any (fun q => q.2.fn = v && q.2.queue ≠ [])
    || s.gfe.launches.any (fun l => l.2.vd = v)
    || s.gfe.rings.any (fun r => r.2.fn = v && r.2.fetched ≠ [])

/-- The position in a group after `h` whose VD has work and is not HELD, or `d` where none has. -/
def nextHolder (s : State) (g : List (Nat × Nat)) (h d : Nat) : Nat :=
  ((List.range g.length).map (fun i => (h + 1 + i) % g.length)).find? (fun i =>
    match g[i]? with
    | some (v, _) => vdHasWork s v && !(s.vd v).held
    | none => false) |>.getD d

/-- Members of a group hear that its composition changed. -/
def shareDone (s : State) (g : List (Nat × Nat)) : State :=
  g.foldl (fun s p =>
    let s := s.modVd p.1 (fun x => { x with gen := (x.gen + 1) % 2 ^ 32, lastStatus := 0 })
    compRecord (notice s p.1 1) p.1 10 0) s

/-- Hand the core groups of a shared slice on, once the holder is at a step boundary: a waiting group takes effect here,
and an empty one returns the slice to CARVED (R245, R261). -/
def shareSwitch (s : State) (k : Nat) : State :=
  match look s.pool.slices k with
  | none => s
  | some x =>
    if x.st ≠ .shared then s
    else
      let v := (x.group[x.holder]?).map (·.1)
      let quiet := match v with | some v => vdQuiet s v && !vdHung s v && !(s.vd v).held | none => true
      if !quiet ∨ !(x.quantumOver || x.nextGroup.isSome) then s
      else
        let cs := (sliceCgs s x).flatMap cgCores
        match x.nextGroup with
        | some [] =>
          let s := poolKept (fun s => cs.foldl coreLeaves s) s
          let s := setSlice s k (fun y => { y with st := .carved, group := [], nextGroup := none, holder := 0, quantumOver := false })
          poolKept (fun s => shareDone s x.group) s
        | g? =>
          let g := g?.getD x.group
          let h := nextHolder s g (if g?.isSome then g.length - 1 else x.holder) (if g?.isSome then 0 else x.holder)
          let heir := (g[h]?).map (·.1)
          let s := if heir = v then s else poolKept (fun s => match heir with
            | some w => cs.foldl (fun s c => coreJoins s c w) s
            | none => s) s
          let s := setSlice s k (fun y => { y with group := g, nextGroup := none, holder := h, quantumOver := false })
          if g?.isSome then poolKept (fun s => shareDone s g) s else s

end Sys2Proof.Machine
end

