-- ==== Sys2Proof/Machine/Sign.lean ====
section
/-! DEFINITION. Garnet's key slots and device signatures (R452–R456, R462–R465). -/

namespace Sys2Proof.Machine

def State.modSec (s : State) (f : Sec → Sec) : State := { s with sec := f s.sec }

/- Slots (R454–R456). -/

/-- Record a slot whose TAG failed its check; it is unusable to the next start and is reported once (R456). -/
def slotFails (s : State) (k : Nat) : State :=
  if s.sec.failedSlots.contains k then s
  else
    let o := ((look s.sec.slots k).map (·.owner)).getD 0xFF
    report (s.modSec (fun x => { x with
      failedSlots := x.failedSlots ++ [k]
      slotFail := if x.slotValid then x.slotFail else k
      slotValid := true })) 21 k (if o = 0xFF then 64 else o)

/-- Check a slot's TAG before its use: `good` is what the check finds now (R456). -/
def useSlotKey (s : State) (k : Nat) (good : Bool) : State × Bool :=
  if s.sec.failedSlots.contains k then (s, false)
  else if good then (s, true) else (slotFails s k, false)

/-- The slot of a VD's seed (R455). -/
def seedSlot (v : Nat) : Nat := 16 + v

/-- The model keys of a VD in the pool: slot and content (R455). -/
def modelSlots (s : State) (v : Nat) : List (Nat × KeySlot) :=
  s.sec.slots.filter (fun p => decide (80 ≤ p.1) && p.2.type = 3 && p.2.owner = v)

/-- The slot of a VD's import key (R455). -/
def importSlot (s : State) (v : Nat) : Option (Nat × KeySlot) :=
  s.sec.slots.find? (fun p => decide (80 ≤ p.1) && p.2.type = 5 && p.2.owner = v)

/-- A free slot of the pool (R455). -/
def freePool (s : State) : Option Nat :=
  ((List.range 48).map (80 + ·)).find? (fun k => !has s.sec.slots k && !s.sec.failedSlots.contains k)

/-- Put a key into a slot. -/
def setSlot (s : State) (k : Nat) (x : KeySlot) : State := s.modSec (fun c => { c with slots := put c.slots k x })

/-- Destroy the keys of slots. -/
def dropKeys (s : State) (gone : Nat → KeySlot → Bool) : State :=
  s.modSec (fun c => { c with slots := c.slots.filter (fun p => !gone p.1 p.2) })

/-- Destroy a VD's seed, import key and model keys (R247, R472). -/
def dropVdKeys (s : State) (v : Nat) : State :=
  (dropKeys s (fun _ x => decide (x.owner = v))).modSec (fun c => { c with unseals := del c.unseals v })

/-- Draw a key from the DRBG (R453). -/
def drawKey (s : State) : List Byte × State :=
  let (n, s) := takeFree s
  (Config.drbg n, s)

/-- Whether Garnet can generate a key: no health test fails and no table tag (R453, R458). -/
def canKey (s : State) : Bool := s.sec.rootOk && !s.sec.rngFault && !s.sec.tableFault

/-- A VD's seed slot under its KEY_GEN, and its import key if it is SEALED; there is none when the pool is full
(R455, R472; the policies are a DESIGN CHOICE, log 155). -/
def genKeys (s : State) (v : Nat) (secret : Bool) : Option State :=
  let g := (s.vd v).keyGen
  let (k, s) := drawKey s
  let s := setSlot s (seedSlot v) { key := sliceB k 0 48, bits := 384, type := 6, owner := v, policy := 0x5E02, keyGen := g }
  if !secret then some s
  else
    match freePool s with
    | none => none
    | some n =>
      let (k, s) := drawKey s
      some (setSlot s n { key := sliceB k 0 48, bits := 384, type := 5, owner := v, policy := 0x4480, keyGen := g })

/-- The import public key of a VD as index 0x20 + n carries it: zeros where it has none (R470). -/
def importPub (s : State) (v : Nat) : List Byte :=
  match importSlot s v with
  | some p => sliceB (Config.publicKey p.2.key) 0 97
  | none => List.replicate 97 0

/- Signatures (R462–R465). -/

def lmsAll : Nat := 33554432

/-- Signatures that can still be made: a top index holds 32,768 of them (R462, R465). -/
def lmsRemain (s : State) : Nat :=
  if s.otp.hssTop = 0 then lmsAll else lmsAll - ((s.otp.hssTop - 1) * 32768 + s.sec.lower)

/-- Whether signing is stopped to the next start (R456). -/
def signFault (s : State) : Bool := s.sec.failedSlots.any (fun k => decide (k < 3))

def canSign (s : State) : Bool := s.sec.rootOk && !s.sec.tableFault && !signFault s && decide (0 < lmsRemain s)

/-- Burn a top index where the current lower tree is used up, and reserve the next block of lower indices in flash before
its first use (R463). -/
def nextIndex (s : State) : State :=
  let s := if s.otp.hssTop = 0 ∨ 32768 ≤ s.sec.lower then
      { s with otp := { s.otp with hssTop := s.otp.hssTop + 1 }, flash := { s.flash with hssRes := 0 }, sec := { s.sec with lower := 0 } }
    else s
  if s.flash.hssRes ≤ s.sec.lower then { s with flash := { s.flash with hssRes := s.sec.lower + 256 } } else s

/-- Sign a message: the ECDSA and the HSS signature, with the index spent (R462, R463). -/
def signPair (s : State) (msg : List Byte) : Option (List Byte × List Byte × State) :=
  if !canSign s then none
  else
    let s := nextIndex s
    let (n, s) := takeFree s
    let k (i : Nat) : List Byte := ((look s.sec.slots i).map (·.key)).getD []
    let e := sliceB (Config.ecdsaSig n (k 0) msg) 0 96
    let h := sliceB (Config.hssSig (k 1) (s.otp.hssTop - 1) s.sec.lower msg) 0 5236
    let s := s.modSec (fun c => { c with lower := c.lower + 1 })
    let s := if lmsRemain s < 1677721 ∧ !s.sec.lmsLow then report (s.modSec (fun c => { c with lmsLow := true })) 22 0 64 else s
    some (e, h, s)

/-- Take a token of a bucket: the one of VF `v`, or the shared one for 0 (R464). -/
def takeToken (s : State) (v : Nat) : Option State :=
  if v = 0 then
    if s.sec.shared = 0 then none else some (s.modSec (fun c => { c with shared := c.shared - 1 }))
  else
    let n := lookD s.sec.tokens v 0
    if n = 0 then none else some (s.modSec (fun c => { c with tokens := putD c.tokens v (n - 1) 0 }))

end Sys2Proof.Machine
end

