-- ==== Sys2Proof/Machine/Compose.lean ====
section
/-! DEFINITION. Composition requests and their events, hot spares and time-sharing (R244, R245, R251–R264, R271, R280). -/

namespace Sys2Proof.Machine

/- Statuses of R252. -/
def coOk : Nat := 0
def coField : Nat := 1
def coBadState : Nat := 2
def coNoResource : Nat := 3
def coClassRule : Nat := 4
def coWayRule : Nat := 5
def coLaneRule : Nat := 6
def coBusy : Nat := 7
def coDeadline : Nat := 8
def coAborted : Nat := 9
def coFault : Nat := 10
def coNoFunction : Nat := 11

def cgFree (s : State) (g : Nat) : Bool := cgBit s.pool.cgReady g && !cgBit s.pool.cgFenced g && (s.cgSlice g).isNone
def pairFree (s : State) (p : Nat) : Bool :=
  pairBit s.pool.pairReady p && !pairBit s.pool.pairFenced p && (s.pairSlice p).isNone && !(s.pairMem p).filling
def portFree (s : State) (p : Nat) : Bool := !portBit s.pool.portAside p && (s.portSlice p).isNone

/-- Carve a slice from free units (R244). -/
def carve (s : State) (k : Nat) (cgs : BitVec 48) (pairs : BitVec 64) (ports : BitVec 24) (shared : Bool) : State :=
  { s with pool := { s.pool with slices := put s.pool.slices k { cgs := cgs, pairs := pairs, ports := ports, isShared := shared } } }

/-- CREATE_SLICE (R244). -/
def createSlice (s : State) (flags : Nat) (cgs pairs ports : Nat) : State × Nat :=
  let shared := flags.testBit 0
  if 1 < flags ∨ 2 ^ 48 ≤ cgs ∨ 2 ^ 64 ≤ pairs ∨ 2 ^ 24 ≤ ports then (s, coField)
  else if (cgs = 0 ∧ pairs = 0 ∧ ports = 0) ∨ (shared ∧ (pairs ≠ 0 ∨ ports ≠ 0)) then (s, coField)
  else if !((bitsOf 48 cgs).all (cgFree s) && (bitsOf 64 pairs).all (pairFree s) && (bitsOf 24 ports).all (portFree s)) then
    (s, coNoResource)
  else
    match lowestFree s.pool.slices 0 128 with
    | none => (s, coNoResource)
    | some k => (carve s k (BitVec.ofNat 48 cgs) (BitVec.ofNat 64 pairs) (BitVec.ofNat 24 ports) shared, coOk)

/-- A slice is UNUSED again: its units return to the pool (R245). -/
def dropSlice (s : State) (k : Nat) : State := { s with pool := { s.pool with slices := del s.pool.slices k } }

/-- DESTROY_SLICE (R245). -/
def destroySlice (s : State) (k : Nat) : State × Nat :=
  match look s.pool.slices k with
  | none => (s, if 127 < k then coField else coBadState)
  | some x =>
    let ok : Bool := match x.st with | .carved | .marked _ => true | _ => false
    if !ok ∨ sliceBusy s k then (s, coBadState)
    else if x.pairs = 0 then (dropSlice s k, coOk)
    else
      let s := setSlice s k (fun y => { y with st := .releasing })
      (poolKept (fun s => startFill s (bitsOf 64 x.pairs.toNat)) s, coOk)

/-- The zero-fill of a releasing slice ends; pairs whose fill failed are fenced and reported (R163, R245). -/
def sliceFilled (s : State) (k : Nat) (failed : BitVec 64) : State :=
  match look s.pool.slices k with
  | none => s
  | some x =>
    if x.st ≠ .releasing then s
    else
      let bad := bitsOf 64 (x.pairs &&& failed).toNat
      let s := poolKept (fun s => bad.foldl (fun s p => report s 6 p 64) (endFill s (slicePairs s x))) s
      let s := { s with pool := { s.pool with pairFenced := s.pool.pairFenced ||| (x.pairs &&& failed) } }
      dropSlice s k

/- Binding (R253, R254). -/

def vdReady (s : State) (v : Nat) : Option Nat :=
  if !(s.vd v).live || (s.vd v).teardown then some coBadState
  else if (s.vd v).req.isSome || (s.vd v).posture.isSome then some coBusy
  else none

/-- BIND (R253): the first condition that fails gives the status. -/
def bindReq (s : State) (v k w0 w1 : Nat) : State × Nat :=
  if 63 < v ∨ 127 < k then (s, coField)
  else
    match vdReady s v with
    | some st => (s, st)
    | none =>
      match look s.pool.slices k with
      | none => (s, coBadState)
      | some x =>
        let okSt : Bool := match x.st with | .carved => true | .marked u => u = v | _ => false
        if !okSt ∨ sliceBusy s k ∨ x.isShared then (s, coBadState)
        else
          let cgs := s.vdCgs v ++ sliceCgs s x
          let spare := (cgs.filter (fun g => (s.cgLane v g).isNone && !s.cgShared g)).length
          if spare < sparesFor cgs.length ∨ (classOf cgs.length = 3 ∧ unmirrored s v) then (s, coClassRule)
          else if !waysOk s v (s.vdPairs v ++ bitsOf 64 x.pairs.toNat) w0 w1 then (s, coWayRule)
          else
            (s.modVd v (fun y => { y with holdAccept := true, req := some {
              op := 5, slice := k, ways0 := BitVec.ofNat 16 w0, ways1 := BitVec.ofNat 16 w1, stage := .compute } }), coOk)

/-- t1 of a bind to its release: HELD, keys, cores, ways, release (R254). It waits for a hang sequence (R280). -/
def bindHold (s : State) (v : Nat) (good : Bool) : State :=
  match (s.vd v).req with
  | none => s
  | some r =>
    match look s.pool.slices r.slice with
    | none => s
    | some x =>
      if r.op ≠ 5 ∨ !vdQuiet s v ∨ vdHung s v then s
      else
        let ps := slicePairs s x
        let k := if ps = [] then (s, true) else useSlotKey s (seedSlot v) good
        let s := poolKept (fun _ => k.1) s
        if !k.2 ∨ (ps ≠ [] ∧ s.sec.tableFault) then poolKept (fun s => endReq (setHeld s v) v 5 coFault false) s
        else
          let s := poolKept (fun s => loadKeys (setHeld s v) v ps) s
          let s := setSlice s r.slice (fun y => { y with st := .bound v })
          poolKept (fun s =>
            let s := ((sliceCgs s x).flatMap cgCores).foldl (fun s c => coreJoins s c v) s
            endReq (autoWheels (setWays s v r.ways0.toNat r.ways1.toNat)) v 5 coOk true) s

/-- BIND_HOLD_REACHED; `seedOk` is the tag check of the seed's slot before its use (R456). -/
def execBindHoldReached (v : VdId) (seedOk : Bool) (s : State) : Host.Outcome State Fault Refusal := done s (bindHold s v.val seedOk)

/- Unbinding (R255–R257). -/

/-- The classes after an unbind of a slice leave a working core group and enough spares (R255). -/
def unbindClassOk (s : State) (v : Nat) (x : Slice) : Bool :=
  let rest := (s.vdCgs v).filter (fun g => !cgBit x.cgs g)
  let h := sparesFor rest.length
  let can := (rest.filter (fun g => (s.cgLane v g).isNone && !s.cgShared g)).length
  decide (h ≤ can) && decide (h < rest.length)

/-- Start an unbind's compute phase (R257). -/
def computePhase (s : State) (v : Nat) : State :=
  s.modVd v (fun y => { y with holdAccept := true, req := y.req.map (fun r => { r with stage := .compute }) })

/-- UNBIND (R255, R256). -/
def unbindReq (s : State) (v k w0 w1 dl : Nat) : State × Nat :=
  if 63 < v ∨ 127 < k ∨ dl = 0 ∨ 600000 < dl then (s, coField)
  else
    match vdReady s v with
    | some st => (s, st)
    | none =>
      match look s.pool.slices k with
      | none => (s, coBadState)
      | some x =>
        if x.st ≠ .bound v then (s, coBadState)
        else if !unbindClassOk s v x then (s, coClassRule)
        else if (bitsOf 48 x.cgs.toNat).any (fun g => (s.cgLane v g).isSome) then (s, coLaneRule)
        else if !waysOk s v ((s.vdPairs v).filter (fun p => !pairBit x.pairs p)) w0 w1 then (s, coWayRule)
        else
          let req : OpenReq := { op := 6, slice := k, ways0 := BitVec.ofNat 16 w0, ways1 := BitVec.ofNat 16 w1, stage := .memory }
          let s := s.modVd v (fun y => { y with req := some req })
          if x.pairs = 0 then (computePhase s v, coOk)
          else (notice (s.modVd v (fun y => { y with leave := x.pairs })) v 0, coOk)

/-- MOVE_DONE: a write of CMP_VD_CTL with bit 0 set; outside the memory phase only its other fields act (R256, R282). -/
def moveDone (s : State) (v : Nat) : State :=
  match (s.vd v).req with
  | some r => if r.op = 6 ∧ r.stage = .memory then computePhase s v else s
  | none => s

def writeVdCtl (s : State) (v : Nat) (go : Bool) (vector : Nat) (en : Bool) : State :=
  let s := s.modVd v (fun y => { y with vector := vector, noticeEn := en })
  if go then moveDone s v else s

def execMoveDone (v : VdId) (vector : Fin 64) (en : Bool) (s : State) : Host.Outcome State Fault Refusal :=
  doneKeep s (hostGate s v.val (fun s => writeVdCtl s v.val true vector.val en))

def execUnbindDeadline (v : VdId) (s : State) : Host.Outcome State Fault Refusal :=
  doneKeep s (match (s.vd v.val).req with
    | some r => if r.op = 6 ∧ r.stage = .memory then endReq s v.val 6 coDeadline false else s
    | none => s)

/-- Core groups of the slice that a VD's open unbind takes. -/
def leavingCgs (s : State) (v : Nat) : List Nat :=
  match (s.vd v).req with
  | some r => if r.op = 6 then ((look s.pool.slices r.slice).map (fun x => bitsOf 48 x.cgs.toNat)).getD [] else []
  | none => []

/-- UNBIND_HOLD_REACHED: HELD; the class is checked again, and tasks on leaving core groups move at their next wait
(R257 t2, t3, R280). -/
def unbindHold (s : State) (v : Nat) : State :=
  match (s.vd v).req with
  | none => s
  | some r =>
    if r.op ≠ 6 ∨ r.stage ≠ .compute ∨ !vdQuiet s v ∨ vdHung s v then s
    else
      match look s.pool.slices r.slice with
      | none => s
      | some x =>
        if !unbindClassOk s v x then endReq s v 6 coClassRule false
        else
          let s := (setHeld s v).modVd v (fun y => { y with req := some { r with stage := .held } })
          (tasksOn s (leavingCgs s v)).foldl (fun s t =>
            match s.task? t with
            | some q => if q.st = .waiting then moveTask s t else s.modTask t (fun q => if q.stopPend then q else { q with stopPend := true, stopSrc := 1 })
            | none => s) s

def execUnbindHoldReached (v : VdId) (s : State) : Host.Outcome State Fault Refusal := doneKeep s (unbindHold s v.val)

def execResidentWaitExpiry (v : VdId) (s : State) : Host.Outcome State Fault Refusal :=
  doneKeep s (match (s.vd v.val).req with
    | some r =>
      let ts := tasksOn s (leavingCgs s v.val)
      if r.op = 6 ∧ r.stage = .held ∧ ts ≠ [] then
        let s := ts.foldl (fun s t => s.modTask t (fun q => if q.stopSrc = 1 then { q with stopPend := false, stopSrc := 0 } else q)) s
        endReq s v.val 6 coAborted false
      else s
    | none => s)

/-- UNBIND_RELEASE: once tasks have moved and Lift operations on leaving ports have ended, the slice leaves (R257 t4–t7). -/
def unbindRelease (s : State) (v : Nat) : State :=
  match (s.vd v).req with
  | none => s
  | some r =>
    match look s.pool.slices r.slice with
    | none => s
    | some x =>
      let busy : Bool := !(tasksOn s (leavingCgs s v)).isEmpty || s.talko.ops.any (fun o => portBit x.ports o.2.port)
      if r.op ≠ 6 ∨ r.stage ≠ .held ∨ busy then s
      else
        let s := poolKept (fun s => sliceLeaves s x) s
        let s := setSlice s r.slice (fun y => { y with st := if x.pairs = 0 then .carved else .marked v })
        poolKept (fun s => endReq (autoWheels (setWays s v r.ways0.toNat r.ways1.toNat)) v 6 coOk true) s

def execUnbindRelease (v : VdId) (s : State) : Host.Outcome State Fault Refusal := done s (unbindRelease s v.val)

/-- ABORT_UNBIND, before t2 (R257). -/
def abortUnbind (s : State) (v : Nat) : State × Nat :=
  if 63 < v then (s, coField)
  else
    match (s.vd v).req with
    | some r => if r.op = 6 ∧ r.stage ≠ .held then (endReq s v 6 coAborted false, coOk) else (s, coBadState)
    | none => (s, coBadState)

/- Teardown up to the fill (R247 t0–t3). -/

/-- DESTROY_VD (R247, R280). -/
def destroyVd (s : State) (v : Nat) : State × Nat :=
  if v = 0 ∨ 63 < v then (s, coField)
  else if !(s.vd v).live || (s.vd v).teardown then (s, coBadState)
  else if (s.vd v).posture.isSome then (s, coBusy)
  else
    let s := match (s.vd v).req with | some r => endReq s v r.op coAborted false | none => s
    let s := s.modVd v (fun y => { y with teardown := true, holdAccept := true, req := some { op := 4, stage := .held } })
    (functionReset s v, coOk)

/-- The slices bound to a VD. -/
def boundSlices (s : State) (v : Nat) : List (Nat × Slice) := s.pool.slices.filter (fun p => p.2.st = .bound v)

/-- t2 of a teardown: every slice is unbound, ways are removed and the fill of every pair starts (R247). -/
def teardownHold (s : State) (v : Nat) : State :=
  let bs := boundSlices s v
  let s := poolKept (fun s => bs.foldl (fun s b => sliceLeaves s b.2) (setHeld s v)) s
  let s := bs.foldl (fun s b => setSlice s b.1 (fun y => { y with st := if y.pairs = 0 then .carved else .marked v })) s
  poolKept (fun s => startFill (autoWheels (setWays s v 0 0)) (ownedPairs s v)) s

/- Lanes (R263, R264). -/

/-- SET_LANE (R263): the change waits for the VD's step boundary. -/
def setLane (s : State) (v lane cgs : Nat) : State × Nat :=
  if 63 < v ∨ 15 < lane ∨ 2 ^ 48 ≤ cgs then (s, coField)
  else
    match vdReady s v with
    | some st => (s, st)
    | none =>
      let gs := bitsOf 48 cgs
      let used := s.gfe.qps.any (fun q => q.2.fn = v && (q.2.lane = lane || q.2.laneNext = some lane))
      let bad : Bool :=
        if cgs = 0 then used || !has (s.vd v).lanes lane
        else decide (8 < gs.length) || !gs.all (fun g =>
          (s.vdWorking v).contains g && !s.cgShared g && (match s.cgLane v g with | some l => l = lane | none => true))
      if bad then (s, coLaneRule)
      else
        let r : OpenReq := { op := 8, lane := lane, cgs := BitVec.ofNat 48 cgs }
        let s := s.modVd v (fun y => { y with req := some r })
        (if vdQuiet s v then applyLane s v r else s, coOk)

/-- A lane change that waited takes effect at the VD's step boundary (R263). -/
def laneBoundary (s : State) (v : Nat) : State :=
  match (s.vd v).req with
  | some r => if r.op = 8 ∧ vdQuiet s v then applyLane s v r else s
  | none => s

/-- SET_QP_LANE (R264): every queue pair of a service is bound alike; it acts from the next step boundary. -/
def setQpLane (s : State) (q lane : Nat) : State × Nat :=
  match s.qp? q with
  | none => (s, if 4095 < q then coField else coBadState)
  | some x =>
    if 15 < lane ∧ lane ≠ 0xFF then (s, coField)
    else if lane ≠ 0xFF ∧ !has (s.vd x.fn).lanes lane then (s, coLaneRule)
    else if (svcQps s x.service).any (fun p => p.1 ≠ q && p.2.laneNext.getD p.2.lane ≠ lane) then (s, coLaneRule)
    else
      let running := match s.service? x.service with | some v => stepRunning v | none => false
      let s := if running then s.modQp q (fun y => { y with laneNext := some lane }) else s.modQp q (fun y => { y with lane := lane, laneNext := none })
      (notice s x.fn 4, coOk)

/- Time-sharing (R261). -/

/-- SET_SHARE (R245, R261). -/
def setShare (s : State) (k : Nat) (group : List (Nat × Nat)) : State × Nat :=
  let used := group.filter (fun p => p.1 ≠ 0)
  let badEntry := used.any (fun p => decide (63 < p.1) || decide (p.2 < 1) || decide (1000 < p.2))
    || group.any (fun p => p.1 = 0 && p.2 ≠ 0)
  if 127 < k ∨ badEntry ∨ used.length = 1 ∨ 8 < used.length ∨ !decide ((used.map (·.1)).Nodup) then (s, coField)
  else
    match look s.pool.slices k with
    | none => (s, coBadState)
    | some x =>
      if !x.isShared ∨ used.any (fun p => !(s.vd p.1).live || (s.vd p.1).teardown) then (s, coBadState)
      else
        match x.st with
        | .carved =>
          if used = [] then (s, coOk)
          else
            let s := setSlice s k (fun y => { y with st := .shared, group := used, nextGroup := none, holder := 0, quantumOver := false })
            (poolKept (fun s => shareDone (((sliceCgs s x).flatMap cgCores).foldl (fun s c => coreJoins s c ((used.headD (0, 0)).1)) s) used) s,
              coOk)
        | .shared => (shareSwitch (setSlice s k (fun y => { y with nextGroup := some used })) k, coOk)
        | _ => (s, coBadState)

/-- QUANTUM_EXPIRY: the holder keeps the core groups to its next step boundary (R261). -/
def execQuantumExpiry (k : Fin 128) (s : State) : Host.Outcome State Fault Refusal :=
  done s (setSlice s k.val (fun x => if x.st = .shared then { x with quantumOver := true } else x))

/-- CORE_SWITCH: the core groups of the shared slice that holds CG `g` change VD once their holder is at a boundary and
its quantum has ended, or a new group waits (R78, R261, R280). -/
def execCoreSwitch (g : CgId) (s : State) : Host.Outcome State Fault Refusal :=
  done s (match s.cgSlice g.val with
    | some (k, x) =>
      if ((sliceCgs s x).flatMap cgCores).all (coreQuiet s) then shareSwitch s k else s
    | none => s)

/- Hot spares (R258, R259). -/

/-- Parts of a core's share of a node that are still outstanding: its origin's tiles, wherever they are. -/
def shareLeft (s : State) (lid node core : Nat) : Nat :=
  let mine (t : Tile) : Bool := t.launch = lid && t.node = node && t.origin = core
  let cnt (ts : List Tile) : Nat := (ts.filter mine).length
  s.cores.foldl (fun a c => a + cnt c.2.tq + cnt c.2.backlog) 0
    + s.engs.foldl (fun a e => a + cnt e.2.queue + cnt e.2.held + (match e.2.run with | some r => if mine r.tile && r.tile.slot = 0xFF then 1 else 0 | none => 0)) 0
    + s.xmsgs.foldl (fun a m => a + (match m with | .grant _ _ ts => cnt ts | .done _ _ t => if mine t then 1 else 0 | _ => 0)) 0

/-- Every copy of a core's tiles goes: in queues, on engines, on thieves and in messages (R258 t1). Origins of the tiles it had
stolen are told, as after a reset (R97; DEDUCED, log 154). -/
def dropOrigin (s : State) (core : Nat) : State :=
  let lost := (keys (s.cores.filter (fun p => p.1 ≠ core && p.2.granted.any (fun t => t.1 = core && t.2.origin ≠ core))))
  let keep (t : Tile) : Bool := t.origin ≠ core
  { s with
    cores := mapVals s.cores (fun c k => if c = core then { k with tq := [], backlog := [], granted := [], slots := [], xreq := .none }
      else feedCore { k with tq := k.tq.filter keep, backlog := k.backlog.filter keep, granted := k.granted.filter (fun p => keep p.2) })
    engs := mapVals s.engs (fun i e =>
      let run := match e.run with | some r => if keep r.tile && engCore i ≠ core then e.run else none | none => none
      if engCore i = core then { clearEng e with queue := [], run := none, claimWait := false, held := [], replaying := false, hangReason := 0 }
      else { e with queue := e.queue.filter keep, held := e.held.filter keep, run := run })
    xmsgs := lost.map (fun o => .resetNotice core o) ++ s.xmsgs.filterMap (fun m => match m with
      | .grant t v ts => if t = core then none else some (.grant t v (ts.filter keep))
      | .request t v => if t = core ∨ v = core then none else some m
      | .deny t v => if t = core ∨ v = core then none else some m
      | .done t o x => if keep x then some (.done t o x) else none
      | .resetNotice t o => if o = core then none else some (.resetNotice t o)) }

/-- A failed core leaves the scope; of its dirty lines the lost ones are poisoned at their homes, the others written back
(R175, R258). -/
def coreFails (s : State) (c : Nat) (lost : List Nat) : State :=
  let tag := (s.coreTag c).toNat
  let s := lost.foldl (fun s line =>
    let l := s.dcLine c line
    if l.st = .m ∨ l.st = .o then
      let s := s.setDc c line {}
      s.setLlc line { s.llcLine line with poison := true, dirty := true }
    else s) s
  let s := flushCore s c
  leaveScope (leaveScope s c 0 tag) c 1 tag

/-- The spare's core `sp` takes the share of core `c` of one running launch and runs the whole of it again (R258 t2). -/
def takeShare (s : State) (lid c sp : Nat) (l : Launch) (node : Nat) (outstanding : Nat) : State :=
  let pos := (l.cores.findIdx? (· = c)).getD 0
  match s.launch? lid with
  | none => s
  | some l' =>
    if (l'.nodes.getD node {}).kind = 3 ∨ (l'.nodes.getD node {}).kind = 5 ∨ l'.doneNodes.contains node then s
    else
      let ts := nodeTiles s lid l' node pos
      let s := s.modLaunch lid (fun q => { q with left := put q.left node (lookD q.left node 0 + ts.length - outstanding) })
      pushTiles s sp ts

/-- Put a spare core in the place of a failed one in a launch: its slot and its share of every node that has started. -/
def replaceCore (s : State) (lid c sp : Nat) (outs : List (Nat × Nat)) : State :=
  match s.launch? lid with
  | none => s
  | some l =>
    match freeSlot s sp with
    | none => failLaunch s lid { cause := 0x0015, detail := natLe 1 (coreCg c) }
    | some k =>
      let s := deliverCb (useSlot s sp k) l.vd sp k l.cb
      let pos := (l.cores.findIdx? (· = c)).getD 0
      let s := s.setLaunch lid { l with cores := l.cores.set pos sp, slots := l.slots.set pos k }
      outs.foldl (fun s p => takeShare s lid sp sp l p.1 p.2) s

/-- Launches with a share on a core. -/
def launchesOn (s : State) (c : Nat) : List (Nat × Launch) := s.gfe.launches.filter (fun p => p.2.cores.contains c)

/-- A core group of a VD fails (R258, R259). -/
def failCg (s : State) (g : Nat) (lost : List Nat) : State :=
  if cgBit s.pool.cgFenced g ∨ !cgBit s.pool.cgReady g then s
  else
    let vd := s.cgVd g
    let cs := cgCores g
    let working := match vd with | some v => (s.vdWorking v).contains g | none => false
    let s := { s with pool := { s.pool with cgFenced := s.pool.cgFenced ||| BitVec.ofNat 48 (2 ^ g) } }
    poolKept (fun s =>
      let s := report { s with cmp := { s.cmp with capGen := (s.cmp.capGen + 2) % 2 ^ 32 } } 5 g (vd.getD 64)
      -- what each share still owes, before its tiles go
      let owed : List (Nat × Nat × List (Nat × Nat)) := cs.flatMap (fun c => (launchesOn s c).map (fun p =>
        (c, p.1, p.2.started.map (fun i => (i, shareLeft s p.1 i c)))))
      let relayed (c lid : Nat) : Bool := sentByEngine s c lid
      let broken := (cs.flatMap (fun c => ((launchesOn s c).filter (fun p => relayed c p.1)).map (·.1))).eraseDups
      let s := cs.foldl (fun s c => dropOrigin (coreFails s c lost) c) s
      match vd with
      | none => s
      | some v =>
        let spares := (s.vd v).spares
        let s := broken.foldl (fun s l => failLaunch s l { cause := 0x000E, detail := natLe 2 0 ++ natLe 1 (cs.headD 0) }) s
        if !working then
          compRecord (s.modVd v (fun x => { x with spares := x.spares.erase g })) v 0x21 coOk
        else
          match spares with
          | [] =>
            let s := ((cs.flatMap (fun c => (launchesOn s c).map (·.1))).eraseDups).foldl (fun s l =>
              failLaunch s l { cause := 0x0015, detail := natLe 1 g }) s
            let s := (tasksOn s [g]).foldl moveTask s
            let s := s.modVd v (fun x => { x with lanes := mapVals x.lanes (fun _ gs => gs.erase g) })
            let s := compRecord s v 0x21 coOk
            settle (if s.vdWorking v = [] then (vdServices s v).foldl serviceDown s else s)
          | sp :: rest =>
            let s := noteFreq s sp (lookD s.pow.cgs g {}).step
            let s := { s with pow := { s.pow with cgs := put s.pow.cgs sp (lookD s.pow.cgs g {}) } }
            let s := s.modVd v (fun x => { x with spares := rest, lanes := mapVals x.lanes (fun _ gs => gs.map (fun h => if h = g then sp else h)) })
            let s := owed.foldl (fun s o =>
              if broken.contains o.2.1 then s
              else replaceCore s o.2.1 o.1 ((cgCores sp).getD ((cs.findIdx? (· = o.1)).getD 0) 0) o.2.2) s
            let s := (tasksOn s [g]).foldl moveTask s
            let s := notice (compRecord s v 0x20 coOk) v 2
            settle (closeMeter s v false true)) s

def execCgFailure (g : CgId) (lost : List LineId) (s : State) : Host.Outcome State Fault Refusal :=
  done s (failCg s g.val (lost.map (·.val)))

/-- METER_PERIOD_EXPIRY: every VD's window closes (R271). -/
def execMeterPeriodExpiry (s : State) : Host.Outcome State Fault Refusal :=
  doneKeep s (settle (((s.cmp.vds.filter (fun p => p.2.live)).map (·.1)).foldl (fun s v => closeMeter s v false false) s))

end Sys2Proof.Machine
end

