-- ==== Sys2Proof/Machine/Network.lean ====
section
/-! DEFINITION. The on-chip network's commands: Relay packets, multicasts, regulation, timeouts, router faults
(R216, R220–R226, R232–R242). -/

namespace Sys2Proof.Machine

/- Relay (R232, R242). -/

/-- RELAY_ARRIVAL. -/
def execRelayArrival (r : CoreId) (g block seg : W16) (s : State) : Host.Outcome State Fault Refusal :=
  doneKeep s (settle (relayArrive s r.val g.toNat block.toNat seg.toNat))

/-- RELAY_WAIT_EXPIRY: what is held is combined and goes on (R232). -/
def execRelayWaitExpiry (r : CoreId) (g block seg : W16) (s : State) : Host.Outcome State Fault Refusal :=
  doneKeep s (settle (match look s.net.groups g.toNat with
    | some x => if holdOf s r.val g.toNat block.toNat seg.toNat = [] then s
      else relayForward s r.val g.toNat block.toNat seg.toNat x true
    | none => s))

/- Multicast (R234–R236). -/

def State.setMc (s : State) (m : Nat) (x : Mcast) : State := { s with net := { s.net with mcasts := put s.net.mcasts m x } }

/-- Whether a target is still in the sender's scope (R234, R236, R242). -/
def mcReach (s : State) (x : Mcast) (t : Nat) : Bool :=
  s.coreVd t = some x.vd && s.coreTag t = x.tag && !cgBit s.pool.cgFenced (coreCg t)

/-- The delivery bitmap of an error record (R235, R338). -/
def mcErr (x : Mcast) : ErrRec := { cause := 0x000D, source := 1, detail := natLe 24 (maskOf x.acked) }

/-- End a multicast: its requests for reserved entries are cancelled, and a target that was not reached fails it (R235). -/
def endMc (s : State) (m : Nat) (x : Mcast) : State :=
  let s := { s with
    net := { s.net with mcasts := del s.net.mcasts m }
    cores := mapVals s.cores (fun _ c => { c with reserve := c.reserve.filter (· ≠ m) }) }
  if x.asked.all (fun t => x.acked.contains t) then s else engineError s x.sender (mcErr x)

/-- Complete a multicast once every target has acknowledged or cannot be reached. -/
def checkMc (s : State) (m : Nat) (x : Mcast) : State :=
  if x.targets.all (fun t => x.acked.contains t) then endMc s m x else s.setMc m x

/-- Deliver the payload to a target (R234). -/
def mcDeliver (s : State) (x : Mcast) (t : Nat) : State :=
  match x.dest with
  | .scratch a => s.modCore t (fun c => spWriteN c x.tag a.val (x.payload.take (2752512 - a.val)))
  | .facet st => s.modCore t (fun c => { c with ingress := c.ingress ++ [(st.toNat, x.payload)] })

/-- MULTICAST_ISSUE: targets outside the sender's VD leave the bitmap and count as not delivered (R234). -/
def execMulticastIssue (e : EngId) (targets : BitVec 192) (dst : McDest) (payload : List Byte) (s : State) :
    Host.Outcome State Fault Refusal :=
  let c := engCore e.val
  doneKeep s (match s.coreVd c with
    | none => s
    | some v =>
      if payload = [] ∨ 2048 < payload.length then s
      else
        let asked := bitsOf 192 targets.toNat
        let x : Mcast := { sender := e.val, vd := v, tag := s.coreTag c, payload := payload, dest := dst, asked := asked }
        let go := asked.filter (mcReach s x)
        let m := s.net.nextMc
        let s := { s with net := { s.net with nextMc := if m + 1 = 2 ^ 32 then 1 else m + 1 } }
        checkMc s m { x with targets := go, copies := go })

/-- Act on a multicast at a target that one of its lists names. -/
def onMc (s : State) (m : Nat) (t : Nat) (act : State → Mcast → State) : State :=
  match look s.net.mcasts m with
  | none => s
  | some x => if x.targets.contains t then settle (act s x) else s

/-- MC_COPY_RECEIVE: the ingress takes the copy or, for want of an entry, refuses it; a target that has left the scope is
not delivered (R235, R236). -/
def execMcCopyReceive (m : W32) (t : CoreId) (room : Bool) (s : State) : Host.Outcome State Fault Refusal :=
  doneKeep s (onMc s m.toNat t.val (fun s x =>
    if !x.copies.contains t.val then s
    else
      let x := { x with copies := x.copies.erase t.val }
      if !mcReach s x t.val then checkMc s m.toNat { x with targets := x.targets.erase t.val }
      else if room then (mcDeliver s x t.val).setMc m.toNat { x with answers := x.answers ++ [(t.val, true)] }
      else s.setMc m.toNat { x with answers := x.answers ++ [(t.val, false)] }))

/-- MC_ACK (R235). -/
def execMcAck (m : W32) (t : CoreId) (s : State) : Host.Outcome State Fault Refusal :=
  doneKeep s (onMc s m.toNat t.val (fun s x =>
    if !x.answers.contains (t.val, true) then s
    else
      let x := { x with answers := x.answers.erase (t.val, true) }
      if !mcReach s x t.val then checkMc s m.toNat { x with targets := x.targets.erase t.val }
      else checkMc s m.toNat { x with acked := x.acked ++ [t.val] }))

/-- MC_NACK: the sender asks for the target's one reserved entry, in order of arrival (R235). -/
def execMcNack (m : W32) (t : CoreId) (s : State) : Host.Outcome State Fault Refusal :=
  doneKeep s (onMc s m.toNat t.val (fun s x =>
    if !x.answers.contains (t.val, false) then s
    else
      let s := s.setMc m.toNat { x with answers := x.answers.erase (t.val, false) }
      s.modCore t.val (fun c => { c with reserve := c.reserve ++ [m.toNat] })))

/-- MC_GRANT: the first sender in the target's order has its entry and sends the retry (R235). -/
def execMcGrant (m : W32) (t : CoreId) (s : State) : Host.Outcome State Fault Refusal :=
  doneKeep s (onMc s m.toNat t.val (fun s x =>
    if (s.core t.val).reserve.head? = some m.toNat ∧ !x.granted.contains t.val then
      s.setMc m.toNat { x with granted := x.granted ++ [t.val], retries := x.retries ++ [t.val] }
    else s))

/-- MC_RETRY_RECEIVE: always taken, unless its grant was cancelled (R235, R242). -/
def execMcRetryReceive (m : W32) (t : CoreId) (s : State) : Host.Outcome State Fault Refusal :=
  doneKeep s (onMc s m.toNat t.val (fun s x =>
    if !x.retries.contains t.val then s
    else
      let x := { x with retries := x.retries.erase t.val, granted := x.granted.erase t.val }
      let s := s.modCore t.val (fun c => { c with reserve := c.reserve.erase m.toNat })
      if !mcReach s x t.val then checkMc s m.toNat { x with targets := x.targets.erase t.val }
      else (mcDeliver s x t.val).setMc m.toNat { x with answers := x.answers ++ [(t.val, true)] }))

/-- MC_TIMEOUT (R235). -/
def execMcTimeout (m : W32) (s : State) : Host.Outcome State Fault Refusal :=
  doneKeep s (match look s.net.mcasts m.toNat with
    | some x => settle (endMc s m.toNat x)
    | none => s)

/- Regulation (R220, R222, R226). -/

/-- The number of a master: ports, halves, then lanes by VD. -/
def masterNum : UrgMaster → Nat
  | .port p => p.val
  | .half h => 24 + h.val
  | .lane v l => 32 + 16 * v.val + l.val

/-- URGENCY_CHANGE: the latest level of a master stands (R226). -/
def execUrgencyChange (m : UrgMaster) (level : Fin 4) (s : State) : Host.Outcome State Fault Refusal :=
  doneKeep s { s with net := { s.net with urgency := putD s.net.urgency (masterNum m) level.val 0 } }

/-- A wheel entry, FREE where its VD does not exist. -/
def freeGone (s : State) (e : Nat) : Nat := if e < 0x8000 ∧ !(s.vd (e % 64)).live then 0x8000 else e

/-- WHEEL_ACTIVATE: the start of slot 0 of a wheel: its shadow takes effect, and entries that name a VD that is gone are FREE
(R222). -/
def execWheelActivate (w : Fin 32) (s : State) : Host.Outcome State Fault Refusal :=
  doneKeep s { s with net := { s.net with wheels := adjust s.net.wheels w.val (fun x => match x.shadow with
    | some t => { x with len := t.1, slots := t.2.map (freeGone s), shadow := none }
    | none => { x with slots := x.slots.map (freeGone s) }) } }

/-- LINK_FRAME_ACTIVATE: a router takes the device's frame at its next frame start (R220). -/
def execLinkFrameActivate (r : CoreId) (s : State) : Host.Outcome State Fault Refusal :=
  doneKeep s { s with net := { s.net with routerFrame := putD s.net.routerFrame r.val s.net.frame defaultFrame } }

/- Timeouts and faults (R216, R238–R240). -/

/-- The cause "network" with its unit (R338). -/
def netErr (unit : Nat) : ErrRec := { cause := 0x000C, source := 1, detail := natLe 2 unit }

/-- A coherence transaction whose answers do not come: every snoop still out counts as SnoopMiss (R175, R216). -/
def endTxn (s : State) (line : Nat) : State :=
  match (s.llcLine line).txn with
  | none => s
  | some t =>
    let s := t.invLeft.foldl (fun s c => homeAck s line c none) s
    let s := match t.fwd with | some o => homeMiss s line o | none => s
    homeClose s line

/-- NET_TXN_TIMEOUT: a tile fails, a descriptor ends, or a coherence transaction ends (R216). -/
def execNetTxnTimeout (w : TxnWho) (s : State) : Host.Outcome State Fault Refusal :=
  let s' := { s with net := { s.net with txnTimeouts := s.net.txnTimeouts + 1 } }
  doneKeep s (settle (match w with
    | .engine e => if (s.eng e.val).run.isSome ∨ (engTask s e.val).isSome then engineError s' e.val (netErr (engCore e.val)) else s
    | .desc d => match s.desc? d.toNat with
      | some _ => failDesc s' d.toNat (netErr (0x100 + d.toNat % 32))
      | none => s
    | .line l => if (s.llcLine l.val).txn.isSome then endTxn s' l.val else s))

/-- Routers of a die that are fenced. -/
def dieFenced (s : State) (d : Nat) : List Nat := s.net.fenced.filter (fun r => coreDie r = d)

/-- The bypass row of a row (R239). -/
def bypassRow (r : Nat) : Nat := if r = 7 then 6 else r + 1

/-- Rows of the bridge that a set of fenced routers puts out of use (R239). -/
def bridgeOut (fenced : List Nat) : List Nat :=
  (List.range 8).filter (fun r => fenced.contains (coreAt r 11) || fenced.contains (coreAt r 12))

/-- Whether the bypasses of R239 are valid with a set of fenced routers. -/
def bypassOk (fenced : List Nat) : Bool :=
  [0, 1].all (fun d => decide ((fenced.filter (fun r => coreDie r = d)).length ≤ 8))
    && fenced.all (fun a => fenced.all (fun b =>
      decide (a = b) || decide (coreDie a ≠ coreDie b)
        || !(decide ((coreRow a : Int) - coreRow b ≤ 2 ∧ (coreRow b : Int) - coreRow a ≤ 2)
          && decide ((coreCol a : Int) - coreCol b ≤ 2 ∧ (coreCol b : Int) - coreCol a ≤ 2))))
    && (bridgeOut fenced).all (fun r => fenced.all (fun x => decide (coreRow x ≠ bypassRow r)))

/-- Dies that stay halted once a router has drained: its own too, while another faulty router of it drains. -/
def haltedAfter (s : State) (r : Nat) : List Nat :=
  s.net.halted.filter (fun d => d ≠ coreDie r || s.net.faulty.any (fun x => x ≠ r && coreDie x = d))

/-- ROUTER_FAULT: Beryl halts injection on the die (R238 t0, t1). -/
def execRouterFault (r : CoreId) (s : State) : Host.Outcome State Fault Refusal :=
  doneKeep s (if s.net.fenced.contains r.val ∨ s.net.faulty.contains r.val then s
    else
      let d := coreDie r.val
      let s := { s with net := { s.net with faulty := s.net.faulty ++ [r.val], halted := (s.net.halted.filter (· ≠ d)) ++ [d] } }
      report s 7 r.val ((s.coreVd r.val).getD 64))

/-- ROUTER_DRAIN_DONE: packets held in the router are lost, it is isolated and its CG fenced, and injection resumes;
bypasses that would not be valid are reported and close composition (R238 t2–t4, R239). -/
def execRouterDrainDone (r : CoreId) (s : State) : Host.Outcome State Fault Refusal :=
  done s (if !s.net.faulty.contains r.val then s
    else
      let lostHere : Nat := (s.net.pkts.filter (fun p => p.1 = r.val)).length
        + ((s.net.holds.filter (fun h => h.router = r.val)).map (fun h => h.pkts.length)).sum
      let fenced := s.net.fenced ++ [r.val]
      let ok := bypassOk fenced
      let s := { s with net := { s.net with
        pkts := s.net.pkts.filter (fun p => p.1 ≠ r.val)
        holds := s.net.holds.filter (fun h => h.router ≠ r.val)
        droppedPkts := s.net.droppedPkts + lostHere
        fenced := fenced, faulty := s.net.faulty.filter (· ≠ r.val), halted := haltedAfter s r.val, unroutable := s.net.unroutable || !ok } }
      let s := if ok then s else report s 8 r.val 64
      failCg s (coreCg r.val) [])

end Sys2Proof.Machine
end

