-- ==== Sys2Proof/Machine/Pcie.lean ====
section
/-! DEFINITION. The PCIe host link: resets of the link, configuration space, BAR4, completions to device requests, and PRI
(R394–R415, R500). -/

namespace Sys2Proof.Machine

/- Link state. -/

/-- A rate in units of 0.5 GT/s. -/
def rateOf : LinkRate → Nat
  | .r2 => 5
  | .r5 => 10
  | .r8 => 16
  | .r16 => 32
  | .r32 => 64
  | .r64 => 128
  | .r128 => 256

def widthOf : LinkWidth → Nat
  | .x1 => 1
  | .x2 => 2
  | .x4 => 4
  | .x8 => 8
  | .x16 => 16

def State.half (s : State) (h : Nat) : Half := s.pcie.halves.getD h {}
def State.modHalf (s : State) (h : Nat) (f : Half → Half) : State :=
  { s with pcie := { s.pcie with halves := s.pcie.halves.mapIdx (fun i x => if i = h then f x else x) } }

/-- The half that carries a function; key 64 is C1 (R397). -/
def fnHalf (s : State) (f : Nat) : Nat := if s.pcie.split ∧ s.pcie.splitPoint < f then 1 else 0

/-- A half trains: rates of 64 GT/s and above run in Flit mode, and those below 32 GT/s do not (R394); the x16 link is that
of half 0 (R395). -/
def linkUp (s : State) (h rate width : Nat) (flit : Bool) : State :=
  if h = 1 ∧ !s.pcie.split then s
  else (noteFreq s (96 + h) (if 256 ≤ rate then 80 else if 128 ≤ rate then 40 else 20)).modHalf h (fun x => { x with
    up := true, rate := rate, width := if s.pcie.split then min width 8 else width,
    flit := decide (128 ≤ rate) || (flit && decide (64 ≤ rate)) })

def execPcieLinkUp (h : Fin 2) (rate : LinkRate) (width : LinkWidth) (flit : Bool) (s : State) : Host.Outcome State Fault Refusal :=
  doneKeep s (linkUp s h.val (rateOf rate) (widthOf width) flit)

/- Resets of the link (R399). -/

def physKey : PhysFn → Nat
  | .pf0 => 0
  | .c1 => 64

/-- FLR of a VF: the function reset. -/
def execFlrVf (f : FnId) (s : State) : Host.Outcome State Fault Refusal :=
  doneKeep s (if f.val ≠ 0 ∧ vfOn s f.val then functionReset s f.val else s)

/-- FLR of PF0: its function reset, and the effect of clearing VF Enable. -/
def execFlrPf0 (s : State) : Host.Outcome State Fault Refusal := doneKeep s (fnReset s 0)

def execVfEnableClear (p : PhysFn) (s : State) : Host.Outcome State Fault Refusal := doneKeep s (vfClear s (decide (p = .c1)))

/-- TotalVFs of a physical function (R398). -/
def totalVfs (s : State) (p : PhysFn) : Nat :=
  match p, s.pcie.split with
  | .pf0, false => 63
  | .pf0, true => s.pcie.splitPoint
  | .c1, true => 63 - s.pcie.splitPoint
  | .c1, false => 0

/-- VF Enable sets with NumVFs: more VFs than TotalVFs cannot be enabled (R398). -/
def vfSet (s : State) (p : PhysFn) (n : Nat) : State :=
  if n ≤ totalVfs s p then s.modPf (physKey p) (fun x => { x with vfEn := true, numVfs := n }) else s

def execVfEnableSet (p : PhysFn) (n : Fin 64) (s : State) : Host.Outcome State Fault Refusal := doneKeep s (vfSet s p n.val)

/-- The reset of a physical function and of the VFs it carries: that of R343 on each, VF Enable clear, and for C1, which has
no virtual device, its configuration at once. -/
def physReset (s : State) (p : PhysFn) : State :=
  match p with
  | .pf0 => fnReset s 0
  | .c1 => clearPf (vfClear s true) 64

/-- Hot Reset or DL_Down of a half: every function it carries is reset, and its IDE keys are lost (R399, R414). -/
def hotReset (s : State) (h : Nat) : State :=
  if h = 1 ∧ !s.pcie.split then s
  else
    let s := physReset s (if h = 0 then .pf0 else .c1)
    s.modHalf h (fun x => { x with up := false, ideKeys := [] })

def execHotReset (h : Fin 2) (s : State) : Host.Outcome State Fault Refusal := doneKeep s (hotReset s h.val)

/-- D3hot to D0 runs the function reset: No_Soft_Reset is 0 (R399). -/
def d3ToD0 (s : State) (p : PhysFn) : State :=
  if (s.pf (physKey p)).pm = .d3hot then
    let s := match p with | .pf0 => fnReset s 0 | .c1 => clearPf s 64
    s.modPf (physKey p) (fun x => { x with pm := .d0 })
  else s

def execD3hotToD0 (p : PhysFn) (s : State) : Host.Outcome State Fault Refusal := doneKeep s (d3ToD0 s p)

/- PRI and BAR sizes. -/

/-- Clearing PRI Enable, or setting Reset, ends every waiting Page Request as a refusal (R412). -/
def priDisable (s : State) (f : Nat) (reset : Bool) : State :=
  let qs := s.xlt.pageReqs.filter (fun q => q.fn = f && q.sent)
  let s := qs.foldl refusePage s
  if reset then s else s.modPf f (fun p => { p with priEn := false })

def execPriDisable (f : FnId) (reset : Bool) (s : State) : Host.Outcome State Fault Refusal := doneKeep s (priDisable s f.val reset)

/-- A resize of BAR4 to 2^(30 + n) bytes clears DV_WIN.BASE of the functions whose BAR it is (R402, R408). -/
def resizeBar (s : State) (p : PhysFn) (vf : Bool) (n : Nat) : State :=
  if 9 < n ∨ (!vf ∧ p = .c1) then s
  else if !vf then ({ s with pcie := { s.pcie with bar4Log2 := 30 + n } }).modPf 0 (fun x => { x with dvBase := 0 })
  else
    let s := match p with
      | .pf0 => { s with pcie := { s.pcie with vfBar4Log2 := 30 + n } }
      | .c1 => { s with pcie := { s.pcie with c1Bar4Log2 := 30 + n } }
    let mine (f : Nat) : Bool := decide (1 ≤ f ∧ f ≤ 63) && (decide (fnHalf s f = 1) == decide (p = .c1))
    { s with pcie := { s.pcie with fns := mapVals s.pcie.fns (fun f x => if mine f then { x with dvBase := 0 } else x) } }

def execBar4Resize (p : PhysFn) (vf : Bool) (n : Fin 10) (s : State) : Host.Outcome State Fault Refusal :=
  doneKeep s (resizeBar s p vf n.val)

/-- The size of a function's BAR4 as a power of two. -/
def barLog2 (s : State) (f : Nat) : Nat :=
  if f = 0 then s.pcie.bar4Log2 else if fnHalf s f = 1 then s.pcie.c1Bar4Log2 else s.pcie.vfBar4Log2

/- BAR4 (R406–R410, R415). -/

/-- The device address of a BAR4 access of `n` bytes, where the access is served (R406). -/
def bar4Dpa (s : State) (f off n : Nat) : Option Nat :=
  let a := (s.pf f).dvBase * 2 ^ 30 + off
  if !fnOpen s f || (s.fn f).resetting || decide (n = 0) || decide (2 ^ barLog2 s f < off + n) || decide (dpaLimit < a + n) then none
  else if s.pairVd (dpaPair a) = some f ∧ s.pairVd (dpaPair (a + n - 1)) = some f ∧ (s.vd f).live then some a
  else none

def complete (s : State) (f : Nat) (st : CplStatus) (poison : Bool) (bs : List Byte) : State :=
  { s with pcie := { s.pcie with cpl := some { fn := f, status := st, poison := poison, data := bs } } }

/-- A host access counts towards HOST_BYTES of its function (R269). -/
def countLink (s : State) (f n : Nat) : State :=
  s.modVd f (fun v => { v with meter := { v.meter with hostBytes := v.meter.hostBytes + n } })

/-- A BAR4 access counts its 128-byte lines towards DEV_HOT (R205). -/
def countDev (s : State) (f a n : Nat) (write : Bool) : State :=
  (piecesOf 0x200000 a n).foldl (fun s p => countRegion s true f 0 (p.1 / 0x200000) ((p.1 + p.2 - 1) / 128 + 1 - p.1 / 128) write) s

/-- Bytes of TC2 at the channels of an access (R218, R229, R406). -/
def countTc2 (s : State) (a n : Nat) (write : Bool) : State :=
  (piecesOf 2048 a n).foldl (fun s p => countBytes s (dpaChan p.1) (if write then 10 else 2) p.2) s

/-- Whether the ECC unit that holds a byte is poisoned, as the home holds it (R156). -/
def bytePoison (s : State) (tag : BitVec 12) (a : Nat) : Bool :=
  let l := s.llcLine (a / 128)
  if l.valid ∧ l.tag = tag then (readLine s tag (a / 128)).2
  else if unitBytes s a = 64 then (unitMeta s (a / 64)).poison else hbmPoison s (a / 128)

/-- Bytes of the VD's memory as the host reads them: those of a poisoned unit are free values (R409). -/
def readPoisoned (s : State) (f a n : Nat) : List Byte × Bool × State :=
  let bs := (readDpaVd s f a n).1
  let bad : List Bool := (List.range n).map (fun i => bytePoison s (s.vdTag f) (a + i))
  if bad.any id then
    let (k, s) := takeFree s
    let s := report (s.modPf f (fun p => { p with aerPoisonEgress := true })) 1 (a / 128) f
    ((bs.zip bad).mapIdx (fun i p => if p.2 then Config.poisonByte k i else p.1), true, s)
  else (bs, false, s)

/-- BAR4_READ. -/
def bar4Read (s : State) (f off n : Nat) : State :=
  match bar4Dpa s f off n with
  | none => complete s f .unsupported false []
  | some a =>
    if (s.vd f).posSealed then complete (countLink s f n) f .success false (List.replicate n 0xFF)
    else
      let (bs, bad, s) := readPoisoned (countDev s f a n false) f a n
      complete (countTc2 (countLink s f n) a n false) f .success bad bs

def execBar4Read (f : FnId) (off : W64) (n : Fin 4097) (s : State) : Host.Outcome State Fault Refusal :=
  doneKeep s (bar4Read s f.val off.toNat n.val)

/-- BAR4_WRITE: poisoned data poisons each unit it touches (R409). -/
def bar4Write (s : State) (f off : Nat) (data : List Byte) (ep : Bool) : State :=
  match bar4Dpa s f off data.length with
  | none => logUr s f
  | some a =>
    let s := countLink s f data.length
    if (s.vd f).posSealed then s.modPf f (fun p => { p with sealedDrops := p.sealedDrops + 1 })
    else
      let s := countTc2 (countDev s f a data.length true) a data.length true
      let s := if ep then s.modPf f (fun p => { p with aerPoisonRx := true }) else s
      logDev (writeDpaRaw s (s.vdTag f) a data ep) f a data.length

def execBar4Write (f : FnId) (off : W64) (data : List Byte) (ep : Bool) (s : State) : Host.Outcome State Fault Refusal :=
  doneKeep s (bar4Write s f.val off.toNat (data.take 4096) ep)

def sizeOf_ : AtomicSize → Nat
  | .a4 => 4
  | .a8 => 8
  | .a16 => 16

/-- The value an AtomicOp stores, from the one it finds; none for a size the operation does not have (R410). -/
def atomicNew (op : AtomicOp) (n old : Nat) : Option Nat :=
  match op with
  | .fetchAdd v => if n ≤ 8 then some ((old + v.toNat) % 2 ^ (8 * n)) else none
  | .swap v => if n ≤ 8 then some (v.toNat % 2 ^ (8 * n)) else none
  | .cas c v => some (if old = c.toNat % 2 ^ (8 * n) then v.toNat % 2 ^ (8 * n) else old)

/-- BAR4_ATOMIC: indivisible at the home; to BAR0 or BAR2, or misaligned, it is an Unsupported Request (R410). -/
def bar4Atomic (s : State) (f : Nat) (bar : BarId) (off : Nat) (op : AtomicOp) (n : Nat) : State :=
  match bar, atomicNew op n 0, bar4Dpa s f off n with
  | .bar4, some _, some a =>
    if off % n ≠ 0 then complete (logUr s f) f .unsupported false []
    else if (s.vd f).posSealed then complete (countLink s f n) f .success false (List.replicate n 0xFF)
    else
      let (bs, bad, s) := readPoisoned (countDev s f a n true) f a n
      let s := countTc2 (countTc2 (countLink s f n) a n false) a n true
      let v := (atomicNew op n (leNat bs)).getD 0
      complete (logDev (writeDpaRaw s (s.vdTag f) a (natLe n v) bad) f a n) f .success bad bs
  | _, _, _ => complete (logUr s f) f .unsupported false []

def execBar4Atomic (f : FnId) (bar : BarId) (off : W64) (op : AtomicOp) (size : AtomicSize) (s : State) :
    Host.Outcome State Fault Refusal :=
  doneKeep s (bar4Atomic s f.val bar off.toNat op (sizeOf_ size))

/- Completions to device requests (R409). -/

/-- The request of an agent on the host link fails: the agent's work fails with the cause "network" (R338, R409); a ring
whose fetch fails goes to ERROR (R323). -/
def hostReqFails (s : State) (a : HostAgent) : State :=
  settle (match a with
    | .engine e => if (s.eng e.val).run.isSome ∨ (engTask s e.val).isSome then engineError s e.val (netErr (engCore e.val)) else s
    | .desc d => match s.desc? d.toNat with
      | some _ => failDesc s d.toNat (netErr (0x100 + d.toNat % 32))
      | none => s
    | .ring r => match s.ring? (refOf r) with
      | some x => ringError s (refOf r) 1 x.sh.head
      | none => s)

def execDeviceReqCompletion (a : HostAgent) (c : CplIn) (s : State) : Host.Outcome State Fault Refusal :=
  doneKeep s (match c with
    | .success => s
    | .poisoned | .unsupported | .abort => hostReqFails s a)

def execCompletionTimeout (a : HostAgent) (s : State) : Host.Outcome State Fault Refusal :=
  doneKeep s (hostReqFails (s.modPf 0 (fun p => { p with aerTimeout := true })) a)

/- Configuration space (R400, R401, R408). The identifiers and layouts of the base specification's own capabilities are
PRESUMED, log 36. -/

/-- Kinds of function: 0 PF0, 1 C1, 2 VF. -/
def fnRole (f : Nat) : Nat := if f = 0 then 0 else if f = 64 then 1 else 2

/-- Extended capabilities: offset, identifier, and whether PF0, C1 and a VF have it (R401). -/
def extCaps : List (Nat × Nat × List Bool) :=
  [(0x100, 0x0001, [true, true, true]), (0x150, 0x000E, [true, true, true]), (0x160, 0x0019, [true, true, false]),
   (0x190, 0x0025, [true, true, false]), (0x1A0, 0x0026, [true, true, false]), (0x1D0, 0x002A, [true, true, false]),
   (0x200, 0x0031, [true, true, false]), (0x220, 0x0027, [true, true, false]), (0x280, 0x000D, [true, true, false]),
   (0x290, 0x0015, [true, false, false]), (0x2A0, 0x0010, [true, true, false])]
  ++ [(0x2E0, 0x0024, [true, true, false]), (0x300, 0x000F, [true, false, true]), (0x310, 0x0013, [true, false, true]),
   (0x320, 0x002E, [true, true, true]), (0x340, 0x0030, [true, true, false]), (0x480, 0x0023, [true, true, true])]

def capsFor (role : Nat) : List (Nat × Nat) := (extCaps.filter (fun c => c.2.2.getD role false)).map (fun c => (c.1, c.2.1))

/-- The header of an extended capability: identifier, version 1, and the offset of the next one. -/
def extHeader (role off : Nat) : Option Nat :=
  let cs := capsFor role
  match cs.findIdx? (fun c => c.1 = off) with
  | some i => some ((cs.getD i (0, 0)).2 + 2 ^ 16 + 2 ^ 20 * ((cs[i + 1]?).map (·.1)).getD 0)
  | none => none

/-- DV_STAT (R408). -/
def dvStat (s : State) (f : Nat) : Nat :=
  fnRole f + 4 * b2n s.pcie.split + 8 * (if s.pcie.split then s.pcie.splitPoint else 0)
    + 512 * b2n ((s.half (fnHalf s f)).up && decide ((s.half (fnHalf s f)).rate < 64))

def aerStatus (p : PcieFn) : Nat :=
  2 ^ 12 * b2n p.aerPoisonRx + 2 ^ 14 * b2n p.aerTimeout + 2 ^ 20 * b2n p.aerUr + 2 ^ 26 * b2n p.aerPoisonEgress

/-- The vectors of a function (R351). -/
def vecCount (f : Nat) : Nat := if f = 0 then 2048 else 64

/-- The first response byte group of a DOE mailbox. -/
def doeWord (p : PcieFn) : Nat := fieldAt (p.doe.rsp.headD []) 0 4

def physOf (f : Nat) : PhysFn := if f = 64 then .c1 else .pf0

/-- What a configuration register reads, where this manual gives its content. -/
def cfgRead (s : State) (f off : Nat) : Option Nat :=
  let role := fnRole f
  let p := s.pf f
  let ph := decide (role ≠ 2)
  if off = 0x00 then some (0x1F7C + 2 ^ 16 * (if ph then 0x7410 else 0x7411))
  else if off = 0x08 then some (0xB1 + 0x12000000)
  else if off = 0x2C then some (0x1F7C + 2 ^ 16 * s.pcie.subsystem)
  else if off = 0x34 then some (if ph then 0x40 else 0x50)
  else if off = 0x40 ∧ ph then some (0x01 + (if role = 0 then 0x5000 else 0x6000))
  else if off = 0x44 ∧ ph then some (if p.pm = .d3hot then 3 else 0)
  else if off = 0x50 ∧ role ≠ 1 then
    some (0x11 + 0x6000 + 2 ^ 16 * (vecCount f - 1) + 2 ^ 30 * b2n p.msixMask + 2 ^ 31 * b2n p.msixEn)
  else if off = 0x54 ∧ role ≠ 1 then some (if role = 0 then 0x201000 else 0x21000)
  else if off = 0x58 ∧ role ≠ 1 then some (if role = 0 then 0x20C000 else 0x2C000)
  else if off = 0x60 then some 0x10
  else if off = 0x104 then some (aerStatus p)
  else if off = 0x298 ∧ role = 0 then some (2 ^ 8 * (s.pcie.bar4Log2 - 20))
  else if off = 0x2A8 ∧ ph then some (b2n p.vfEn + 16 * b2n p.ariHier)
  else if off = 0x2AC ∧ ph then some (totalVfs s (physOf f) * (1 + 2 ^ 16))
  else if off = 0x2B0 ∧ ph then some p.numVfs
  else if off = 0x2B4 ∧ ph then some (1 + 2 ^ 16)
  else if off = 0x2B8 ∧ ph then some (2 ^ 16 * 0x7411)
  else if off = 0x2BC ∧ ph then some 1
  else if off = 0x2E8 ∧ ph then some (2 ^ 8 * ((if f = 64 then s.pcie.c1Bar4Log2 else s.pcie.vfBar4Log2) - 20))
  else if off = 0x304 ∧ role ≠ 1 then some (2 ^ 5 + 2 ^ 31 * b2n p.atsEn)
  else if off = 0x314 ∧ role ≠ 1 then some (b2n p.priEn)
  else if off = 0x318 ∧ role ≠ 1 then some 256
  else if off = 0x328 then some (2 * b2n p.doe.intEn)
  else if off = 0x32C then some (2 * b2n p.doe.intStatus + 2 ^ 31 * b2n (decide (p.doe.rsp ≠ [])))
  else if off = 0x334 then some (doeWord p)
  else if off = 0x484 then some (0x1F7C + 2 ^ 16 + 2 ^ 20 * 0x20)
  else if off = 0x488 then some 1
  else if off = 0x48C then some (dvStat s f)
  else if off = 0x490 then some (2 ^ 30 * p.dvBase % 2 ^ 32)
  else if off = 0x494 then some (2 ^ 30 * p.dvBase / 2 ^ 32)
  else if off = 0x498 then some (b2n (decide (role ≠ 1) && (s.vd f).posSealed))
  else if off = 0x49C then some 0
  else extHeader role off

/-- A write of half of DV_WIN: one not aligned to the BAR4 size leaves the register as it was (R408). -/
def writeDvWin (s : State) (f : Nat) (hi : Bool) (v : Nat) : State :=
  let old := (s.pf f).dvBase * 2 ^ 30
  let new := if hi then old % 2 ^ 32 + 2 ^ 32 * (v % 2 ^ 7) else old / 2 ^ 32 * 2 ^ 32 + v / 2 ^ 30 * 2 ^ 30
  if new % 2 ^ barLog2 s f = 0 then s.modPf f (fun p => { p with dvBase := new / 2 ^ 30 }) else s

/-- Take one word of a DOE response: the host writes the read mailbox register (R413). -/
def doeTake (s : State) (f : Nat) : State :=
  s.modPf f (fun p => { p with doe := { p.doe with rsp := match p.doe.rsp with
    | [] => []
    | r :: t => if r.length ≤ 4 then t else r.drop 4 :: t } })

/-- A write of a configuration register. -/
def cfgWrite (s : State) (f off v : Nat) : State :=
  let role := fnRole f
  let ph := decide (role ≠ 2)
  if off = 0x44 ∧ ph then
    if v % 4 = 3 then s.modPf f (fun p => { p with pm := .d3hot })
    else if v % 4 = 0 then d3ToD0 s (physOf f)
    else s
  else if off = 0x50 ∧ role ≠ 1 then
    releaseVectors (s.modPf f (fun p => { p with msixMask := v.testBit 30, msixEn := v.testBit 31 })) f
  else if off = 0x68 ∧ v.testBit 15 then
    if role = 0 then fnReset s 0 else if role = 1 then clearPf (vfClear s true) 64 else functionReset s f
  else if off = 0x104 then
    s.modPf f (fun p => { p with
      aerPoisonRx := p.aerPoisonRx && !v.testBit 12, aerTimeout := p.aerTimeout && !v.testBit 14,
      aerUr := p.aerUr && !v.testBit 20, aerPoisonEgress := p.aerPoisonEgress && !v.testBit 26 })
  else if off = 0x298 ∧ role = 0 then if fld v 8 6 < 10 then s else resizeBar s .pf0 false (fld v 8 6 - 10)
  else if off = 0x2E8 ∧ ph then if fld v 8 6 < 10 then s else resizeBar s (physOf f) true (fld v 8 6 - 10)
  else if off = 0x2A8 ∧ ph then
    let s := s.modPf f (fun p => { p with ariHier := if p.vfEn then p.ariHier else v.testBit 4 })
    if v.testBit 0 ∧ !(s.pf f).vfEn then vfSet s (physOf f) (s.pf f).numVfs
    else if !v.testBit 0 ∧ (s.pf f).vfEn then vfClear s (decide (f = 64))
    else s
  else if off = 0x2B0 ∧ ph then
    if (s.pf f).vfEn ∨ totalVfs s (physOf f) < v % 2 ^ 16 then s else s.modPf f (fun p => { p with numVfs := v % 2 ^ 16 })
  else if off = 0x304 ∧ role ≠ 1 then s.modPf f (fun p => { p with atsEn := v.testBit 31 })
  else if off = 0x314 ∧ role ≠ 1 then
    if v.testBit 1 then priDisable s f true
    else if v.testBit 0 then s.modPf f (fun p => { p with priEn := true })
    else if (s.pf f).priEn then priDisable s f false
    else s
  else if off = 0x328 then
    let ab : Bool := v.testBit 0
    s.modPf f (fun p => { p with doe := { p.doe with
      intEn := v.testBit 1, rsp := if ab then [] else p.doe.rsp, dunir := if ab then none else p.doe.dunir } })
  else if off = 0x32C then s.modPf f (fun p => { p with doe := { p.doe with intStatus := p.doe.intStatus && !v.testBit 1 } })
  else if off = 0x334 then doeTake s f
  else if off = 0x490 then writeDvWin s f false v
  else if off = 0x494 then writeDvWin s f true v
  else s

/-- CONFIG_REQUEST: Request Retry Status before step 12 and during a function reset; else the answer (R399, R500). A
function that is not there does not answer. -/
def cfgRequest (s : State) (f : Nat) (op : CfgOp) : State :=
  let absent : Bool := if f = 64 then !s.pcie.split else decide (f ≠ 0) && s.boot.ready && !vfOn s f
  if absent then complete s f .unsupported false []
  else if !s.boot.ready ∨ (s.fn f).resetting then complete s f .retry false []
  else
    match op with
    | .read dw =>
      match cfgRead s f (4 * dw.val) with
      | some v => complete s f .success false (natLe 4 v)
      | none =>
        let (k, s) := takeFree s
        complete s f .success false (natLe 4 (Config.cfgWord k).toNat)
    | .write dw v => complete (cfgWrite s f (4 * dw.val) v.toNat) f .success false []

def execConfigRequest (f : LinkFn) (op : CfgOp) (s : State) : Host.Outcome State Fault Refusal :=
  doneKeep s (cfgRequest s (match f with | .fn f => f.val | .c1 => 64) op)

end Sys2Proof.Machine
end

