-- ==== Sys2Proof/Machine/Sampler.lean ====
section
/-! DEFINITION. Drafts, the mask automaton, the sampler's stages and stop detection (R137–R143). -/

namespace Sys2Proof.Machine

/-- A logit's place among numbers: −0 and +0 tie. -/
def rankKey (w : W32) : Int := if w.toNat.testBit 31 then - ((w.toNat % 2 ^ 31 : Nat) : Int) else ((w.toNat % 2 ^ 31 : Nat) : Int)

/-- Insert a token behind every token of at least its logit, and keep `k` (R139 stage 6; ties to the lower ID). -/
def insTop (t : Nat × W32) : Nat → List (Nat × W32) → List (Nat × W32)
  | 0, _ => []
  | _ + 1, [] => [t]
  | k + 1, x :: xs => if rankKey x.2 < rankKey t.2 then t :: (x :: xs).take k else x :: insTop t k xs

/-- The `k` highest logits in descending order. -/
def topK (k : Nat) (l : List W32) : List (Nat × W32) :=
  (l.zipIdx.map (fun p => (p.2, p.1))).foldl (fun acc t => insTop t k acc) []

/-- The highest logit, with the lowest token that has it. -/
def argmax (l : List W32) : Nat × W32 := (topK 1 l).headD (0, 0)

/-- Whether a row's result is one R139 states: no NaN, and a finite maximum where the draw needs one. -/
def rowStated (l : List W32) (greedy : Bool) : Bool :=
  l.all (fun w => !isNan32 w) && (greedy || isFin (f32 (argmax l).2))

/-- The tokens that follow the most recent earlier occurrence of the last `n` tokens (R137 mode 1). -/
def promptLookup (toks : List Nat) (n : Nat) : List Nat :=
  let k := toks.length
  let g := toks.drop (k - n)
  if n = 0 ∨ k < n + 1 then []
  else
    match ((List.range (k - n)).reverse).find? (fun b => (toks.drop b).take n = g) with
    | some b => toks.drop (b + n)
    | none => []

/- The mask automaton (R142). -/

/-- Reads of a request's memory. -/
abbrev Reader := Nat → Nat → Option (List Byte)

/-- The header check of admission. -/
def maskHeaderOk (h : List Byte) (vocab start : Nat) : Bool :=
  decide (h.length = 64 ∧ fieldAt h 0 4 = 0x4D534B41 ∧ fieldAt h 4 4 = 1 ∧ 1 ≤ fieldAt h 8 4 ∧ fieldAt h 8 4 ≤ 65536
    ∧ fieldAt h 12 4 = vocab ∧ 1 ≤ fieldAt h 40 4 ∧ fieldAt h 40 4 ≤ 65536 ∧ fieldAt h 44 4 ≤ 2 ^ 28 ∧ start < fieldAt h 8 4)
    && allZero (h.drop 48)

/-- A state entry that is in range: BITMAP, TRANS_FIRST, N_TRANS, DEFAULT_NEXT. -/
def maskState (rd : Reader) (base st : Nat) (h : List Byte) : Option (Nat × Nat × Nat × Nat) :=
  match rd (base + fieldAt h 24 8 + 16 * st) 16 with
  | none => none
  | some e =>
    let (b, f, n, d) := (fieldAt e 0 4, fieldAt e 4 4, fieldAt e 8 4, fieldAt e 12 4)
    if b ≥ fieldAt h 40 4 ∨ f + n > fieldAt h 44 4 ∨ d ≥ fieldAt h 8 4 then none else some (b, f, n, d)

/-- NEXT for a token: the transitions are read in ascending order up to the first whose TOKEN is no less, and each one
read is checked (DEDUCED, log 28). -/
def maskNext (rd : Reader) (base : Nat) (h : List Byte) (d t : Nat) : Nat → Nat → Option Nat
  | 0, _ => some d
  | n + 1, i =>
    match rd (base + fieldAt h 32 8 + 8 * i) 8 with
    | none => none
    | some e =>
      let (tok, nxt) := (fieldAt e 0 4, fieldAt e 4 4)
      if tok ≥ fieldAt h 12 4 ∨ nxt ≥ fieldAt h 8 4 then none
      else if tok = t then some nxt
      else if tok > t then some d
      else maskNext rd base h d t n (i + 1)

/-- −Inf in place of every token that a bitmap does not allow. -/
def maskLogits (bm : List Byte) (l : List W32) : List W32 :=
  l.zipIdx.map (fun p => if ((bm.getD (p.2 / 8) 0).toNat).testBit (p.2 % 8) then p.1 else 0xFF800000#32)

/-- Whether a bitmap allows a token below `v`. -/
def maskAny (bm : List Byte) (v : Nat) : Bool := (List.range v).any (fun t => ((bm.getD (t / 8) 0).toNat).testBit (t % 8))

/- The stages (R139–R141). -/

def log2e32 : W32 := 0x3FB8AA3B#32
def ln232 : W32 := 0x3F317218#32

/-- Stages 2 and 3 over the last REP_WINDOW tokens. -/
def penalise (g : GenReq) (log : List Nat) (l : List W32) : List W32 :=
  let win := log.drop (log.length - g.repWindow)
  let r := sfu .rcp g.repPenalty
  l.zipIdx.map (fun p =>
    if win.contains p.2 then
      let x := if rankKey p.1 > 0 then fmul .rne p.1 r else fmul .rne p.1 g.repPenalty
      fsub .rne x g.presPenalty
    else p.1)

/-- e_i of stage 5. -/
def expTerm (m l : W32) : W32 := sfu .exp2 (fmul .rne (fsub .rne l m) log2e32)

/-- Z of stage 5: the terms at multiples of 2^-64, summed exactly. -/
def normaliser (es : List W32) : W32 :=
  let z := es.foldl (fun a w => match f32 w with | .fin _ m e => a + roundUnits .rne 0 m e (-64) | _ => a) 0
  toF32 .rne (.fin false z (-64))

/-- Whether `a` is at least, or more than, `b` as numbers. -/
def f32ge (a b : W32) : Bool := match cmpV (f32 a) (f32 b) with | some c => decide (0 ≤ c) | none => false
def f32gt (a b : W32) : Bool := match cmpV (f32 a) (f32 b) with | some c => decide (0 < c) | none => false

/-- Keep the shortest prefix whose sequential sum reaches TOP_P (stage 7); the first is kept always. -/
def topP (top : W32) (sum : W32) : List (Nat × W32) → List (Nat × W32)
  | [] => []
  | x :: xs =>
    let sum := fadd .rne sum x.2
    if f32ge sum top then [x] else x :: topP top sum xs

/-- The running sums of a list of probabilities. -/
def sums (acc : W32) : List (Nat × W32) → List (Nat × W32)
  | [] => []
  | x :: xs =>
    let a := fadd .rne acc x.2
    (x.1, a) :: sums a xs

/-- The draw of R140 and R141 among survivors. -/
def drawToken (g : GenReq) (pos : Nat) (ps : List (Nat × W32)) : Nat :=
  let w := philox g.seed (pos % 2 ^ 32) ((pos - g.promptLen) % 2 ^ 32) 0 0x5450
  let u := toF32 .rne (.fin false (w / 256) (-24))
  let ss := sums 0 ps
  let last := ss.getLastD (0, 0)
  let target := fmul .rne u last.2
  ((ss.find? (fun x => f32gt x.2 target)).getD last).1

/-- What one row gives. -/
inductive RowRes where
  | token (t : Nat) (lp : W32) (mask : Nat)
  | fails (status : Nat)
deriving DecidableEq, Repr

/-- The token and log-probability of a row after stage 1; `free` stands for a row R139 gives no result for. -/
def sampleLogits (g : GenReq) (log : List Nat) (vocab free : Nat) (l : List W32) : Nat × W32 :=
  let l := penalise g log l
  let greedy := decide (f32 g.temperature = f32 0 ∨ g.temperature = 0x80000000#32)
  let l := if greedy then l else l.map (fun x => fmul .rne x (sfu .rcp g.temperature))
  let m := argmax l
  if !rowStated l greedy then (Config.freeToken free % vocab, Config.freeLogprob free)
  else
    let z := normaliser (l.map (expTerm m.2))
    let lp (x : W32) : W32 := fmul .rne (fsub .rne (fmul .rne (fsub .rne x m.2) log2e32) (sfu .log2 z)) ln232
    if greedy then (m.1, if isFin (f32 m.2) then lp m.2 else Config.freeLogprob free)
    else
      let k := if g.topK = 0 then 1024 else g.topK
      let rz := sfu .rcp z
      let ps := (topK k l).map (fun t => (t.1, fmul .rne (expTerm m.2 t.2) rz))
      let ps := topP g.topP 0 ps
      let floor := fmul .rne g.minP (ps.headD (0, 0)).2
      let ps := ps.filter (fun p => f32ge p.2 floor)
      let t := drawToken g log.length ps
      (t, lp (l.getD t 0))

/-- One row under a request's mask state (R139, R142). An automaton that cannot be read fails as one out of range
(DEDUCED, log 28). -/
def sampleRow (rd : Reader) (g : GenReq) (vocab mask free : Nat) (log : List Nat) (l : List W32) : RowRes :=
  if g.maskAddr = 0 then
    let (t, lp) := sampleLogits g log vocab free l
    .token t lp mask
  else
    match rd g.maskAddr 64 with
    | none => .fails 0x06
    | some h =>
      match maskState rd g.maskAddr mask h with
      | none => .fails 0x06
      | some (b, f, n, d) =>
        let nb := ceilDiv vocab 8
        match rd (g.maskAddr + fieldAt h 16 8 + b * nb) nb with
        | none => .fails 0x06
        | some bm =>
          if !maskAny bm vocab then .fails 0x09
          else
            let (t, lp) := sampleLogits g log vocab free (maskLogits bm l)
            match maskNext rd g.maskAddr h d t n f with
            | none => .fails 0x06
            | some nxt => .token t lp nxt

/-- The stop condition of the last token of a log (R143): 1 stop token, 2 stop sequence, 3 MAX_NEW, 0 none. -/
def stopOf (g : GenReq) (log : List Nat) (generated : Nat) : Nat :=
  let tail (q : List Nat) : Bool := !q.isEmpty && decide (log.drop (log.length - q.length) = q)
  if (log.getLast?.map g.stops.contains).getD false then 1
  else if tail g.stopSeq0 || tail g.stopSeq1 then 2
  else if generated ≥ g.maxNew then 3
  else 0

/-- What verification has drawn so far: the tokens with their log-probabilities, the drafts accepted, the automaton's
state, a stop and a failure. -/
structure Verified where
  toks : List Nat := []
  lps : List W32 := []
  accepted : Nat := 0
  mask : Nat := 0
  finish : Nat := 0
  failed : Option Nat := none
deriving DecidableEq, Repr

/-- Verify drafts row by row (R138, R143): a token that equals its draft is accepted and the next row is drawn. -/
def verify (rd : Reader) (row : Nat → Option (List W32)) (g : GenReq) (vocab free generated : Nat) (log : List Nat) :
    List Nat → Nat → Verified → Verified
  | [], i, v =>
    match row i with
    | none => { v with failed := some 0x0A }
    | some l =>
      match sampleRow rd g vocab v.mask (free + i) (log ++ v.toks) l with
      | .fails st => { v with failed := some st }
      | .token t lp m => { v with
          toks := v.toks ++ [t], lps := v.lps ++ [lp], mask := m
          finish := stopOf g (log ++ v.toks ++ [t]) (generated + v.toks.length + 1) }
  | d :: ds, i, v =>
    match row i with
    | none => { v with failed := some 0x0A }
    | some l =>
      match sampleRow rd g vocab v.mask (free + i) (log ++ v.toks) l with
      | .fails st => { v with failed := some st }
      | .token t lp m =>
        let v := { v with
          toks := v.toks ++ [t], lps := v.lps ++ [lp], mask := m
          accepted := if t = d then v.accepted + 1 else v.accepted
          finish := stopOf g (log ++ v.toks ++ [t]) (generated + v.toks.length + 1) }
        if t = d ∧ v.finish = 0 then verify rd row g vocab free generated log ds (i + 1) v else v

end Sys2Proof.Machine
end

