-- ==== Sys2Proof/Machine/Requests.lean ====
section
/-! DEFINITION. Requests of service queue pairs: GENERATE, SCORE and CANCEL, their checks and their answers
(R115, R116, R119, R121–R124, R146–R148, R266). -/

namespace Sys2Proof.Machine

/- Reading a request. -/

/-- Memory as a queue pair's context sees it; a poisoned or failing read answers nothing (R202). -/
def qpReader (s : State) (x : Qp) : Reader := fun a n =>
  match readVa s x.fn x.ctx a n with
  | .ok (bs, none) => some bs
  | _ => none

/-- The next published request entry of a queue pair that works (R116). An entry that cannot be read stays. -/
def nextRequest (s : State) (q : Nat) : Option (Qp × List Byte) :=
  match s.qp? q with
  | none => none
  | some x =>
    if shakeWaiting x.sh = 0 ∨ x.sh.st = .error ∨ x.sh.st = .destroying ∨ (s.fn x.fn).resetting ∨ !ctxLive s x.fn x.ctx then none
    else (qpReader s x (x.reqRing + 256 * (x.sh.head % 2 ^ x.reqLog2)) 256).map (fun b => (x, b))

/-- A GENERATE entry's fields (R115). -/
def genReqOf (q : Nat) (b : List Byte) : GenReq :=
  let ns := fieldAt b 3 1
  { entry := b, qp := q, reqId := fieldAt b 8 8, flags := fieldAt b 1 1, draftMax := fieldAt b 2 1, promptLen := fieldAt b 4 4,
    promptAddr := fieldAt b 16 8, outAddr := fieldAt b 24 8, maxNew := fieldAt b 32 4, topK := fieldAt b 36 2, seed := fieldAt b 40 8,
    temperature := BitVec.ofNat 32 (fieldAt b 48 4), topP := BitVec.ofNat 32 (fieldAt b 52 4), minP := BitVec.ofNat 32 (fieldAt b 56 4),
    repPenalty := BitVec.ofNat 32 (fieldAt b 60 4), presPenalty := BitVec.ofNat 32 (fieldAt b 64 4), repWindow := fieldAt b 68 4,
    maskAddr := fieldAt b 72 8, maskStart := fieldAt b 80 4, fence := fieldAt b 84 4, fenceValue := fieldAt b 88 8,
    stops := toksOf (sliceB b 96 (4 * min ns 8)), stopSeq0 := toksOf (sliceB b 136 (4 * min (fieldAt b 128 1) 8)),
    stopSeq1 := toksOf (sliceB b 168 (4 * min (fieldAt b 129 1) 8)) }

/-- A fence field of a request: none, or a fence of the context's range with a value that may be signalled (R332, R333). -/
def reqFenceOk (s : State) (x : Qp) (fence value : Nat) : Bool :=
  fence = 0xFFFFFFFF ||
    (decide (value ≠ errValue) && (match s.ctx? x.fn x.ctx with
      | some c => decide (c.fenceFirst ≤ fence ∧ fence < c.fenceFirst + c.fenceCount)
      | none => false))

/-- Whether an FP32 value lies in a closed range given by its bits. -/
def f32in (lo hi w : W32) : Bool := f32ge w lo && f32ge hi w

/-- The ranges and reserved bytes of a GENERATE entry (R115). -/
def genFieldsOk (s : State) (x : Qp) (v : Svc) (b : List Byte) : Bool :=
  let g := genReqOf 0 b
  let ns := fieldAt b 3 1
  let l0 := fieldAt b 128 1
  let l1 := fieldAt b 129 1
  decide (fieldAt b 0 1 = 1 ∧ g.flags < 8 ∧ g.draftMax ≤ 16 ∧ ns ≤ 8 ∧ l0 ≤ 8 ∧ l1 ≤ 8
    ∧ 1 ≤ g.promptLen ∧ g.promptLen < v.contextMax ∧ 1 ≤ g.maxNew ∧ g.maxNew + g.promptLen ≤ v.contextMax
    ∧ g.topK ≤ 1024 ∧ g.repWindow ≤ 65536 ∧ (g.maskAddr ≠ 0 ∨ g.maskStart = 0)
    ∧ g.promptAddr < 2 ^ 55 ∧ g.outAddr < 2 ^ 55 ∧ g.maskAddr < 2 ^ 55)
    && (cmpV (f32 g.temperature) (f32 0) = some 0 || f32in 0x3B800000#32 0x43800000#32 g.temperature)
    && f32gt g.topP 0 && f32ge 0x3F800000#32 g.topP && f32ge g.minP 0 && f32gt 0x3F800000#32 g.minP
    && f32in 0x3D800000#32 0x41800000#32 g.repPenalty && f32in 0xC1800000#32 0x41800000#32 g.presPenalty
    && resZero b 38 2 && resZero b (96 + 4 * ns) (32 - 4 * ns) && resZero b 130 6
    && resZero b (136 + 4 * l0) (32 - 4 * l0) && resZero b (168 + 4 * l1) (32 - 4 * l1) && resZero b 200 56
    && reqFenceOk s x g.fence g.fenceValue

/-- The ranges and reserved bytes of a SCORE entry (R115). -/
def scoreFieldsOk (s : State) (x : Qp) (b : List Byte) : Bool :=
  decide (fieldAt b 1 1 < 16 ∧ fieldAt b 16 8 < 2 ^ 55 ∧ fieldAt b 24 8 < 2 ^ 55 ∧ fieldAt b 32 4 ≤ 100000)
    && resZero b 2 6 && resZero b 36 48 && resZero b 96 160 && reqFenceOk s x (fieldAt b 84 4) (fieldAt b 88 8)

/-- The reserved bytes of a CANCEL entry (R115). -/
def cancelFieldsOk (b : List Byte) : Bool := resZero b 1 7 && resZero b 24 232

/-- Whether a REQ_ID is live or queued on a queue pair (R115). -/
def idTaken (s : State) (q : Nat) (x : Qp) (id : Nat) : Bool :=
  x.queue.any (fun g => g.reqId = id)
    || (match s.service? x.service with
        | some v => v.seqs.any (fun p => p.2.req.qp = q && p.2.req.reqId = id)
            || (v.scores ++ v.batch).any (fun r => r.qp = q && r.reqId = id && r.entry ≠ [])
        | none => false)

/-- The first check of R121 that a GENERATE entry fails, with the prompt as far as it was read. Without a generation
service no CONTEXT_MAX bounds a field, and NO_SERVICE decides (DEDUCED, log 30). -/
def genStatus (s : State) (q : Nat) (x : Qp) (v : Option Service) (b : List Byte) : Nat × List Byte :=
  let d : Svc := match v with
    | some w => if w.d.scoring then { w.d with contextMax := 2 ^ 32 } else w.d
    | none => { contextMax := 2 ^ 32 }
  let g := genReqOf q b
  if !genFieldsOk s x d b then (0x01, [])
  else if d.scoring ∨ v.isNone then (0x02, [])
  else if idTaken s q x g.reqId then (0x03, [])
  else
    match qpReader s x g.promptAddr (4 * g.promptLen) with
    | none => (0x04, [])
    | some p =>
      if (toksOf p ++ g.stops ++ g.stopSeq0 ++ g.stopSeq1).any (fun t => d.vocab ≤ t) then (0x05, p)
      else if g.maskAddr ≠ 0 ∧ !(match qpReader s x g.maskAddr 64 with | some h => maskHeaderOk h d.vocab g.maskStart | none => false) then
        (0x06, p)
      else if x.admitDepth ≤ x.queue.length then (0x07, p)
      else (0, p)

/-- A SCORE entry's fields (R115). -/
def scoreReqOf (q order : Nat) (b : List Byte) : ScoreReq :=
  { entry := b, qp := q, reqId := fieldAt b 8 8, flags := fieldAt b 1 1, inAddr := fieldAt b 16 8, outAddr := fieldAt b 24 8,
    deadline := fieldAt b 32 4, fence := fieldAt b 84 4, fenceValue := fieldAt b 88 8, order := order }

/-- The first check of R121 that a SCORE entry fails, with the input as far as it was read. -/
def scoreStatus (s : State) (q : Nat) (x : Qp) (v : Option Service) (b : List Byte) : Nat × List Byte :=
  if !scoreFieldsOk s x b then (0x01, [])
  else
    match v with
    | none => (0x02, [])
    | some w =>
      if !w.d.scoring then (0x02, [])
      else if idTaken s q x (fieldAt b 8 8) then (0x03, [])
      else
        match qpReader s x (fieldAt b 16 8) w.d.inputBytes with
        | none => (0x04, [])
        | some p => if x.admitDepth ≤ (w.scores.filter (fun r => r.qp = q)).length then (0x07, p) else (0, p)

/-- The first check of R121 that a CANCEL entry fails. -/
def cancelStatus (s : State) (q : Nat) (x : Qp) (v : Option Service) (b : List Byte) : Nat :=
  if !cancelFieldsOk b then 0x01
  else if v.isNone then 0x02
  else if idTaken s q x (fieldAt b 8 8) then 0x03
  else 0

/-- REJECTED behind the request's record (R116, R119); its fence takes the error value (R122). A fence field that names
no fence of the context is not signalled. -/
def rejectReq (s : State) (q : Nat) (x : Qp) (b : List Byte) (status : Nat) (input : List Byte) : State :=
  let d : Svc := ((s.service? x.service).map (·.d)).getD { fn := x.fn, ctx := x.ctx }
  let fence := if (fieldAt b 0 1 = 1 ∨ fieldAt b 0 1 = 2) ∧ reqFenceOk s x (fieldAt b 84 4) 0 then fieldAt b 84 4 else 0xFFFFFFFF
  endRequest s x.service d q b status 0 0 input []
    (finalRsp q (fieldAt b 8 8) status fence 0 (rspOf 4 status 0 0 (fieldAt b 8 8) 0 0 0 []))

/-- A service that waits has work to plan (R127). -/
def wakeService (s : State) (h : Nat) : State := s.modService h (fun x => { x with st := if x.st = .wait then .plan else x.st })

/- Lanes and urgency (R148, R263). -/

/-- The lane of a service: that of its queue pairs, 0xFF for bulk (R264). -/
def svcLane (s : State) (h : Nat) : Nat := ((svcQps s h).head?.map (·.2.lane)).getD 0xFF

/-- Whether one of the launch conditions of R146 other than urgency holds. -/
def batchReady (x : Service) : Bool :=
  decide (x.d.scoreBatch ≤ x.scores.length)
    || (match x.scores with | r :: _ => r.windowOver || decide (x.d.scoreWindow = 0) | [] => false)

/-- The level a Sprint-lane scoring service drives (R148). -/
def urgencyOf (x : Service) : Nat :=
  match x.scores with
  | [] => 0
  | r :: _ =>
    if r.half then 3
    else if batchReady x then (if stepRunning x then 2 else x.urgency)
    else 1

/-- Drive the urgency wire of a service's lane. -/
def setUrgency (s : State) (h : Nat) : State :=
  let lane := svcLane s h
  s.modService h (fun x => { x with urgency := if x.d.scoring ∧ lane ≠ 0xFF then urgencyOf x else 0 })

/- CANCEL (R124). -/

/-- Remove the target of a CANCEL, if it is queued, live or waits for a micro-batch. -/
def cancelTarget (s : State) (q target : Nat) : State × Bool :=
  match s.qp? q with
  | none => (s, false)
  | some x =>
    match s.service? x.service with
    | none => (s, false)
    | some v =>
      match x.queue.find? (fun g => g.reqId = target) with
      | some g => (endQueued (s.setQp q { x with queue := x.queue.erase g }) x.service v.d g 0x0E 4, true)
      | none =>
        match v.seqs.find? (fun p => p.2.req.qp = q ∧ p.2.req.reqId = target) with
        | some (k, _) => (endSeq s x.service k 0x0E 4 [] 0 0, true)
        | none =>
          match v.scores.find? (fun r => r.qp = q ∧ r.reqId = target) with
          | some r =>
            let s := s.modService x.service (fun y => { y with scores := y.scores.erase r })
            (setUrgency (endScore s x.service v.d r 0x0E false []) x.service, true)
          | none => (s, false)

/-- Handle the CANCELs of a queue pair, oldest first. -/
def doCancels (s : State) (q : Nat) : State :=
  match s.qp? q with
  | none => s
  | some x =>
    x.cancels.foldl (fun s c =>
      let (s, found) := cancelTarget s q c.2
      cancelAck s q c.1 found) (s.setQp q { x with cancels := [] })

/- The three commands. -/

/-- Consume the entry of a queue pair's request ring whose opcode fits, and act on it. -/
def onRequest (s : State) (q : Nat) (want : Nat → Bool) (act : State → Qp → List Byte → State) : State :=
  match nextRequest s q with
  | none => s
  | some (x, b) =>
    if !want (fieldAt b 0 1) then s
    else
      let x := { x with sh := shakeTake x.sh }
      settle (act (s.setQp q x) x b)

/-- GENERATE, and the reserved opcodes, which no check lets through (R116, R121). -/
def execGenerate (q : Fin 4096) (s : State) : Host.Outcome State Fault Refusal :=
  doneKeep s (onRequest s q.val (fun op => decide (op ≠ 2 ∧ op ≠ 3)) (fun s x b =>
    match genStatus s q.val x (s.service? x.service) b with
    | (0, _) => wakeService (s.setQp q.val { x with queue := x.queue ++ [genReqOf q.val b] }) x.service
    | (st, p) => rejectReq s q.val x b st p))

/-- SCORE (R115, R146). -/
def execScore (q : Fin 4096) (s : State) : Host.Outcome State Fault Refusal :=
  doneKeep s (onRequest s q.val (· == 2) (fun s x b =>
    match scoreStatus s q.val x (s.service? x.service) b with
    | (0, _) =>
      let s := s.modService x.service (fun y => { y with scores := y.scores ++ [scoreReqOf q.val y.nextOrder b], nextOrder := y.nextOrder + 1 })
      wakeService (setUrgency s x.service) x.service
    | (st, p) => rejectReq s q.val x b st p))

/-- CANCEL: at the next planning of a generation service; before the next launch, which is at once, of a scoring one
(R124). -/
def execCancel (q : Fin 4096) (s : State) : Host.Outcome State Fault Refusal :=
  doneKeep s (onRequest s q.val (· == 3) (fun s x b =>
    match cancelStatus s q.val x (s.service? x.service) b with
    | 0 =>
      let s := s.setQp q.val { x with cancels := x.cancels ++ [(fieldAt b 8 8, fieldAt b 16 8)] }
      if ((s.service? x.service).map (·.d.scoring)).getD false then doCancels s q.val else wakeService s x.service
    | st => rejectReq s q.val x b st []))

end Sys2Proof.Machine
end

