-- ==== Sys2Proof/Machine/Serving.lean ====
section
/-! DEFINITION. Batch steps and micro-batches: planning, launching, sampling, committing (R125–R143, R146, R147, R260,
R276, R303). -/

namespace Sys2Proof.Machine

/- Pages, slots and regions (R125, R131). -/

/-- The first `n` numbers from `c` on that are not used, below `top`. -/
def freeNumbers (used : List Nat) (top : Nat) : Nat → Nat → Nat → List Nat
  | 0, _, _ => []
  | _ + 1, 0, _ => []
  | f + 1, n + 1, c =>
    if c ≥ top then [] else if used.contains c then freeNumbers used top f (n + 1) (c + 1) else c :: freeNumbers used top f n (c + 1)

def usedPages (x : Service) : List Nat := x.seqs.flatMap (fun p => p.2.pages)
def freePageCount (x : Service) : Nat := x.d.pageCount - (usedPages x).length
/-- The lowest `n` free pages of a service (DESIGN CHOICE, log 9). -/
def takePages (x : Service) (n : Nat) : List Nat := freeNumbers (usedPages x) x.d.pageCount ((usedPages x).length + n) n 0

def usedSlots (x : Service) : List Nat := x.seqs.filterMap (fun p => p.2.slot)
def takeSlot (x : Service) : Option Nat := (freeNumbers (usedSlots x) x.d.liveMax ((usedSlots x).length + 1) 1 0).head?

/-- The address of entry `j` of a slot's page list. -/
def pageListAt (d : Svc) (slot j : Nat) : Nat := d.pageList + slot * (d.contextMax / 16) * 4 + 4 * j
/-- The address of position `p` of a slot's token log. -/
def tokLogAt (d : Svc) (slot p : Nat) : Nat := d.tokLog + slot * d.contextMax * 4 + 4 * p

/-- A write of the loop processors in a service's context; one that fails answers nothing (R202). -/
def svcWrite (s : State) (d : Svc) (va : Nat) (bs : List Byte) : Option State := (writeVa s d.fn d.ctx va bs).toOption

/-- End a sequence whose KV, page list or token log cannot be used (R121). -/
def kvFault (s : State) (h k : Nat) : State := endSeq s h k 0x0A 5 [] 0 0

/-- Give a sequence the pages of positions below `n`, lowest free first, and write its page list (R129, R131). -/
def giveTo (s : State) (h k n : Nat) : State :=
  match s.service? h with
  | none => s
  | some x =>
    match look x.seqs k with
    | none => s
    | some q =>
      let new := takePages x (ceilDiv n 16 - q.pages.length)
      let s := s.modSeq h k (fun y => { y with pages := y.pages ++ new })
      match q.slot, new with
      | some sl, _ :: _ => (svcWrite s x.d (pageListAt x.d sl q.pages.length) (tokBytes new)).getD (kvFault s h k)
      | _, _ => s

/- Admission (R126, R266). -/

/-- Pages still owed to sequences in PREFILL. -/
def owedPages (x : Service) : Nat :=
  (x.seqs.map (fun p => if p.2.st = .prefill then ceilDiv p.2.toks.length 16 - p.2.pages.length else 0)).sum

/-- Whether the head request of a queue pair may be admitted (R126, R266). -/
def canAdmit (s : State) (x : Service) (q : Nat) (y : Qp) (g : GenReq) : Bool :=
  let vdLive : Nat := (s.gfe.services.map (fun p => if p.2.d.vd = x.d.vd then p.2.seqs.length else 0)).sum
  let mine : List (Nat × Seq) := x.seqs.filter (fun p => p.2.req.qp = q)
  let need := ceilDiv g.promptLen 16
  decide (x.seqs.length < x.d.liveMax ∧ vdLive < 65536 ∧ mine.length < y.liveQuota
    ∧ (mine.map (fun p => p.2.pages.length)).sum + need ≤ y.pageQuota
    ∧ need + x.d.admitHeadroom + owedPages x ≤ freePageCount x) && (takeSlot x).isSome

/-- Admit the head request of a queue pair: a slot, the prompt into the token log, ACCEPTED (R125). -/
def admitReq (s : State) (h q : Nat) (x : Service) (y : Qp) (g : GenReq) : State :=
  let s := s.setQp q { y with queue := y.queue.drop 1 }
  match qpReader s y g.promptAddr (4 * g.promptLen), takeSlot x with
  | some p, some sl =>
    let k := x.nextOrder
    let sq : Seq := { req := g, svc := h, order := k, slot := some sl, toks := toksOf p, mask := g.maskStart }
    let s := s.setService h { x with seqs := put x.seqs k sq, nextOrder := k + 1, rrQp := q }
    let s := postRsp s q { bytes := rspOf 1 0 0 0 g.reqId 0 0 0 [] }
    (svcWrite s x.d (tokLogAt x.d sl 0) p).getD (kvFault s h k)
  | _, _ => endQueued s h x.d g 0x04 5

/-- Admission: queue pairs in turn after the one served last, until no head can be admitted; one request per round. -/
def admitAll : Nat → State → Nat → State
  | 0, s, _ => s
  | f + 1, s, h =>
    match s.service? h with
    | none => s
    | some x =>
      let qs := svcQps s h
      let turn := qs.filter (fun p => p.1 > x.rrQp) ++ qs.filter (fun p => p.1 ≤ x.rrQp)
      match turn.find? (fun p => match p.2.queue with | g :: _ => canAdmit s x p.1 p.2 g | [] => false) with
      | some (q, y) => match y.queue with
        | g :: _ => admitAll f (admitReq s h q x y g) h
        | [] => s
      | none => s

/- Planning (R128, R129). -/

/-- PREEMPTED sequences whose pages are available prefill again from the whole token log (R125). -/
def resumePreempted (s : State) (h : Nat) : State :=
  match s.service? h with
  | none => s
  | some x =>
    (x.seqs.filter (fun p => p.2.st = .preempted)).foldl (fun s p =>
      match s.service? h with
      | none => s
      | some y => if ceilDiv p.2.toks.length 16 + owedPages y ≤ freePageCount y then
          s.modSeq h p.1 (fun q => { q with st := .prefill, prefilled := 0 })
        else s) s

/-- Whether the overflow buffer of a sequence's queue pair is full (R123). -/
def overflowFull (s : State) (q : Seq) : Bool :=
  match s.qp? q.req.qp with | some y => decide (1024 ≤ y.overflow.length) | none => true

/-- The drafts a sequence may use in a step (R137). -/
def draftsFor (d : Svc) (q : Seq) : List Nat :=
  if d.draftMode = 1 then promptLookup q.toks d.lookupN else if d.draftMode = 2 then q.drafts else []

/-- An entry of the plan: the sequence, its positions, and the drafts it verifies. -/
abbrev PlanEntry := Nat × Nat × List Nat

/-- The DECODE part of R128, over sequences in admission order. -/
def planDecode (s : State) (d : Svc) (caps : Nat → Nat) (reserve : Nat) :
    List (Nat × Seq) → Nat → List PlanEntry → Nat × List PlanEntry
  | [], budget, acc => (budget, acc)
  | (k, q) :: t, budget, acc =>
    if acc.length = d.stepSeqs ∨ budget < reserve + 1 ∨ overflowFull s q then planDecode s d caps reserve t budget acc
    else
      let m := min (min (caps k) (min q.req.draftMax d.draftCap)) (min (budget - reserve - 1) (q.req.maxNew - q.generated - 1))
      let ds := (draftsFor d q).take m
      planDecode s d caps reserve t (budget - (1 + ds.length)) (acc ++ [(k, 1 + ds.length, ds)])

/-- The PREFILL part of R128. -/
def planPrefill (s : State) (d : Svc) : List (Nat × Seq) → Nat → List PlanEntry → List PlanEntry
  | [], _, acc => acc
  | (k, q) :: t, budget, acc =>
    if overflowFull s q then planPrefill s d t budget acc
    else
      let r := q.toks.length - q.prefilled
      let c := min d.prefillChunk (min r budget)
      let c := if c < r then c / 16 * 16 else c
      if c = 0 ∨ acc.length = d.stepSeqs then acc
      else planPrefill s d t (budget - c) (acc ++ [(k, c, [])])

/-- The plan of R128. -/
def planOf (s : State) (x : Service) (caps : Nat → Nat) : List PlanEntry :=
  let pre := x.seqs.filter (fun p => p.2.st = .prefill)
  let reserve := if pre = [] then 0 else x.d.prefillReserve
  let (budget, acc) := planDecode s x.d caps reserve (x.seqs.filter (fun p => p.2.st = .decode)) x.d.stepTokens []
  planPrefill s x.d pre budget acc

/-- Where a sequence's step begins: the position after its KV (R130). -/
def startPos (q : Seq) : Nat := if q.st = .decode then q.toks.length - 1 else q.prefilled

def pagesNeeded (x : Service) (plan : List PlanEntry) : Nat :=
  (plan.map (fun e => match look x.seqs e.1 with | some q => ceilDiv (startPos q + e.2.1) 16 - q.pages.length | none => 0)).sum

/-- Preempt the latest admitted sequence in PREFILL or DECODE until the plan's pages fit (R129). -/
def fitPlan : Nat → Service → List PlanEntry → Service × List PlanEntry
  | 0, x, plan => (x, plan)
  | f + 1, x, plan =>
    if pagesNeeded x plan ≤ freePageCount x then (x, plan)
    else
      match (x.seqs.filter (fun p => p.2.st = .prefill ∨ p.2.st = .decode)).getLast? with
      | none => (x, plan)
      | some (k, _) =>
        fitPlan f { x with seqs := adjust x.seqs k (fun q => { q with st := .preempted, pages := [], prefilled := 0, drafts := [] }) }
          (plan.filter (fun e => e.1 ≠ k))

/-- Note a planned sequence's rows and give it its pages; its drafts stand in the token log (R129, R130). -/
def preparePlan (s : State) (h : Nat) : List PlanEntry → Nat → State
  | [], _ => s
  | (k, n, ds) :: t, row =>
    match (s.service? h).bind (fun x => (look x.seqs k).map (fun q => (x, q))) with
    | none => preparePlan s h t row
    | some (x, q) =>
      let final := decide (q.st = .decode) || decide (q.prefilled + n = q.toks.length)
      let rows := if q.st = .decode then n else b2n final
      let dr := if final ∧ x.d.draftMode = 2 then min q.req.draftMax x.d.draftCap else 0
      let s := s.modSeq h k (fun y => { y with
        planned := n, plannedDrafts := ds.length, drafts := ds, sampleRows := rows, draftRows := dr, rowBase := row
        pagesBefore := q.pages.length, stepToks := [], stepLps := [], finish := 0, failing := none })
      let s := giveTo s h k (startPos q + n)
      let s := match q.slot, ds with
        | some sl, _ :: _ => (svcWrite s x.d (tokLogAt x.d sl q.toks.length) (tokBytes ds)).getD (kvFault s h k)
        | _, _ => s
      preparePlan s h t (row + rows + dr)

/-- An entry of the batch table (R130). -/
def batchEntry (q : Seq) : List Byte :=
  natLe 4 (q.slot.getD 0) ++ natLe 4 (startPos q) ++ natLe 2 q.planned ++ natLe 1 q.sampleRows ++ natLe 1 q.draftRows ++ natLe 4 q.rowBase

/- Launching (R260, R263, R301–R303). -/

/-- The cores of a service's steps: those of its lane, or the VD's bulk working CGs (R260, R263). -/
def svcCores (s : State) (h : Nat) (x : Service) : List Nat :=
  let l := svcLane s h
  if l = 0xFF then launchCores s x.d.vd
  else coresOf (((look (s.vd x.d.vd).lanes l).getD []).filter (fun g => (s.vdWorking x.d.vd).contains g))

/-- Whether a service has something to run. -/
def svcWork (x : Service) : Bool :=
  if x.d.scoring then x.scores ≠ [] && (batchReady x || x.urgency = 3)
  else x.seqs.any (fun p => p.2.st ≠ .parked)

/-- Whether it is a service's turn: lanes run alone; bulk services of a VD take turns in round-robin order (R260). -/
def svcTurn (s : State) (h : Nat) (x : Service) : Bool :=
  svcLane s h ≠ 0xFF ||
    (let others := s.gfe.services.filter (fun p => p.2.d.vd = x.d.vd && p.1 ≠ h && svcLane s p.1 = 0xFF)
     let last := (s.vd x.d.vd).rrSvc
     let before (k : Nat) : Bool := if h > last then decide (last < k ∧ k < h) else decide (last < k ∨ k < h)
     !others.any (fun p => stepRunning p.2 || (before p.1 && svcWork p.2)))

/-- Whether a service may start a step. -/
def svcStarts (s : State) (h : Nat) (x : Service) : Bool :=
  !stepRunning x && decide (x.st ≠ .held) && vdOpen s x.d.vd && ctxLive s x.d.fn x.d.ctx && !(s.fn x.d.fn).resetting && svcTurn s h x

/-- The service header (R303). -/
def svcHeader (x : Service) (entries : Nat) : List Byte :=
  natLe 8 x.table ++ natLe 4 entries ++ natLe 4 x.steps ++ natLe 8 x.logits ++ natLe 8 x.d.pageList ++ natLe 8 x.d.pagePool
    ++ natLe 8 x.d.tokLog ++ List.replicate 16 0

/-- What a step's launch finds at BATCH_TABLE: the batch table of R130, or the inputs of a micro-batch (DEDUCED, log 30). -/
def stepData (s : State) (x : Service) : List Byte :=
  if x.d.scoring then x.batch.flatMap (fun r => inputBytesOf s x.d r)
  else x.plan.flatMap (fun k => match look x.seqs k with | some q => batchEntry q | none => [])

def stepEntries (x : Service) : Nat := if x.d.scoring then x.batch.length else x.plan.length

/-- Launch MAIN_ROUTINE for a step; one that cannot be accepted has failed (R127, R303). -/
def launchStep (s : State) (h attempt : Nat) : State :=
  match s.service? h with
  | none => s
  | some x =>
    let entries := stepEntries x
    let fails (e : ErrRec) : State := s.setService h { x with st := .run, attempt := attempt, launch := none, outcome := some (some e) }
    match curGen s x.d.fn x.d.mainRoutine with
    | none => fails { cause := 0x000F, source := 2 }
    | some g =>
      let fig := ctxFigures s x.d.fn x.d.ctx
      if !launchOk s x.d.vd g.nodes g.relays fig true then fails { cause := 0x0001, source := 2 }
      else
        let cores := svcCores s h x
        match readPage s x.d.fn g, freeSlots s cores, svcWrite s x.d x.table (stepData s x) with
        | .error e, _, _ => fails e
        | _, none, _ => s
        | _, _, none => fails { cause := 0x0008, source := 2, detail := natLe 8 x.table }
        | .ok page, some slots, some s =>
          let s := s.setService h { x with st := .run, attempt := attempt, outcome := none }
          let (k, s) := takeFree s
          let (s, lid) := acceptLaunch s {
            fn := x.d.fn, ctx := x.d.ctx, vd := x.d.vd, service := some h, routine := x.d.mainRoutine, gen := g.gen, nodes := g.nodes,
            relays := g.relays, programs := g.programs, budget := g.budget, figures := fig, cores := cores, attempt := attempt,
            seed := (Config.serviceSeed k).toNat, cb := pokeB page 0 (svcHeader x entries) } slots
          s.modService h (fun y => { y with launch := some lid })

/- Parking and restoring (R275, R276). -/

/-- Bytes of a sequence's state at a pool: its KV pages, and its token log unless the prompt is retained. -/
def parkBytes (s : State) (x : Service) (q : Seq) : Nat :=
  let retain := ((s.qp? q.req.qp).map (·.retain)).getD false
  q.pages.length * x.d.pageBytes + (if retain then 0 else 4 * q.toks.length)

/-- Parking begins: EPOCH rises, STATE is PARKING, OPEN goes to the pool (R276, R387). -/
def parkStart (s : State) (h k : Nat) : State :=
  match (s.service? h).bind (fun x => (look x.seqs k).map (fun q => (x, q))) with
  | none => s
  | some (x, q) =>
    match s.qp? q.req.qp, q.slot with
    | some y, some sl =>
      if (q.st = .prefill ∨ q.st = .decode) ∧ q.req.flags.testBit 2 ∧ y.parkPool ≠ 0xFFFF then
        let key := parkKey x sl q.order
        let e := (q.epoch + 1) % 2 ^ 32
        let r : ParkRec := { svc := h, seq := k, pool := y.parkPool, port := y.parkPort, epoch := e }
        let s := s.modSeq h k (fun z => { z with st := .parked, epoch := e })
        let s := parkRecord { s with gfe := { s.gfe with parks := put s.gfe.parks key r } } x.d.vd key r 0
        sendPark s y.parkPort y.parkPool 1 0 key 0 e 0 0 0 (parkBytes s x q)
      else s
    | _, _ => s

/-- Positions of a sequence that hold KV. -/
def kvLen (q : Seq) : Nat := if q.toks.length = 0 then 0 else q.toks.length - 1

/-- A restore begins once a slot and pages are there: STATE is RESTORING and RESTORE asks the owning pool (R276, R387). -/
def restoreStart (s : State) (h k : Nat) : State :=
  match (s.service? h).bind (fun x => (look x.seqs k).map (fun q => (x, q))) with
  | none => s
  | some (x, q) =>
    match s.gfe.parks.find? (fun p => p.2.svc = h ∧ p.2.seq = k) with
    | none => s
    | some (key, r) =>
      match q.slot.orElse (fun _ => takeSlot x) with
      | none => s
      | some sl =>
        if r.st ≠ .parked ∨ q.st ≠ .parked ∨ freePageCount x < ceilDiv (kvLen q) 16 + owedPages x then s
        else
          let r := { r with st := .restoring }
          let s := s.modSeq h k (fun y => { y with slot := some sl })
          let s := parkRecord { s with gfe := { s.gfe with parks := put s.gfe.parks key r } } x.d.vd key r 0
          sendPark (giveTo s h k (kvLen q)) r.port r.pool 5 0 key r.handle r.epoch 0 0 0 0

/- The commands of a step. -/

/-- The draft cap the loop processors chose for a sequence; 16 where they chose none (R128). -/
def capOf (c : PlanChoice) (k : Nat) : Nat := ((c.draftCaps.find? (fun p => p.1 = k)).map (·.2.val)).getD 16

/-- PLAN of R127, once CANCELs are handled. -/
def planStep (s : State) (h : Nat) (c : PlanChoice) : State :=
  let s := resumePreempted s h
  let s := admitAll ((svcQps s h).map (fun p => p.2.queue.length)).sum s h
  let s := c.parks.foldl (fun s k => parkStart s h k) s
  let s := c.restores.foldl (fun s k => restoreStart s h k) s
  match s.service? h with
  | none => s
  | some x =>
    let (x, plan) := fitPlan x.seqs.length x (planOf s x (capOf c))
    let s := preparePlan (s.setService h x) h plan 0
    match s.service? h with
    | none => s
    | some x =>
      let plan := (plan.map (·.1)).filter (fun k => has x.seqs k)
      let s := s.modVd x.d.vd (fun v => { v with rrSvc := h })
      if plan = [] then s.setService h { x with st := .wait, plan := [] }
      else
        launchStep (s.setService h { x with plan := plan, table := c.table.toNat, logits := c.logits.toNat }) h 0

/-- STEP_PLAN (R124–R130, R260). A VD with no working CG runs none (R246), and a launch waits for a free constant-buffer
slot on every core (R302). -/
def execStepPlan (svc : W32) (c : PlanChoice) (s : State) : Host.Outcome State Fault Refusal :=
  let h := svc.toNat
  doneKeep s (match s.service? h with
    | none => s
    | some x =>
      if x.d.scoring ∨ !svcStarts s h x then s
      else
        let s := (svcQps s h).foldl (fun s p => doCancels s p.1) s
        let cores := svcCores s h x
        settle (if cores = [] ∨ (freeSlots s cores).isNone then s else planStep s h c))

/-- STEP_LAUNCH_DONE: sampling begins (R127). -/
def execStepLaunchDone (svc : W32) (s : State) : Host.Outcome State Fault Refusal :=
  doneKeep s (s.modService svc.toNat (fun x =>
    if x.st = .run ∧ x.outcome = some none then { x with st := .sample, outcome := none, launch := none } else x))

/-- Restore page lists to their lengths before the step (R127). -/
def restoreLists (x : Service) : Service :=
  { x with seqs := mapVals x.seqs (fun k q => if x.plan.contains k then { q with pages := q.pages.take q.pagesBefore } else q) }

/-- STEP_LAUNCH_FAILED: a second attempt, then STEP_FAILED for the planned sequences (R127). -/
def execStepLaunchFailed (svc : W32) (s : State) : Host.Outcome State Fault Refusal :=
  let h := svc.toNat
  doneKeep s (match s.service? h with
    | none => s
    | some x =>
      match x.outcome with
      | some (some _) =>
        if x.st ≠ .run then s
        else if x.attempt = 0 then
          if (freeSlots s (svcCores s h x)).isNone then s
          else
            let s := s.setService h (restoreLists x)
            let s := x.plan.foldl (fun s k => match look x.seqs k with
              | some q => giveTo s h k (startPos q + q.planned)
              | none => s) s
            settle (launchStep s h 1)
        else
          s.setService h { x with
            st := .commit, attempt := 2, outcome := none, launch := none
            seqs := mapVals x.seqs (fun k q => if x.plan.contains k then { q with failing := some 0x0B } else q) }
      | _ => s)

/-- Row `i` of a step's logits: FP32, one row after another at LOGITS VA (R139, R303; DEDUCED, log 29). -/
def logitRow (s : State) (x : Service) (i : Nat) : Option (List W32) :=
  match readVa s x.d.fn x.d.ctx (x.logits + 4 * x.d.vocab * i) (4 * x.d.vocab) with
  | .ok (bs, none) => some ((toksOf bs).map (BitVec.ofNat 32))
  | _ => none

/-- Whether every page-list entry below a length names a page (R134). -/
def listOk (s : State) (x : Service) (q : Seq) (n : Nat) : Bool :=
  match q.slot with
  | none => false
  | some sl =>
    match readVa s x.d.fn x.d.ctx (pageListAt x.d sl 0) (4 * ceilDiv n 16) with
    | .ok (bs, none) => (toksOf bs).all (fun e => decide (e < x.d.pageCount))
    | _ => false

/-- The drafts that MAIN_ROUTINE's draft rows propose (R137 mode 2). -/
def draftTokens (s : State) (x : Service) (q : Seq) : List Nat :=
  (List.range q.draftRows).map (fun i =>
    match logitRow s x (q.rowBase + q.sampleRows + i) with
    | some l => if l.all (fun w => !isNan32 w) then (argmax l).1 else Config.freeToken (s.free + 64 + i) % x.d.vocab
    | none => 0)

/-- Sample one planned sequence: verify drafts, detect stops, roll back KV (R134, R136, R138, R143). -/
def sampleSeq (s : State) (h k : Nat) : State :=
  match (s.service? h).bind (fun x => (look x.seqs k).map (fun q => (x, q))) with
  | none => s
  | some (x, q) =>
    let n := startPos q + q.planned
    match s.qp? q.req.qp with
    | none => s
    | some y =>
      if !listOk s x q n then s.modSeq h k (fun z => { z with failing := some 0x0A })
      else if q.sampleRows = 0 then s.modSeq h k (fun z => { z with prefilled := n })
      else
        let v := verify (qpReader s y) (fun i => logitRow s x (q.rowBase + i)) q.req x.d.vocab s.free q.generated q.toks q.drafts 0
          { mask := q.mask }
        let toks := q.toks ++ v.toks
        let len := toks.length - 1
        let next := if v.finish = 0 ∧ v.failed.isNone then draftTokens s x q else []
        let s := { s with free := s.free + 128 }
        let s := s.modSeq h k (fun z => { z with
          st := .decode, toks := toks, prefilled := len, pages := z.pages.take (ceilDiv len 16), mask := v.mask, drafts := next
          accepted := v.accepted, stepToks := v.toks, stepLps := v.lps, finish := v.finish, failing := v.failed })
        match q.slot with
        | some sl =>
          if v.toks = [] then s
          else (svcWrite s x.d (tokLogAt x.d sl q.toks.length) (tokBytes v.toks)).getD
            (s.modSeq h k (fun z => { z with failing := some 0x0A }))
        | none => s

/-- SAMPLE_COMPLETE (R136–R143). A micro-batch has no rows to sample. -/
def execSampleComplete (svc : W32) (s : State) : Host.Outcome State Fault Refusal :=
  let h := svc.toNat
  doneKeep s (match s.service? h with
    | none => s
    | some x =>
      if x.st ≠ .sample then s
      else
        let s := x.plan.foldl (fun s k => sampleSeq s h k) s
        s.modService h (fun y => { y with st := .commit }))

/-- Make a step's tokens, and their log-probabilities, visible at OUT_ADDR (R120). -/
def writeTokens (s : State) (q : Seq) : Option State :=
  match s.qp? q.req.qp with
  | none => none
  | some y =>
    match writeVa s y.fn y.ctx (q.req.outAddr + 4 * q.generated) (tokBytes q.stepToks) with
    | .error _ => none
    | .ok s =>
      if q.req.flags.testBit 1 then
        (writeVa s y.fn y.ctx (q.req.outAddr + 4 * q.req.maxNew + 4 * q.generated) (q.stepLps.flatMap (fun w => natLe 4 w.toNat))).toOption
      else some s

/-- Commit one planned sequence: its outputs, and its end where it stops or fails (R117, R120, R125). -/
def commitSeq (s : State) (h k : Nat) : State :=
  match (s.service? h).bind (fun x => look x.seqs k) with
  | none => s
  | some q =>
    if q.stepToks = [] then
      match q.failing with
      | some st => endSeq s h k st 5 [] 0 0
      | none => s
    else
      match writeTokens s q with
      | none => endSeq s h k 0x08 5 [] 0 0
      | some s =>
        let s := s.modSeq h k (fun z => { z with generated := z.generated + z.stepToks.length })
        let lp := q.stepLps.getLastD 0
        match q.failing with
        | some st => endSeq s h k st 5 q.stepToks lp q.accepted
        | none => if q.finish ≠ 0 then endSeq s h k 0 q.finish q.stepToks lp q.accepted else s

/-- TOKENS of a sequence that streams and goes on (R119). -/
def postTokens (s : State) (h k : Nat) : State :=
  match (s.service? h).bind (fun x => look x.seqs k) with
  | none => s
  | some q =>
    if q.stepToks = [] ∨ !q.req.flags.testBit 0 then s
    else postRsp s q.req.qp { bytes := rspOf 2 0 q.stepToks.length 0 q.req.reqId q.generated
                                (if q.req.flags.testBit 1 then q.stepLps.getLastD 0 else 0) q.accepted (tokBytes q.stepToks) }

/-- The result of one request of a micro-batch: its row of the outputs goes to OUT_ADDR (R117, R119; DEDUCED, log 30). -/
def commitScore (s : State) (h : Nat) (x : Service) (failed : Bool) (r : ScoreReq) (i : Nat) : State :=
  if r.entry = [] then s
  else if failed then endScore s h x.d r 0x0B r.late []
  else
    match s.qp? r.qp with
    | none => s
    | some y =>
      match readVa s x.d.fn x.d.ctx (x.logits + x.d.outputBytes * i) x.d.outputBytes with
      | .ok (out, none) =>
        match writeVa s y.fn y.ctx r.outAddr out with
        | .ok s => endScore s h x.d r 0 r.late out
        | .error _ => endScore s h x.d r 0x08 r.late []
      | _ => endScore s h x.d r 0x0A r.late []

/-- What waits for a service's step boundary: lanes of its queue pairs, its deregistration, a lane change of its VD
(R113, R127, R263, R264). -/
def stepBoundary (s : State) (h : Nat) : State :=
  match s.service? h with
  | none => s
  | some x =>
    let s := (svcQps s h).foldl (fun s p => s.modQp p.1 (fun y => { y with lane := y.laneNext.getD y.lane, laneNext := none })) s
    laneBoundary (setUrgency (settleDereg s h) h) x.d.vd

/-- STEP_COMMIT: records, then responses, then the boundary (R28, R119, R127). -/
def execStepCommit (svc : W32) (s : State) : Host.Outcome State Fault Refusal :=
  let h := svc.toNat
  doneKeep s (match s.service? h with
    | none => s
    | some x =>
      if x.st ≠ .commit then s
      else
        let s := if x.d.scoring then
            x.batch.zipIdx.foldl (fun s p => commitScore s h x (decide (x.attempt = 2)) p.1 p.2) s
          else (x.plan.foldl (fun s k => postTokens s h k) (x.plan.foldl (fun s k => commitSeq s h k) s))
        let s := settle s
        let s := s.modVd x.d.vd (fun v => { v with meter := { v.meter with steps := (v.meter.steps + 1) % 2 ^ 32 } })
        let s := s.modService h (fun y => { y with
          st := if !vdOpen s x.d.vd then .boundary
            else if y.seqs.any (fun p => p.2.st ≠ .parked) || y.scores ≠ [] || (svcQps s h).any (fun p => p.2.queue ≠ [] || p.2.cancels ≠ [])
            then .plan else .wait
          plan := [], batch := [], attempt := 0, steps := (y.steps + 1) % 2 ^ 32 })
        settle (stepBoundary s h))

/- Micro-batches (R146–R148). -/

/-- MICRO_BATCH_LAUNCH: up to SCORE_BATCH of the oldest waiting requests run; one whose input fails to read ends at
once (R121, R146; DEDUCED, log 30). -/
def execMicroBatchLaunch (svc : W32) (inputs outputs : W64) (s : State) : Host.Outcome State Fault Refusal :=
  let h := svc.toNat
  doneKeep s (match s.service? h with
    | none => s
    | some x =>
      let cores := svcCores s h x
      if !x.d.scoring ∨ !svcStarts s h x ∨ !svcWork x ∨ cores = [] ∨ (freeSlots s cores).isNone then s
      else
        let go := x.scores.take x.d.scoreBatch
        let ins := go.map (fun r => (r, (s.qp? r.qp).bind (fun y => qpReader s y r.inAddr x.d.inputBytes)))
        let ok := (ins.filter (fun p => p.2.isSome)).map (·.1)
        let s := s.setService h { x with
          scores := x.scores.drop x.d.scoreBatch, batch := ok, table := inputs.toNat, logits := outputs.toNat }
        let s := s.modVd x.d.vd (fun v => { v with rrSvc := h })
        let s := (ins.filter (fun p => p.2.isNone)).foldl (fun s p => endScore s h x.d p.1 0x04 false []) s
        settle (setUrgency (if ok = [] then s
          else launchStep s h 0) h))

/-- SCORE_WINDOW_EXPIRY: a micro-batch is ready (R146, R148). -/
def execScoreWindowExpiry (svc : W32) (s : State) : Host.Outcome State Fault Refusal :=
  let h := svc.toNat
  doneKeep s (setUrgency (s.modService h (fun x => { x with
    scores := match x.scores with | r :: t => { r with windowOver := true } :: t | [] => [] })) h)

/-- DEADLINE_HALF_USED: the oldest waiting request has used half of its deadline (R148). -/
def execDeadlineHalfUsed (svc : W32) (s : State) : Host.Outcome State Fault Refusal :=
  let h := svc.toNat
  doneKeep s (setUrgency (s.modService h (fun x => { x with
    scores := match x.scores with | r :: t => { r with half := r.half || decide (r.deadline ≠ 0) } :: t | [] => [] })) h)

/-- SCORE_DEADLINE_EXPIRY: a waiting request is dropped with a zero output, or will be LATE (R147). -/
def execScoreDeadlineExpiry (svc : W32) (q : Fin 4096) (req : W64) (s : State) : Host.Outcome State Fault Refusal :=
  let h := svc.toNat
  doneKeep s (match s.service? h with
    | none => s
    | some x =>
      match x.scores.find? (fun r => r.qp = q.val ∧ r.reqId = req.toNat ∧ r.deadline ≠ 0) with
      | none => s
      | some r =>
        if r.flags.testBit 3 then
          let s := s.setService h { x with scores := x.scores.erase r }
          let zero : List Byte := List.replicate x.d.outputBytes 0
          match (s.qp? q.val).bind (fun y => (writeVa s y.fn y.ctx r.outAddr zero).toOption) with
          | some s => settle (setUrgency (endScore s h x.d r 0 false zero) h)
          | none => settle (setUrgency (endScore s h x.d r 0x08 false []) h)
        else s.setService h { x with scores := x.scores.map (fun y => if y = r then { y with late := true } else y) })

end Sys2Proof.Machine
end

