-- ==== Sys2Proof/Machine/Talko.lean ====
section
/-! DEFINITION. The link of an optical port: training, negotiation, sessions, DATA and LINK blocks, replay, credits,
spare lanes, lasers and the device ID (R355–R376, R380–R383, R391). -/

namespace Sys2Proof.Machine

/- Frames on the wire (R377). -/

/-- The 32 header bytes of a frame. -/
def headerBytes (w : WireFrame) : List Byte :=
  [w.type] ++ natLe 1 (w.vc.val + 4 * w.ttl.val + 64 * w.rsvCtl.val) ++ natLe 2 w.dst.toNat ++ natLe 2 w.src.toNat ++ natLe 2 w.payload.length
    ++ natLe 4 w.tag.toNat ++ [w.status] ++ natLe 3 w.rsv.val ++ natLe 8 w.addr.toNat ++ natLe 8 w.aux.toNat

/-- The trailer of a frame: CRC-32C, or the tag of a session (R375, R377). -/
def trailerOf (x : Port) (count : Nat) (header payload : List Byte) : List Byte :=
  if x.session then sliceB (Config.gcmTag x.keys count header payload) 0 16
  else natLe 4 (crc32c (header ++ payload)) ++ List.replicate 12 0

/-- Whether a received frame passes its CRC or tag check. -/
def trailerOk (x : Port) (count : Nat) (w : WireFrame) : Bool := decide (w.trailer = trailerOf x count (headerBytes w) w.payload)

/-- Whether a frame has a TYPE of R378, its VC, no reserved bit, and a payload its type allows. -/
def frameOk (w : WireFrame) : Bool :=
  let t := w.type.toNat
  let n := w.payload.length
  let row : Option (Nat × Bool) :=
    if t = 1 then some (0, decide (n = 0 ∧ 256 ≤ w.aux.toNat % 2 ^ 32 ∧ w.aux.toNat % 2 ^ 32 ≤ 65536 ∧ w.aux.toNat % 256 = 0 ∧ w.addr.toNat % 256 = 0))
    else if t = 2 then some (1, decide (256 ≤ n ∧ n % 256 = 0))
    else if t = 3 then some (0, decide (256 ≤ n))
    else if t = 4 ∨ t = 6 then some (1, decide (n = 0))
    else if t = 5 then some (0, decide (n = 0))
    else if t = 16 then some (2, decide (0 < n))
    else if t = 17 ∨ t = 18 then some (3, decide (n = 0))
    else if t = 32 then some (3, decide (n = 64))
    else none
  match row with
  | none => false
  | some (vc, ok) => ok && decide (w.vc.val = vc ∧ w.rsvCtl = 0 ∧ w.rsv = 0 ∧ w.dst.toNat < 4096 ∧ w.src.toNat < 4096 ∧ n ≤ 4096 ∧ n % 16 = 0)

def frameOf (w : WireFrame) : Frame :=
  { type := w.type.toNat, vc := w.vc.val, ttl := w.ttl.val, dst := w.dst.toNat, src := w.src.toNat, tag := w.tag.toNat, status := w.status.toNat,
    addr := w.addr.toNat, aux := w.aux.toNat, payload := w.payload }

/-- Bytes of a frame, and the 64-byte credit units it takes (R366, R377). -/
def wireLen (f : Frame) : Nat := 48 + f.payload.length
def frameUnits (f : Frame) : Nat := ceilDiv (wireLen f) 64

/-- Receive-buffer units of a VC: 96, 192, 64 and 32 KiB (R366). -/
def vcUnits (vc : Nat) : Nat := [1536, 3072, 1024, 512].getD vc 0

def addAt (l : List Nat) (i d : Nat) : List Nat := l.mapIdx (fun j x => if j = i then x + d else x)

/-- A frame leaves the receive buffer: its credit is free (R366). -/
def freeCredit (x : Port) (f : Frame) : Port := { x with freed := addAt x.freed f.vc (frameUnits f) }

/- Routing (R380, R381). -/

def countDrop (s : State) (p : Nat) : State := s.modPort p (fun x => { x with dropForward := satAdd 16 x.dropForward 1 })

/-- The egress port of the table, chosen among the UP candidates (R380). -/
def routePort (s : State) (src dst vc : Nat) : Option Nat :=
  let e := lookD s.talko.routes dst {}
  let ups := (bitsOf 24 e.ports).filter (fun p => decide ((s.port p).st = .up))
  if !e.valid ∨ ups = [] ∨ dst = s.talko.devId then none else ups[(src * 4099 + dst * 3 + vc) % ups.length]?

/-- Send an answer by the table, on a port of the same VD as the request's; otherwise it is dropped and counted (R380,
R381). -/
def answer (s : State) (inPort : Nat) (f : Frame) : State :=
  match routePort s f.src f.dst f.vc with
  | none => countDrop s inPort
  | some p => if s.portVd p = s.portVd inPort then portSend s p f else countDrop s inPort

/-- Forward a frame for another device (R381). -/
def forward (s : State) (inPort : Nat) (f : Frame) : State :=
  let s := s.modPort inPort (fun x => freeCredit x f)
  if f.ttl = 0 ∨ (s.portVd inPort).isNone then countDrop s inPort
  else
    match routePort s f.src f.dst f.vc with
    | none => countDrop s inPort
    | some p => if s.portVd p = s.portVd inPort then portSend s p { f with ttl := f.ttl - 1 } else countDrop s inPort

/-- Deliver one frame that arrived whole and unharmed (R378, R381). -/
def deliver (s : State) (p : Nat) (w : WireFrame) : State :=
  let f := frameOf w
  let s := match s.portVd p with
    | some v => s.modVd v (fun x => { x with meter := { x.meter with linkRx := x.meter.linkRx + f.payload.length } })
    | none => s
  let s := s.modPort p (fun x => { x with rxCount := x.rxCount + 1 })
  if !frameOk w then countDrop (s.modPort p (fun x => freeCredit x f)) p
  else if f.dst ≠ s.talko.devId then forward s p f
  else s.modPort p (fun x => { x with rx := x.rx ++ [f] })

/- DATA blocks (R363, R365). -/

/-- Send a NAK for the first block to replay, unless one is out (R365). -/
def sendNak (x : Port) (seq : Nat) : Port :=
  if x.nakSent.isSome then x else { x with nakSent := some seq, rxNext := seq, sentMsgs := x.sentMsgs ++ [.nak seq] }

/-- The first frame of a block that fails its check; `n` frames of the link came before. -/
def firstFailing (x : Port) : Nat → List WireFrame → Option WireFrame
  | _, [] => none
  | n, w :: t => if trailerOk x n w then firstFailing x (n + 1) t else some w

/-- The frames of a DATA block: all are delivered, unless they were before, and the next SEQ is expected. A frame that fails
its check discards the block, and a replay is asked for from the frame's first block (R365, R376; DEDUCED, log 153). -/
def takeFrames (p seq : Nat) (again : Bool) (ws : List WireFrame) (s : State) : State :=
  let x := s.port p
  let go (s : State) : State := s.modPort p (fun x => { x with rxNext := (seq + 1) % 4096, rxSkip := if x.rxSkip = some seq then none else x.rxSkip })
  if again then go s
  else
    match firstFailing x x.rxCount ws with
    | none => go (ws.foldl (fun s w => deliver s p w) s)
    | some w => s.modPort p (fun x =>
      let x := { x with rxSkip := some seq }
      let x := if x.session then { x with tagFails := x.tagFails ++ [s.s0], errTag := true } else x
      sendNak { x with nakSent := none } w.start.val)

/-- DATA_BLOCK_RECEIVE: delivery in SEQ order, or a discard with a NAK; sixteen failed tags within 1 s take the port down
(R365, R376). -/
def execDataBlockReceive (p : PortId) (seq : Fin 4096) (good : Bool) (frames : List WireFrame) (s : State) : Host.Outcome State Fault Refusal :=
  let x := s.port p.val
  done s (if x.st ≠ .up then s
    else if !good then s.modPort p.val (fun x => sendNak { x with uncorr := satAdd 16 x.uncorr 1 } x.rxNext)
    else if seq.val ≠ x.rxNext then s.modPort p.val (fun x => sendNak x x.rxNext)
    else
      let again := match x.rxSkip with | some k => decide (k ≠ seq.val) | none => false
      let s := takeFrames p.val seq.val again frames (s.modPort p.val (fun x => { x with nakSent := none }))
      let recent := (s.port p.val).tagFails.filter (fun t => decide (s.s0 < t + 800000000))
      let s := s.modPort p.val (fun x => { x with tagFails := recent })
      if recent.length ≥ 16 then asidePort (portDown s p.val 7 true) p.val else s)

/-- Whether a port holds credit for a frame: the units sent and not yet freed, by counts modulo 2^32, leave room (R364, R366). -/
def hasCredit (x : Port) (f : Frame) : Bool :=
  decide ((x.used.getD f.vc 0 % 2 ^ 32 + 2 ^ 32 - x.credits.getD f.vc 0 % 2 ^ 32) % 2 ^ 32 + frameUnits f ≤ vcUnits f.vc)

/-- Fill a block of `room` bytes: the frame being sent goes on, then the first queued frame with credit starts; a frame
that ends in the block is listed with the block it began in. -/
def fillBlock (seq : Nat) : Nat → Nat → Port → List (Nat × Frame) → Port × List (Nat × Frame)
  | 0, _, x, acc => (x, acc)
  | f + 1, room, x, acc =>
    match x.sending with
    | some (fr, st, left) =>
      if left ≤ room then fillBlock seq f (room - left) { x with sending := none } (acc ++ [(st, fr)])
      else ({ x with sending := some (fr, st, left - room) }, acc)
    | none =>
      if room < 16 then (x, acc)
      else
        match x.queue.find? (hasCredit x) with
        | none => (x, acc)
        | some fr => fillBlock seq f room { x with
            queue := x.queue.erase fr, used := addAt x.used fr.vc (frameUnits fr), txCount := x.txCount + 1
            sending := some (fr, seq, wireLen fr) } acc

/-- DATA_BLOCK_SEND: a replayed block, or a new one where the replay window allows (R363, R365). -/
def execDataBlockSend (p : PortId) (s : State) : Host.Outcome State Fault Refusal :=
  let x := s.port p.val
  doneKeep s (if x.st ≠ .up then s
    else
      match x.replaying with
      | some q =>
        let next := (q + 1) % 4096
        s.setPort p.val { x with replaying := if x.replay.any (fun b => b.seq = next) then some next else none, sinceLink := x.sinceLink + 1 }
      | none =>
        if x.replay.length ≥ 1024 ∨ (x.sending.isNone ∧ !x.queue.any (hasCredit x)) then s
        else
          let seq := x.txSeq
          let (y, fs) := fillBlock seq 64 640 x []
          let s := s.setPort p.val { y with replay := y.replay ++ [{ seq := seq, frames := fs }], txSeq := (seq + 1) % 4096, sinceLink := y.sinceLink + 1 }
          let s := match s.portVd p.val with
            | some v => s.modVd v (fun k => { k with meter := { k.meter with linkTx := k.meter.linkTx + (fs.map (fun (f : Nat × Frame) => f.2.payload.length)).sum } })
            | none => s
          { s with talko := { s.talko with sent := s.talko.sent ++ fs.map (fun (f : Nat × Frame) => (p.val, f.2)) } })

/-- LINK_BLOCK_DUE: the acknowledgement and the cumulative credits go out (R364, R366). -/
def execLinkBlockDue (p : PortId) (s : State) : Host.Outcome State Fault Refusal :=
  doneKeep s (if (s.port p.val).st ≠ .up then s
    else s.modPort p.val (fun x => { x with
      sinceLink := 0, sentMsgs := x.sentMsgs ++ [.ack ((x.rxNext + 4095) % 4096), .credit (x.freed.map (· % 2 ^ 32))] }))

/-- LINK_ACK: blocks up to the SEQ leave the replay buffer (R363, R364). -/
def execLinkAck (p : PortId) (seq : Fin 4096) (s : State) : Host.Outcome State Fault Refusal :=
  doneKeep s (if (s.port p.val).st ≠ .up then s
    else s.modPort p.val (fun x =>
      match x.replay.findIdx? (fun b => b.seq = seq.val) with
      | some i => { x with replay := x.replay.drop (i + 1), acked := seq.val }
      | none => x))

/-- LINK_NAK: replay starts at the SEQ; sixteen replays of one SEQ take the port down (R365). -/
def execLinkNak (p : PortId) (seq : Fin 4096) (s : State) : Host.Outcome State Fault Refusal :=
  let x := s.port p.val
  done s (if x.st ≠ .up ∨ !x.replay.any (fun b => b.seq = seq.val) then s
    else
      let n := if x.naks.1 = seq.val then x.naks.2 + 1 else 1
      let s := s.setPort p.val { x with replaying := some seq.val, naks := (seq.val, n), replays := satAdd 16 x.replays 1 }
      if n ≥ 16 then asidePort (portDown s p.val 6 true) p.val else s)

/-- NAK_REPEAT_EXPIRY: the NAK is repeated until the replay starts (R365). -/
def execNakRepeatExpiry (p : PortId) (s : State) : Host.Outcome State Fault Refusal :=
  doneKeep s (if (s.port p.val).st ≠ .up then s
    else s.modPort p.val (fun x => match x.nakSent with
      | some q => { x with sentMsgs := x.sentMsgs ++ [.nak q] }
      | none => x))

/-- LINK_CREDIT: absolute counts of freed units (R364, R366). -/
def execLinkCredit (p : PortId) (req rsp relay ctrl : W32) (s : State) : Host.Outcome State Fault Refusal :=
  doneKeep s (if (s.port p.val).st ≠ .up then s
    else s.modPort p.val (fun x => { x with credits := [req.toNat, rsp.toNat, relay.toNat, ctrl.toNat] }))

/- Lanes (R368, R369). -/

def dataLanes (x : Port) : Nat := x.laneMap.length - b2n ((x.mode.map (·.parity)).getD false)

/-- Move a failed lane's symbols to the spare. -/
def useSpare (x : Port) (lane : Nat) : Port :=
  match x.spare with
  | some sp => { x with laneMap := x.laneMap.map (fun l => if l = lane then sp else l), spare := none, spareUsed := true }
  | none => x

/-- A lane of a port fails: the spare takes over, or the port renegotiates with the lanes left (R368, R373, R391). -/
def laneFails (s : State) (p lane : Nat) : State :=
  let x := s.port p
  let s := report (s.setPort p { x with errLane := true, trained := x.trained &&& (511 ^^^ (1 <<< lane)) }) 14 (p * 16 + lane) ((s.portVd p).getD 64)
  if x.st ≠ .up then s
  else if x.spare = some lane then s.modPort p (fun x => { x with spare := none })
  else if !x.laneMap.contains lane then s
  else if x.laneDown.isSome ∨ x.spare.isNone then
    let s := if (x.mode.map (·.parity)).getD false then report s 13 p ((s.portVd p).getD 64) else s
    renegPort s p
  else s.modPort p (fun x => { x with laneDown := some lane, sentMsgs := x.sentMsgs ++ [.lane false lane x.rxNext] })

/-- LANE_FAILURE (R368). -/
def execLaneFailure (p : PortId) (lane : Fin 9) (s : State) : Host.Outcome State Fault Refusal :=
  done s (asidePort (laneFails s p.val lane.val) p.val)

/-- LINK_LANE_REQUEST: the sender confirms and moves the lane to the spare (R368). -/
def execLinkLaneRequest (p : PortId) (lane : Fin 9) (seq : Fin 4096) (s : State) : Host.Outcome State Fault Refusal :=
  let x := s.port p.val
  done s (if x.st ≠ .up ∨ !x.laneMap.contains lane.val then s
    else if x.spare.isNone then asidePort (renegPort s p.val) p.val
    else s.modPort p.val (fun x => { useSpare x lane.val with sentMsgs := x.sentMsgs ++ [.lane true lane.val seq.val] }))

/-- LINK_LANE_CONFIRM: the receiver reads the lane from the spare (R368). -/
def execLinkLaneConfirm (p : PortId) (lane : Fin 9) (_seq : Fin 4096) (s : State) : Host.Outcome State Fault Refusal :=
  doneKeep s (if (s.port p.val).st = .up ∧ (s.port p.val).laneDown = some lane.val then
      s.modPort p.val (fun x => { useSpare x lane.val with laneDown := none })
    else s)

/- Negotiation (R370–R373). -/

/-- The CAPS this port sends (R371). -/
def capsOf (s : State) (p : Nat) : Caps :=
  let x := s.port p
  { devId := s.talko.devId, reach := x.reach, lanes := x.trained, fec := 3 + 4 * b2n (decide (x.fecPolicy = 1)), enc := x.encPolicy,
    parity := if ((s.portVd p).map (fun v => decide ((s.vd v).cls = 3))).getD false then 2 else 1 }

/-- Ask for the flight time and wait for the partner's CAPS (R370 t2). -/
def startEcho (x : Port) : Port :=
  { x with echoed := false, peerCaps := none, mode := none, peerRecord := [], sentMsgs := x.sentMsgs ++ [.echo false 0 0] }

/-- The resolved mode of two CAPS, or the reason code of a failure (R372). -/
def resolve (a b : Caps) : Nat ⊕ LinkMode :=
  let v := min a.verMax b.verMax
  let ws := bitsOf 9 (a.lanes &&& b.lanes)
  if v < max a.verMin b.verMin then .inl 1
  else if ws = [] then .inl 2
  else if (a.enc = 2 ∧ b.enc = 0) ∨ (b.enc = 2 ∧ a.enc = 0) then .inl 3
  else
    let act := ws.take 8
    let new := decide (0x0101 ≤ v)
    .inr {
      version := v, map := maskOf act, active := act.length, spare := ws[8]?
      parity := new && decide (1 ≤ a.parity ∧ 1 ≤ b.parity ∧ (a.parity = 2 ∨ b.parity = 2) ∧ act.length = 8)
      lowFec := new && a.fec.testBit 1 && b.fec.testBit 1 && a.fec.testBit 2 && b.fec.testBit 2 && decide (a.reach ≤ 1 ∧ b.reach ≤ 1)
      enc := decide (1 ≤ a.enc ∧ 1 ≤ b.enc)
      cold := new && decide (a.spare = 1 ∧ b.spare = 1) && (ws[8]?).isSome
      lowId := min a.devId b.devId, highId := max a.devId b.devId }

/-- The 16-byte mode record (R372). -/
def modeRecord (m : LinkMode) : List Byte :=
  natLe 2 m.version ++ natLe 2 m.map ++ natLe 1 m.active ++ natLe 1 (b2n m.parity + 2 * b2n m.lowFec + 4 * b2n m.enc + 8 * b2n m.cold)
    ++ natLe 2 m.lowId ++ natLe 2 m.highId ++ List.replicate 6 0

/-- A port whose mode is agreed comes up (R370 t5). -/
def portUp (s : State) (p : Nat) : State :=
  s.modPort p (fun x => match x.mode with
    | some m => { x with st := .up, reason := 0, attempts := 0, laneMap := bitsOf 9 m.map, spare := m.spare, spareUsed := false }
    | none => x)

/-- Compare the COMMIT records once both are there: keying or up on a match, another try or NEG_FAIL otherwise (R372). -/
def tryCommit (s : State) (p : Nat) : State :=
  let x := s.port p
  match x.mode with
  | none => s
  | some m =>
    if x.peerRecord = [] then s
    else if x.peerRecord = modeRecord m then
      if m.enc then s.setPort p { x with st := .keying } else portUp s p
    else if x.attempts ≥ 2 then portDown s p 5 true
    else s.setPort p (startEcho { x with attempts := x.attempts + 1 })

/-- Resolve the mode once the flight time and the partner's CAPS are known, and send COMMIT (R370 t3). -/
def tryResolve (s : State) (p : Nat) : State :=
  let x := s.port p
  if !x.echoed then s
  else
    match x.peerCaps with
    | none => s
    | some c =>
      match resolve (capsOf s p) c with
      | .inl r => portDown s p r true
      | .inr m => tryCommit (s.setPort p { x with mode := some m, sentMsgs := x.sentMsgs ++ [.commit (modeRecord m)] }) p

def negotiating (x : Port) : Bool := decide (x.st = .negotiating ∨ x.st = .renegotiating)

/-- PORT_TRAINING_DONE: the lanes that trained; ECHO begins (R370 t1, t2). -/
def execPortTrainingDone (p : PortId) (lanes : Fin 512) (s : State) : Host.Outcome State Fault Refusal :=
  doneKeep s (if (s.port p.val).st ≠ .training then s
    else s.modPort p.val (fun x => startEcho { x with st := .negotiating, trained := lanes.val &&& (511 ^^^ x.calBad), attempts := 0 }))

/-- LINK_ECHO_REQUEST: answered with a reply that carries the turnaround (R364). -/
def execLinkEchoRequest (p : PortId) (cycle : W64) (turn : W32) (s : State) : Host.Outcome State Fault Refusal :=
  doneKeep s (if (s.port p.val).st = .off ∨ (s.port p.val).st = .down then s
    else s.modPort p.val (fun x => { x with sentMsgs := x.sentMsgs ++ [.echo true cycle.toNat turn.toNat] }))

/-- The reach class of a flight round trip in O-cycles of 0.64 ns; none beyond 1,000 ns (R357). -/
def reachOf (cycles : Nat) : Option Nat :=
  if cycles * 64 ≤ 3000 then some 0 else if cycles * 64 ≤ 10000 then some 1 else if cycles * 64 ≤ 100000 then some 2 else none

/-- LINK_ECHO_REPLY: the flight round trip gives the reach class; CAPS goes out (R357, R370). -/
def execLinkEchoReply (p : PortId) (cycle : W64) (turn : W32) (now : W64) (s : State) : Host.Outcome State Fault Refusal :=
  let x := s.port p.val
  done s (if !negotiating x ∨ x.echoed then s
    else
      match reachOf (now.toNat - cycle.toNat - turn.toNat) with
      | none => asidePort (portDown s p.val 4 true) p.val
      | some r =>
        let s := s.setPort p.val { x with echoed := true, reach := r }
        let s := s.modPort p.val (fun x => { x with sentMsgs := x.sentMsgs ++ [.caps (capsOf s p.val)] })
        asidePort (tryResolve s p.val) p.val)

/-- LINK_CAPS: the partner's offer, or the start of a renegotiation while the port is up (R372, R373, R391). -/
def execLinkCaps (p : PortId) (c : Caps) (s : State) : Host.Outcome State Fault Refusal :=
  let x := s.port p.val
  done s (asidePort (if negotiating x then tryResolve (s.setPort p.val { x with peerCaps := some c }) p.val
    else if x.st = .up ∨ x.st = .keying then
      (renegPort s p.val).modPort p.val (fun x => { x with peerCaps := some c })
    else s) p.val)

/-- LINK_COMMIT (R372). -/
def execLinkCommit (p : PortId) (record : List Byte) (s : State) : Host.Outcome State Fault Refusal :=
  let x := s.port p.val
  done s (asidePort (if negotiating x ∧ record.length = 16 then tryCommit (s.setPort p.val { x with peerRecord := record }) p.val else s) p.val)

/- Sessions (R374–R376, R464). -/

/-- Whether a partner's root and device ID meet the port's peer policy (R374, R544). -/
def peerAllowed (x : Port) (root : List Byte) (dev : Nat) : Bool :=
  if allZero x.peerPolicy then decide (root = Config.novbinRoot)
  else decide (root = sliceB x.peerPolicy 0 48 ∧ fieldAt x.peerPolicy 48 2 ≤ dev ∧ dev ≤ fieldAt x.peerPolicy 50 2)

/-- PORT_SESSION_DONE: one signing token and one signature are spent, the partner is checked, keys are derived and the port
is up; without a token or a signature the port waits in keying, and without a new key it goes down (R370 t5, R374, R453, R464, R465). -/
def execPortSessionDone (p : PortId) (root : List Byte) (s : State) : Host.Outcome State Fault Refusal :=
  let x := s.port p.val
  done s (if x.st ≠ .keying then s
    else if !canKey s then asidePort (portDown s p.val 7 true) p.val
    else
      match takeToken s 0 with
      | none => s
      | some t =>
        match signPair t root with
        | none => s
        | some (_, _, s) =>
          asidePort (if !peerAllowed x root ((x.peerCaps.map (·.devId)).getD 0) then portDown s p.val 9 true
            else portUp (s.setPort p.val { x with
              session := true, keys := Config.talkoKeys p.val (x.keyGen + 1), keyGen := x.keyGen + 1, txCount := 0, rxCount := 0, spdmIn := [] }) p.val) p.val)

/-- TALKO_KEYING_TIMEOUT (R464). -/
def execTalkoKeyingTimeout (p : PortId) (s : State) : Host.Outcome State Fault Refusal :=
  done s (if (s.port p.val).st ≠ .keying then s else asidePort (portDown s p.val 7 true) p.val)

/-- Whether this side is the requester of the port's session (R374). -/
def requester (s : State) (x : Port) : Bool :=
  match x.peerCaps with | some c => c.pool || decide (s.talko.devId < c.devId) | none => false

/-- SPDM 1.3 codes of KEY_UPDATE and its acknowledgement, with a version byte before them. -/
def spdmKeyUpdate : List Byte := [0x13, 0xE9, 0x02, 0x00]
def spdmKeyUpdateAck : List Byte := [0x13, 0x69, 0x02, 0x00]

/-- New keys of a port's session apply from the next frame (R375). -/
def newPortKeys (p : Nat) (x : Port) : Port :=
  { x with keyGen := x.keyGen + 1, keys := Config.talkoKeys p (x.keyGen + 1), txCount := 0, rxCount := 0, keyUpdate := false }

/-- KEY_UPDATE_DUE: the requester starts KEY_UPDATE (R375). -/
def execKeyUpdateDue (p : PortId) (s : State) : Host.Outcome State Fault Refusal :=
  let x := s.port p.val
  doneKeep s (if x.st = .up ∧ x.session ∧ requester s x ∧ !x.keyUpdate then
      s.setPort p.val { x with keyUpdate := true, sentMsgs := x.sentMsgs ++ [.spdm true spdmKeyUpdate] }
    else s)

/-- LINK_SPDM: fragments of the session's exchange; a whole KEY_UPDATE or its acknowledgement installs new keys (R364,
R374, R375). -/
def execLinkSpdm (p : PortId) (last : Bool) (bytes : List Byte) (s : State) : Host.Outcome State Fault Refusal :=
  let x := s.port p.val
  doneKeep s (if x.st ≠ .up ∧ x.st ≠ .keying then s
    else
      let msg := x.spdmIn ++ bytes
      if !last then s.setPort p.val { x with spdmIn := msg }
      else
        let x := { x with spdmIn := [] }
        let code := fieldAt msg 1 1
        if x.session ∧ code = 0x69 ∧ x.keyUpdate then s.setPort p.val (newPortKeys p.val x)
        else if x.session ∧ code = 0xE9 ∧ !requester s x then
          s.setPort p.val (newPortKeys p.val { x with sentMsgs := x.sentMsgs ++ [.spdm true spdmKeyUpdateAck] })
        else s.setPort p.val x)

/-- LINK_DOWN: the port goes down with the partner's reason (R373). -/
def execLinkDown (p : PortId) (reason : Fin 16) (s : State) : Host.Outcome State Fault Refusal :=
  done s (if (s.port p.val).st = .off ∨ (s.port p.val).st = .down then s else asidePort (portDown s p.val reason.val false) p.val)

/- The manager's writes (R373, R380, R382). -/

def tileUp (s : State) (t : Nat) : Bool := let l := lookD s.talko.lasers t {}; l.enabled && l.locked && !l.failed

/-- Bring a port up from t0: it trains once its tile is lit and the device has an ID (R370, R380). -/
def bringUp (s : State) (p : Nat) : State :=
  if 4095 < s.talko.devId ∨ !tileUp s (p / 6) then s else s.modPort p (fun x => { linkFresh x with st := .training, reason := 0 })

/-- RENEG of PORT_POLICY (R373, R544). -/
def manualReneg (s : State) (p : Nat) : State :=
  match (s.port p).st with
  | .off | .down => bringUp s p
  | .training => s
  | _ => renegPort s p

/-- A write of the device ID (R382): live ports renegotiate; 0xFFFF takes every port down without a message. -/
def writeDevId (s : State) (id : Nat) : State :=
  if 4095 < id ∧ id ≠ 0xFFFF then s
  else
    let old := s.talko.devId
    let s := { s with talko := { s.talko with devId := id } }
    (List.range 24).foldl (fun s p =>
      asidePort (if id = 0xFFFF then (if (s.port p).st = .off then s else portDown s p 0 false)
        else if old = 0xFFFF then bringUp s p
        else if old = id then s
        else
          match (s.port p).st with
          | .up | .keying | .negotiating | .renegotiating => renegPort s p
          | _ => s) p) s

/- Lasers (R358–R360). -/

def State.modLaser (s : State) (t : Nat) (f : Laser → Laser) : State :=
  { s with talko := { s.talko with lasers := put s.talko.lasers t (f (lookD s.talko.lasers t {})) } }

def tilePorts (t : Nat) : List Nat := (List.range 6).map (6 * t + ·)

/-- A failed line fails its lane on the tile's six ports (R360). -/
def lineFails (s : State) (t k : Nat) : State :=
  let s := s.modLaser t (fun l => { l with lines := l.lines.mapIdx (fun i x => if i = k then { x with failed := true } else x) })
  let s := report s 11 (t * 16 + k) 64
  (tilePorts t).foldl (fun s p => asidePort (laneFails (s.modPort p (fun x => { x with errLaser := true })) p k) p) s

/-- A failed module takes its six ports down (R360). -/
def moduleFails (s : State) (t : Nat) : State :=
  let s := report (s.modLaser t (fun l => { l with failed := true, locked := false, lines := l.lines.map (fun x => { x with failed := true }) })) 12 t 64
  (tilePorts t).foldl (fun s p => if (s.port p).st = .off then s else asidePort (portDown s p 8 true) p) s

/-- LASER_LOCK_TIMEOUT: lines without LOCK at 500 ms have failed; the ports train on the rest (R360, R370 t0). -/
def execLaserLockTimeout (t : Fin 4) (locked : Fin 512) (s : State) : Host.Outcome State Fault Refusal :=
  let l := lookD s.talko.lasers t.val {}
  done s (if !l.enabled ∨ l.locked ∨ l.failed then s
    else if locked.val = 0 then moduleFails s t.val
    else
      let bad := (List.range 9).filter (fun k => !locked.val.testBit k)
      let s := bad.foldl (fun s k => lineFails s t.val k) (s.modLaser t.val (fun l => { l with locked := true }))
      (tilePorts t.val).foldl (fun s p => bringUp s p) s)

/-- Whether a reading of a line is bad (R360). -/
def badReading (x : LaserLine) (r : LaserReading) : Bool :=
  let pw := r.power.toInt
  decide ((pw - (x.power : Int)).natAbs > 10) || decide ((r.bias.toNat - x.bias) * 10 > x.bias) || decide ((x.bias - r.bias.toNat) * 10 > x.bias)
    || decide (x.bias = 500 ∧ pw < (x.power : Int)) || decide (r.temp.toInt < 150) || decide (700 < r.temp.toInt) || decide (50 < r.ferr.toInt.natAbs) || !r.lock

/-- A line after a reading: its bias moves 1 mA towards the power target (R360). -/
def readLaser (x : LaserLine) (r : LaserReading) : LaserLine :=
  let bad := if badReading x r then x.bad + 1 else 0
  let bias := if r.power.toInt < (x.power : Int) then min 500 (x.bias + 1) else if (x.power : Int) < r.power.toInt then max 50 (x.bias - 1) else x.bias
  { x with bias := bias, bad := bad }

/-- LASER_POLL (R360). -/
def execLaserPoll (t : Fin 4) (fault : Bool) (lines : List LaserReading) (s : State) : Host.Outcome State Fault Refusal :=
  let l := lookD s.talko.lasers t.val {}
  done s (if !l.enabled ∨ !l.locked ∨ l.failed then s
    else if fault then moduleFails s t.val
    else
      let new := l.lines.mapIdx (fun i x => match lines[i]? with | some r => if x.failed then x else readLaser x r | none => x)
      let s := s.modLaser t.val (fun l => { l with lines := new, statusBad := 0 })
      ((List.range 9).filter (fun k => match new[k]? with | some x => !x.failed && decide (3 ≤ x.bad) | none => false)).foldl (fun s k => lineFails s t.val k) s)

/-- LASER_READ_TIMEOUT: the read counts as bad for the status and every line (R360). -/
def execLaserReadTimeout (t : Fin 4) (s : State) : Host.Outcome State Fault Refusal :=
  let l := lookD s.talko.lasers t.val {}
  done s (if !l.enabled ∨ !l.locked ∨ l.failed then s
    else
      let s := s.modLaser t.val (fun l => { l with statusBad := l.statusBad + 1, lines := l.lines.map (fun x => { x with bad := x.bad + 1 }) })
      if l.statusBad + 1 ≥ 3 then moduleFails s t.val
      else ((List.range 9).filter (fun k => match l.lines[k]? with | some x => !x.failed && decide (2 ≤ x.bad) | none => false)).foldl
        (fun s k => lineFails s t.val k) s)

end Sys2Proof.Machine
end

