-- ==== Sys2Proof/Machine/Fabric.lean ====
section
/-! DEFINITION. Transport over the fabric: Lift queues, export windows, answers, peer Relay frames and the parked-state
protocol (R273–R278, R378, R379, R384–R390). -/

namespace Sys2Proof.Machine

/-- Take the oldest frame of a port's receive buffer that a command handles; its credit is free (R366). -/
def popRx (s : State) (p : Nat) (want : Frame → Bool) : Option (Frame × State) :=
  match (s.port p).rx.find? want with
  | none => none
  | some f => some (f, s.modPort p (fun x => freeCredit { x with rx := x.rx.erase f } f))

/-- Handle the oldest frame of a type. -/
def onFrame (s : State) (p type : Nat) (act : State → Frame → State) : State :=
  match popRx s p (fun f => f.type = type) with
  | none => s
  | some (f, s) => settle (act s f)

/-- The bytes of the target that a read or write request names. -/
def reqSpan (f : Frame) : Nat × Nat := (f.addr, if f.type = 1 then f.aux % 2 ^ 32 else f.payload.length)

/-- Whether no request that a port received earlier, and has not answered, names a unit of this one's (R379). -/
def reqFree (x : Port) (f : Frame) : Bool :=
  (x.rx.takeWhile (· ≠ f)).all (fun g => !(decide (g.type = 1 ∨ g.type = 3)
    && decide ((reqSpan g).1 / 256 * 256 < (reqSpan f).1 + (reqSpan f).2) && decide ((reqSpan f).1 / 256 * 256 < (reqSpan g).1 + (reqSpan g).2)))

/-- Handle the oldest request of a type, unless an earlier one for the same target unit waits (R379). -/
def onTarget (s : State) (p type : Nat) (act : State → Frame → State) : State :=
  match (s.port p).rx.find? (fun f => f.type = type) with
  | none => s
  | some f => if reqFree (s.port p) f then onFrame s p type act else s

/- Export windows (R379, R385). -/

/-- The window of a VD that holds a range, and whether it allows a source. -/
def windowOf (s : State) (vd addr n src : Nat) : Option (Window × Bool) :=
  ((s.talko.windows.map (·.2)).find? (fun w => w.len ≠ 0 && w.vd = vd && decide (w.base ≤ addr ∧ addr + n ≤ w.base + w.len))).map
    (fun w => (w, w.sources.contains src))

/-- The status of a request, and the device physical address it names: NO_WINDOW 1, DENIED 2 (R385). -/
def windowStatus (s : State) (p : Nat) (f : Frame) (n : Nat) : Nat × Nat × Nat :=
  match s.portVd p with
  | none => (1, 0, 0)
  | some v =>
    match windowOf s v f.addr n f.src with
    | none => (1, v, 0)
    | some (w, ok) => if ok then (0, v, w.dpa + (f.addr - w.base)) else (2, v, 0)

/-- RD_REQ: the units go back in RD_DATA frames of up to 16; a refused or poisoned group carries zeros (R378, R385;
DESIGN CHOICE, log 35). -/
def serveRead (s : State) (p : Nat) (f : Frame) : State :=
  let n := f.aux % 2 ^ 32
  let (st, v, a) := windowStatus s p f n
  (List.range (ceilDiv n 4096)).foldl (fun s i =>
    let k := min 4096 (n - 4096 * i)
    let (bs, bad) := readDpaVd s v (a + 4096 * i) k
    let st := if st ≠ 0 then st else if bad.isSome then 3 else 0
    answer s p { type := 2, vc := 1, dst := f.src, src := s.talko.devId, tag := (f.tag + 16 * i) % 4096, status := st,
                 payload := if st = 0 then bs else List.replicate k 0 }) s

def execRdReq (p : PortId) (s : State) : Host.Outcome State Fault Refusal := doneKeep s (onTarget s p.val 1 (fun s f => serveRead s p.val f))

/-- WR_REQ (R378, R385). -/
def serveWrite (s : State) (p : Nat) (f : Frame) : State :=
  let (st, v, a) := windowStatus s p f f.payload.length
  let s := if st = 0 then writeDpa s v a f.payload else s
  answer s p { type := 4, vc := 1, dst := f.src, src := s.talko.devId, tag := f.tag, status := st }

def execWrReq (p : PortId) (s : State) : Host.Outcome State Fault Refusal := doneKeep s (onTarget s p.val 3 (fun s f => serveWrite s p.val f))

/-- FLUSH is answered with FLUSH_ACK (R378). -/
def execFlush (p : PortId) (s : State) : Host.Outcome State Fault Refusal :=
  doneKeep s (onFrame s p.val 5 (fun s f =>
    answer s p.val { type := 6, vc := 1, dst := f.src, src := s.talko.devId, tag := f.tag }))

/- Answers to the device's own requests (R274, R319, R379). -/

/-- Where the bytes at an offset of a restored sequence's state go: a page of the pool, or the token log (R131, R276). -/
def restoreTo (x : Service) (q : Seq) (off : Nat) : Nat :=
  if off < q.pages.length * x.d.pageBytes then x.d.pagePool + q.pages.getD (off / x.d.pageBytes) 0 * x.d.pageBytes + off % x.d.pageBytes
  else tokLogAt x.d (q.slot.getD 0) 0 + (off - q.pages.length * x.d.pageBytes)

/-- Store one unit that a read brought (R274, R276); the error it ends with, if any. -/
def storeUnit (s : State) (o : LiftOp) (off : Nat) (bs : List Byte) : State × Option ErrRec :=
  match o.owner with
  | .restore k =>
    match (look s.gfe.parks k).bind (parkSeq s) with
    | none => (s, some (farErr o off))
    | some (x, q) =>
      let all := q.pages.length * x.d.pageBytes + (if seqRetains s q then 0 else 4 * q.toks.length)
      match writeVa s x.d.fn x.d.ctx (restoreTo x q off) (bs.take (all - off)) with
      | .ok s => (s, none)
      | .error _ => (s, some (farErr o off))
  | _ =>
    match writeVa s o.fn o.ctx (o.va + off) bs with
    | .ok s => (s, none)
    | .error r => (s, some { walkErr (o.va + off) o.ctx 0 r with source := 3 })

/-- One unit of an RD_DATA frame. -/
def takeUnit (s : State) (p tag status : Nat) (bs : List Byte) : State :=
  let x := s.port p
  match look x.reads tag with
  | none => s
  | some u =>
    let s := s.setPort p { x with reads := del x.reads tag }
    match look s.talko.ops u.op with
    | none => s
    | some o =>
      if status ≠ 0 then partEnds s u.op u.off (some (farErr o u.off))
      else
        let (s, e) := storeUnit s o u.off bs
        partEnds s u.op u.off e

/-- RD_DATA: units that are not outstanding are discarded (R378). -/
def execRdData (p : PortId) (s : State) : Host.Outcome State Fault Refusal :=
  doneKeep s (onFrame s p.val 2 (fun s f =>
    (List.range (f.payload.length / 256)).foldl (fun s i => takeUnit s p.val ((f.tag + i) % 4096) f.status ((f.payload.drop (256 * i)).take 256)) s))

/-- Flushes of a queue that wait for its earlier writes (R384). -/
def releaseFlushes (s : State) : State :=
  ((s.talko.ops.filter (fun o => o.2.op = 3 ∧ o.2.waiting)).map (·.1)).foldl issueFlush s

/-- An outstanding write or flush of a port is answered. -/
def takeAck (s : State) (p tag status : Nat) (flush : Bool) : State :=
  let x := s.port p
  match look x.writes tag with
  | none => s
  | some u =>
    match look s.talko.ops u.op with
    | none => s.setPort p { x with writes := del x.writes tag }
    | some o =>
      if flush ≠ decide (o.op = 3) then s
      else
        releaseFlushes (partEnds (s.setPort p { x with writes := del x.writes tag }) u.op u.off
          (if status = 0 then none else some (farErr o u.off)))

def execWrAck (p : PortId) (s : State) : Host.Outcome State Fault Refusal :=
  doneKeep s (onFrame s p.val 4 (fun s f => takeAck s p.val f.tag f.status false))

def execFlushAck (p : PortId) (s : State) : Host.Outcome State Fault Refusal :=
  doneKeep s (onFrame s p.val 6 (fun s f => takeAck s p.val f.tag f.status true))

/-- LIFT_TIMEOUT: the frame's parts that have no answer end with "far memory timeout" (R274, R384). -/
def execLiftTimeout (p : PortId) (write : Bool) (tag : W32) (s : State) : Host.Outcome State Fault Refusal :=
  let x := s.port p.val
  doneKeep s (settle (if write then
      match look x.writes tag.toNat with
      | none => s
      | some u => match look s.talko.ops u.op with
        | some o => releaseFlushes (partEnds (s.setPort p.val { x with writes := del x.writes tag.toNat }) u.op u.off (some (farErr o u.off)))
        | none => s
    else
      match look x.reads tag.toNat with
      | none => s
      | some u => match look s.talko.ops u.op with
        | some o =>
          let mine := x.reads.filter (fun r => r.2.op = u.op ∧ r.2.off / 65536 = u.off / 65536)
          let s := s.setPort p.val { x with reads := x.reads.filter (fun r => !mine.contains r) }
          mine.foldl (fun s r => partEnds s u.op r.2.off (some (farErr o r.2.off))) s
        | none => s))

/- Lift queues (R273, R274, R384). -/

/-- The first field of a Lift entry that breaks R273: its offset. -/
def liftBad (s : State) (x : LiftQ) (b : List Byte) : Option Nat :=
  let op := fieldAt b 0 1
  let len := fieldAt b 4 4
  let f := fieldAt b 24 4
  firstBad [
    (1, resZero b 1 1), (2, decide (fieldAt b 2 2 ≤ 4095)),
    (4, if op = 3 then decide (len = 0) else decide (256 ≤ len ∧ len ≤ 65536 ∧ len % 256 = 0)),
    (8, decide (fieldAt b 8 8 % 256 = 0)), (16, decide (fieldAt b 16 8 % 256 = 0 ∧ fieldAt b 16 8 < 2 ^ 55)),
    (24, decide (f = 0xFFFFFFFF) || (match s.ctx? x.fn x.ctx with
      | some c => decide (c.fenceFirst ≤ f ∧ f < c.fenceFirst + c.fenceCount)
      | none => false)),
    (28, resZero b 28 4), (32, decide (fieldAt b 32 8 ≠ errValue)), (40, resZero b 40 24)]

/-- Take the head entry of a Lift queue where its OP fits and no entry before it waits for units (R274). -/
def onLift (s : State) (q : Nat) (op : Nat → Bool) (act : State → Nat → LiftOp → State) : State :=
  match s.liftq? q with
  | none => s
  | some x =>
    if shakeWaiting x.sh = 0 ∨ x.sh.st = .error ∨ x.sh.st = .destroying ∨ !ctxLive s x.fn x.ctx
        ∨ s.talko.ops.any (fun o => o.2.owner = .queue q ∧ o.2.op = 1 ∧ o.2.waiting) then s
    else
      match readVa s x.fn x.ctx (x.base + 64 * (x.sh.head % 2 ^ x.log2)) 64 with
      | .ok (b, none) =>
        if !op (fieldAt b 0 1) then s
        else
          let s := s.setLiftq q { x with sh := shakeTake x.sh }
          let fence : Option (Nat × Nat) := if fieldAt b 24 4 = 0xFFFFFFFF then none else some (fieldAt b 24 4, fieldAt b 32 8)
          let o : LiftOp := {
            owner := .queue q, fn := x.fn, ctx := x.ctx, port := x.port, op := fieldAt b 0 1, pool := fieldAt b 2 2, len := fieldAt b 4 4,
            addr := fieldAt b 8 8, va := fieldAt b 16 8, fence := fence }
          match liftBad s x b with
          | some off =>
            match fence with
            | some (f, _) => if off = 24 ∨ f ≥ 65536 then s
              else failFence s x.fn f { cause := 0x0001, source := 3, detail := natLe 2 q ++ natLe 2 off ++ natLe 4 0 }
            | none => s
          | none =>
            let (s, i) := newOp s o
            if (s.port x.port).st ≠ .up ∨ s.portVd x.port ≠ some x.fn then endOp (s.modOp i (fun o => { o with failed := some (farErr o 0) })) i
            else act s i o
      | _ => s

/-- LREAD, and entries whose OP is none of the three, which no check lets through: the entry waits for its units or is
issued (R274, R384). -/
def execLread (q : Fin 1536) (s : State) : Host.Outcome State Fault Refusal :=
  doneKeep s (settle (onLift s q.val (fun op => decide (op ≠ 2 ∧ op ≠ 3)) (fun s i o =>
    if o.op = 1 then issueReads 1 s i
    else
      let s := { s with talko := { s.talko with ops := del s.talko.ops i } }
      match o.fence with
      | some (f, _) => failFence s o.fn f { cause := 0x0001, source := 3, detail := natLe 2 q.val ++ natLe 2 0 ++ natLe 4 0 }
      | none => s)))

/-- LWRITE: the data is read from VA and sent in address order (R384). -/
def execLwrite (q : Fin 1536) (s : State) : Host.Outcome State Fault Refusal :=
  doneKeep s (settle (onLift s q.val (· == 2) (fun s i o =>
    match readVa s o.fn o.ctx o.va o.len with
    | .ok (bs, none) => issueWrites s i o bs
    | .ok (_, some a) => endOp (s.modOp i (fun o => { o with failed := some { memErr s a with source := 3 } })) i
    | .error r => endOp (s.modOp i (fun o => { o with failed := some { walkErr o.va o.ctx 0 r with source := 3 } })) i)))

/-- LFLUSH (R384). -/
def execLflush (q : Fin 1536) (s : State) : Host.Outcome State Fault Refusal :=
  doneKeep s (settle (onLift s q.val (· == 3) (fun s i _ => issueFlush s i)))

/-- LIFT_UNITS_AVAILABLE: reads of the port that wait are issued, oldest first, while their units are free (R274). -/
def execLiftUnitsAvailable (p : PortId) (s : State) : Host.Outcome State Fault Refusal :=
  doneKeep s (((s.talko.ops.filter (fun o => o.2.port = p.val ∧ o.2.op = 1 ∧ o.2.waiting)).map (·.1)).foldl
    (fun s i => issueReads 64 s i) s)

/- Relay across devices (R388–R390). -/

/-- The group that a Relay frame names, among those of the port's VD. -/
def peerGroupOf (s : State) (p : Nat) (f : Frame) : Option (Nat × RelayGroup) :=
  s.net.groups.find? (fun g => g.2.peer ≠ 0 && g.2.peer = f.addr % 2 ^ 32 && g.2.inst = f.addr / 2 ^ 32
    && (match s.launch? g.2.launch with | some l => s.portVd p = some l.vd | none => false))

/-- The values of a segment by its type (R230). -/
def segVals (type : Nat) (bs : List Byte) : List Acc :=
  if type = 0 then (List.range (bs.length / 12)).map (fun i => ex96Acc (fieldAt bs (12 * i) 12))
  else if type = 2 then (List.range (bs.length / 2)).map (fun i => .fp (some (BitVec.ofNat 32 (fieldAt bs (2 * i) 2 * 65536))))
  else (List.range (bs.length / 4)).map (fun i => .fp (some (BitVec.ofNat 32 (fieldAt bs (4 * i) 4))))

def countPeer (s : State) (p : Nat) : State := s.modPort p (fun x => { x with dropPeer := satAdd 16 x.dropPeer 1 })

/-- RELAY_FRAME: a partial of a peer reaches the root's destination; one of an unknown group or instance is discarded
and counted (R389, R393). -/
def execRelayFrame (p : PortId) (s : State) : Host.Outcome State Fault Refusal :=
  doneKeep s (onFrame s p.val 16 (fun s f =>
    match peerGroupOf s p.val f with
    | none => countPeer s p.val
    | some (k, g) =>
      if !g.root ∨ f.aux / 2 ^ 32 % 256 ≠ g.type ∨ decide (f.aux / 2 ^ 40 % 2 = 1) ≠ g.tree then countPeer s p.val
      else
        let seg := f.aux % 2 ^ 32
        let pkt : RelayPkt := {
          group := k, block := seg / 128, seg := seg % 128, count := if g.tree then 1 else f.tag, level := f.aux / 2 ^ 41 % 128
          idx := if g.tree then f.tag else 0, vals := segVals g.type f.payload }
        let g := if g.members.contains (p.val, f.src) then g else { g with members := g.members ++ [(p.val, f.src)] }
        let s := { s with net := { s.net with groups := put s.net.groups k g } }
        let r := groupDest g
        relayForward (setHold s r k (seg / 128) (seg % 128) (holdOf s r k (seg / 128) (seg % 128) ++ [pkt])) r k (seg / 128) (seg % 128) g false))

/-- Every part of a node is done. -/
def nodeAllDone (s : State) (g : RelayGroup) : State :=
  match s.launch? g.launch with
  | none => s
  | some l => (List.range (nodeBlocks (l.nodes.getD g.node {}))).foldl (fun s _ => partDone s g.launch g.node) s

/-- RELAY_DONE completes a non-root member (R389). -/
def execRelayDone (p : PortId) (s : State) : Host.Outcome State Fault Refusal :=
  doneKeep s (onFrame s p.val 17 (fun s f =>
    match peerGroupOf s p.val f with
    | some (_, g) => if g.root then s else nodeAllDone s g
    | none => countPeer s p.val))

/-- "Relay contributor lost" by a peer (R390). -/
def peerLost (k : Nat) : ErrRec := { cause := 0x000E, source := 1, detail := natLe 2 k ++ [0xFF] }

/-- RELAY_ABORT fails a member's launch (R390). -/
def execRelayAbort (p : PortId) (s : State) : Host.Outcome State Fault Refusal :=
  doneKeep s (onFrame s p.val 18 (fun s f =>
    match peerGroupOf s p.val f with
    | some (k, g) => failLaunch s g.launch (peerLost k)
    | none => countPeer s p.val))

/-- PEER_WAIT_EXPIRY: the root aborts the instance and tells the members (R390). -/
def execPeerWaitExpiry (g : W16) (s : State) : Host.Outcome State Fault Refusal :=
  doneKeep s (settle (match look s.net.groups g.toNat with
    | none => s
    | some x =>
      if x.peer = 0 ∨ !x.root then s
      else
        let s := x.members.foldl (fun s m => portSend s m.1
          { type := 0x12, vc := 3, dst := m.2, src := s.talko.devId, addr := x.peer + x.inst * 2 ^ 32 }) s
        failLaunch s x.launch (peerLost g.toNat)))

/-- RELAY_DONE_TIMEOUT: a non-root member fails (R390). -/
def execRelayDoneTimeout (g : W16) (s : State) : Host.Outcome State Fault Refusal :=
  doneKeep s (settle (match look s.net.groups g.toNat with
    | none => s
    | some x => if x.peer = 0 ∨ x.root then s else failLaunch s x.launch (peerLost g.toNat)))

/- Parked state (R275–R278, R386, R387). -/

/-- The fields of a PARK message. -/
structure ParkMsg where
  src : Nat
  result : Nat
  key : Nat
  handle : Nat
  epoch : Nat
  newEpoch : Nat
  other : Nat
  addr : Nat
  bytes : Nat

def parkMsgOf (f : Frame) : ParkMsg :=
  let b := f.payload
  ⟨f.src, fieldAt b 1 1, fieldAt b 8 8, fieldAt b 16 8, fieldAt b 24 4, fieldAt b 28 4, fieldAt b 32 2, fieldAt b 40 8, fieldAt b 48 8⟩

/-- Handle the oldest PARK message of an operation; one that comes by a port of another VD names no record (R381). -/
def onPark (s : State) (p op : Nat) (act : State → ParkMsg → Option ParkRec → State) : State :=
  match popRx s p (fun f => f.type = 32 && fieldAt f.payload 0 1 = op) with
  | none => s
  | some (f, s) =>
    let m := parkMsgOf f
    let r := if s.portVd p = some (m.key % 64) then look s.gfe.parks m.key else none
    settle (act s m r)

/-- The state a pool holds for a sequence: its KV pages, then its token log unless the prompt is retained (R125, R276). -/
def parkData (s : State) (x : Service) (q : Seq) : Option (List Byte) :=
  let pages := q.pages.map (fun k => x.d.pagePool + k * x.d.pageBytes)
  let log := if seqRetains s q then [] else [(tokLogAt x.d (q.slot.getD 0) 0, 4 * q.toks.length)]
  ((pages.map (fun a => (a, x.d.pageBytes)) ++ log).mapM (fun (r : Nat × Nat) =>
    match readVa s x.d.fn x.d.ctx r.1 r.2 with
    | .ok (bs, none) => some bs
    | _ => none)).map List.flatten

/-- PARK_GRANT: the data goes to the space the pool gave, tagged with EPOCH; a refusal ends the parking (R276, R387). -/
def execParkGrant (p : PortId) (s : State) : Host.Outcome State Fault Refusal :=
  doneKeep s (onPark s p.val 2 (fun s m r =>
    match r with
    | none => s
    | some r =>
      if r.st ≠ .parking ∨ r.pool ≠ m.src ∨ r.epoch ≠ m.epoch then s
      else if m.result ≠ 0 then parkAbort s m.key
      else
        let r := { r with handle := m.handle, addr := m.addr }
        let s := { s with gfe := { s.gfe with parks := put s.gfe.parks m.key r } }
        match (parkSeq s r).bind (fun x => (parkData s x.1 x.2).map (fun d => (x, d))) with
        | none => parkAbort s m.key
        | some (x, d) =>
          let d := sliceB d 0 (roundUp d.length 256)
          let o : LiftOp := {
            owner := .park m.key, fn := x.1.d.fn, ctx := x.1.d.ctx, port := r.port, op := 2, pool := r.pool, len := d.length, addr := m.addr
            epoch := r.epoch }
          let (s, i) := newOp s o
          if d = [] then endOp s i
          else if (s.port r.port).st ≠ .up then endOp (s.modOp i (fun o => { o with failed := some (farErr o 0) })) i
          else issueWrites s i o d))

/-- PARK_CLOSE_ACK: the record is PARKED, and the pages, with the slot unless the prompt is retained, are free (R125,
R276). -/
def execParkCloseAck (p : PortId) (s : State) : Host.Outcome State Fault Refusal :=
  doneKeep s (onPark s p.val 4 (fun s m r =>
    match r with
    | none => s
    | some r =>
      if r.st ≠ .parking ∨ r.pool ≠ m.src ∨ r.epoch ≠ m.epoch then s
      else if m.result ≠ 0 then parkAbort s m.key
      else
        let r := { r with st := .parked }
        let s := parkRecord { s with gfe := { s.gfe with parks := put s.gfe.parks m.key r } } (m.key % 64) m.key r 0
        let keep := match parkSeq s r with | some (_, q) => seqRetains s q | none => false
        s.modSeq r.svc r.seq (fun q => { q with pages := [], slot := if keep then q.slot else none })))

/-- PARK_RESTORE_RSP: the state is read back, or it is lost (R276, R278). -/
def execParkRestoreRsp (p : PortId) (s : State) : Host.Outcome State Fault Refusal :=
  doneKeep s (onPark s p.val 6 (fun s m r =>
    match r with
    | none => s
    | some r =>
      if r.st ≠ .restoring ∨ r.pool ≠ m.src then s
      else if m.result ≠ 0 ∨ m.epoch ≠ r.epoch then parkLost s m.key
      else
        match parkSeq s r with
        | none => s
        | some (x, q) =>
          let n := roundUp (q.pages.length * x.d.pageBytes + (if seqRetains s q then 0 else 4 * q.toks.length)) 256
          let (s, i) := newOp s {
            owner := .restore m.key, fn := x.d.fn, ctx := x.d.ctx, port := r.port, op := 1, pool := r.pool, len := n, addr := m.addr, epoch := r.epoch }
          if n = 0 then endOp s i
          else if (s.port r.port).st ≠ .up then endOp (s.modOp i (fun o => { o with failed := some (farErr o 0) })) i
          else issueReads 64 s i))

/-- PARK_RESTORE_TIMEOUT: no answer within LIFT_TIMEOUT, so the state is lost (R278). -/
def execParkRestoreTimeout (key : W64) (s : State) : Host.Outcome State Fault Refusal :=
  doneKeep s (settle (match look s.gfe.parks key.toNat with
    | some r => if r.st = .restoring then parkLost s key.toNat else s
    | none => s))

/-- An offer of a pool the record does not name is refused, and that pool is told to free the state (R278). -/
def refuseOffer (s : State) (p : Nat) (m : ParkMsg) (r : Option ParkRec) : State :=
  let s := sendPark s p m.src 7 4 m.key m.handle m.epoch 0 0 0 0
  match r with
  | some r => parkRecord s (m.key % 64) m.key r 5
  | none => s

/-- PARK_XFER_PROPOSE (R277): from the owning pool of a PARKED state it begins a transfer; while the sequence is in
another state it is refused and the record unchanged (R280). -/
def execParkXferPropose (p : PortId) (s : State) : Host.Outcome State Fault Refusal :=
  doneKeep s (onPark s p.val 8 (fun s m r =>
    match r with
    | none => refuseOffer s p.val m none
    | some r =>
      if r.pool ≠ m.src then refuseOffer s p.val m (some r)
      else if r.st ≠ .parked ∨ r.handle ≠ m.handle then sendPark s r.port m.src 9 4 m.key m.handle r.epoch 0 m.other 0 0
      else
        let old := r.epoch
        let r := { r with st := .transferring, nextPool := m.other, epoch := (old + 1) % 2 ^ 32 }
        let s := s.modSeq r.svc r.seq (fun q => { q with epoch := r.epoch })
        let s := parkRecord { s with gfe := { s.gfe with parks := put s.gfe.parks m.key r } } (m.key % 64) m.key r 0
        sendPark s r.port m.src 9 0 m.key r.handle old r.epoch m.other 0 0))

/-- PARK_XFER_CONFIRM (R277): the record moves to the new pool in one update, and the old pool is told to free, unless
the port to it is down (R391). -/
def execParkXferConfirm (p : PortId) (s : State) : Host.Outcome State Fault Refusal :=
  doneKeep s (onPark s p.val 10 (fun s m r =>
    match r with
    | none => refuseOffer s p.val m none
    | some r =>
      if r.st ≠ .transferring ∨ r.nextPool ≠ m.src ∨ r.epoch ≠ m.newEpoch then refuseOffer s p.val m (some r)
      else
        let new := { r with st := .parked, pool := m.src, handle := m.handle, addr := m.addr, nextPool := 0 }
        let s := parkRecord { s with gfe := { s.gfe with parks := put s.gfe.parks m.key new } } (m.key % 64) m.key new 0
        if (s.port r.port).st = .down then s else sendPark s r.port r.pool 7 0 m.key r.handle ((r.epoch + 2 ^ 32 - 1) % 2 ^ 32) 0 0 0 0))

/-- PARK_CLAIM (R278, R387): OK when the record names the claimed pool; a sequence whose record names neither pool ends
with PARK_OWNER. -/
def execParkClaim (p : PortId) (s : State) : Host.Outcome State Fault Refusal :=
  doneKeep s (onPark s p.val 11 (fun s m r =>
    let refuse (s : State) (port : Nat) : State :=
      sendPark (sendPark s port m.src 12 4 m.key m.handle m.epoch 0 m.other 0 0) port m.src 7 0 m.key m.handle m.epoch 0 0 0 0
    match r with
    | none => refuse s p.val
    | some r =>
      if r.pool = m.src ∨ r.pool = m.other then sendPark s r.port m.src 12 0 m.key r.handle r.epoch 0 m.other 0 0
      else if r.st = .transferring ∧ (r.nextPool = m.src ∨ r.nextPool = m.other) then
        sendPark s r.port m.src 12 4 m.key m.handle m.epoch 0 m.other 0 0
      else
        let s := refuse s r.port
        endSeq (parkRemove s m.key r 4) r.svc r.seq 0x0D 5 [] 0 0))

end Sys2Proof.Machine
end

