-- ==== Sys2Proof/Machine/Power.lean ====
section
/-! DEFINITION. Power windows, rails, operating points, Glide, hints, sensors and the trip (R417–R447). -/

namespace Sys2Proof.Machine

def State.cgPow (s : State) (g : Nat) : CgPow := lookD s.pow.cgs g {}
def State.setCgPow (s : State) (g : Nat) (x : CgPow) : State := { s with pow := { s.pow with cgs := putD s.pow.cgs g x {} } }
def State.modCgPow (s : State) (g : Nat) (f : CgPow → CgPow) : State := s.setCgPow g (f (s.cgPow g))
def State.rail (s : State) (r : Nat) : Rail := lookD s.pow.rails r {}
def State.modRail (s : State) (r : Nat) (f : Rail → Rail) : State :=
  { s with pow := { s.pow with rails := putD s.pow.rails r (f (s.rail r)) {} } }
def State.sensor (s : State) (i : Nat) : Sensor := lookD s.pow.sensors i {}

/-- Alarm bits of PWR_ALARM (R447): 0 CAP_UNMET, 1 RAIL_FAULT, 2 VR_TELEM, 3 VR_VOLT, 4 VR_COMM, 5 SENSOR_BAD,
6 THERM_THROTTLE, 7 REFCLK, 8 HBM_HOT. -/
def raiseAlarm (s : State) (bit : Nat) : State := { s with pow := { s.pow with alarm := s.pow.alarm ||| 2 ^ bit } }

/- Operating points (R417–R420). -/

/-- The listed points in steps of 12.5 MHz with the typical voltage of a CG in mV (R419; DESIGN CHOICE, log 37). -/
def listedPoints : List (Nat × Nat) :=
  [(32, 600), (48, 630), (64, 670), (80, 710), (84, 720), (96, 750), (104, 780), (112, 810), (120, 850)]

/-- The listed point above a step, and the one below. -/
def pointUp (k : Nat) : Nat := ((listedPoints.find? (fun p => k < p.1)).map (·.1)).getD 120
def pointDown (k : Nat) : Nat := ((listedPoints.reverse.find? (fun p => p.1 < k)).map (·.1)).getD 32

/-- The voltage of a step, interpolated between listed points (R419). -/
def pointVolt (k : Nat) : Nat :=
  match listedPoints.reverse.find? (fun p => p.1 ≤ k), listedPoints.find? (fun p => k < p.1) with
  | some (a, u), some (b, v) => u + (v - u) * (k - a) / (b - a)
  | some (_, u), none => u
  | none, _ => 600

/-- Frequency in MHz of a step, rounded down. -/
def stepMhz (k : Nat) : Nat := k * 25 / 2

/-- Whether a CG is powered: bound, and not fenced; CGs in the pool are power-gated (R420). -/
def cgPowered (s : State) (g : Nat) : Bool := s.pow.locked && (s.cgVd g).isSome && !cgBit s.pool.cgFenced g && !s.pow.tripped
/-- Whether a powered CG works; hot spares run at the floor (R420). -/
def cgWorks (s : State) (g : Nat) : Bool := cgPowered s g && (match s.cgVd g with | some v => !(s.vd v).spares.contains g | none => false)
/-- The step a CG's A-clock runs at; 0 when power-gated. -/
def cgStep (s : State) (g : Nat) : Nat := if !cgPowered s g then 0 else if cgWorks s g then (s.cgPow g).step else 32
def cgDie (g : Nat) : Nat := g / 24
/-- Whether a CG is in a Sprint lane of its VD (R263). -/
def cgInLane (s : State) (g : Nat) : Bool := match s.cgVd g with | some v => (s.cgLane v g).isSome | none => false
def dieCgs (d : Nat) : List Nat := (List.range 24).map (24 * d + ·)
def workingCgs (s : State) : List Nat := (List.range 48).filter (cgWorks s)

/-- The issue duty in force at a CG, in sixteenths: the rail's, that of R430, the 8/16 of R441, and 1/16 under THROTTLE_N. -/
def effDuty (s : State) (g : Nat) : Nat :=
  let x := s.cgPow g
  if s.pow.throttleIn then 1 else min (min x.duty x.shed) (if x.therm then 8 else 16)

/-- The setpoints of a die's VDD_A and VDD_S rails (R419); a rail without PMBus keeps its last one (R438). -/
def setRails (s : State) (d : Nat) : State :=
  let gs := (dieCgs d).filter (cgPowered s)
  let v := gs.foldl (fun m g => max m (if cgWorks s g then (s.cgPow g).volt else 600)) 600
  let k := gs.foldl (fun m g => max m (cgStep s g)) 0
  let s := s.modRail d (fun r => if r.comm then { r with setMv := v + 30 } else r)
  s.modRail (2 + d) (fun r => if r.comm then { r with setMv := if k < 80 then 700 else if k ≤ 104 then 750 else 800 } else r)

/-- Start a change of a CG's operating point (R420). -/
def goTo (s : State) (g k : Nat) : State :=
  s.modCgPow g (fun x => { x with goal := if x.step = k then none else some k })

/-- OP_POINT_CHANGE_DONE: the slews end (R420); the change is logged and traced. -/
def opPointDone (s : State) (g : Nat) : State :=
  match (s.cgPow g).goal with
  | none => s
  | some k =>
    if s.pow.ref ≠ .valid then s
    else
      let old := cgStep s g
      let s := s.modCgPow g (fun x => { x with step := k, volt := pointVolt k, goal := none })
      let s := logFreq s g k
      let s := (cgCores g).foldl (fun s c => traceEv s c 0xFF 7 0 (stepMhz k + 2 ^ 16 * stepMhz old) 0) s
      setRails s (cgDie g)

def execOpPointChangeDone (g : CgId) (s : State) : Host.Outcome State Fault Refusal := doneKeep s (opPointDone s g.val)

/- Caps and budgets (R426–R432). -/

def effCap (p : PwrParams) : Nat := min p.opCap p.mgrCap
/-- The level a manager's cap reads as (R31, R427). -/
def levelOf (p : PwrParams) : Nat := if p.mgrCap = 2400 then 0 else if p.mgrCap = 2200 then 1 else if p.mgrCap = 1600 then 2 else 3
/-- The point that a level would give (R31). -/
def levelStep (p : PwrParams) : Nat := if p.mgrCap = 1600 then 84 else 104

def meanOf (xs : List Nat) : Nat := if xs = [] then 0 else xs.sum / xs.length

/-- UNCORE of R432: 260 W, 4 W per bound pair, 5 W per port that is up. -/
def uncore (s : State) : Nat :=
  260 + 4 * ((List.range 64).filter (fun p => (s.pairVd p).isSome)).length
    + 5 * (s.talko.ports.filter (fun p => decide (p.2.st = .up))).length

/-- Whether a table of budgets is accepted under a cap (R432). -/
def budgetsOk (s : State) (b : Map Nat) (cap : Nat) : Bool := decide ((b.map (·.2)).sum + uncore s ≤ cap)

/-- A VD's budget in force: where OPERATOR_CAP has fallen below what the table needs, every budget scales alike (R432). -/
def budgetOf (s : State) (v : Nat) : Nat :=
  let sum := (s.pow.cur.budgets.map (·.2)).sum
  let b := lookD s.pow.cur.budgets v 0
  if sum + uncore s ≤ s.pow.cur.opCap ∨ sum = 0 then b else b * (s.pow.cur.opCap - uncore s) / sum

/- Hints and Glide (R433–R436). -/

/-- The hint that governs a VD now: the latest accepted of its open windows (R436). -/
def govHint (s : State) (v : Nat) : Option Hint := (s.hints.filter (fun h => h.vd = v && h.active)).getLast?

/-- The hint window that applies to a CG: bulk working CGs, and shared ones while the VD holds them (R435). -/
def cgHint (s : State) (g : Nat) : Option Hint :=
  if !cgWorks s g || cgInLane s g then none else (s.cgVd g).bind (govHint s)

/-- Whether every working CG is at the floor of R430. -/
def atFloor (s : State) : Bool := (workingCgs s).all (fun g => (s.cgPow g).step ≤ 32 && (s.cgPow g).goal.isNone)

/-- F of a CG in units of 1/4080 (sixteenths and 255ths meet there), and the hold in µs (R434). -/
def glideRule (s : State) (g : Nat) : Nat × Nat :=
  let p := s.pow.cur
  let x := s.cgPow g
  let ordinary := 255 * (if x.capLimited then min p.glideFrac p.glideLow else p.glideFrac)
  if s.pow.shedding ∧ atFloor s then (0, 0)
  else
    match cgHint s g with
    | some h =>
      if h.phase = 3 then (if x.capLimited then ordinary else max ordinary (16 * h.level), min ((h.stop - h.start) / 800) 1000)
      else if h.phase = 4 then (ordinary, 0)
      else (ordinary, p.glideHold)
    | none => (ordinary, p.glideHold)

/-- Whether an engine may have stopped issuing for a reason of R433: it has no tile, is at a barrier, waits for the partials of
a matrix tile, or waits in the instructions of another tile. -/
def engWaits (s : State) (e : Nat) : Bool :=
  match (s.eng e).run with
  | none => true
  | some r => (s.eng e).atBarrier || !r.tile.matrix || (decide (r.tile.kEnd ≤ r.done) && r.thieves ≠ [])

/-- GLIDE_ENTRY: the CG's current is held at F × I_prior, recorded as the first of its engines enters (R433). -/
def glideEnter (s : State) (e prior : Nat) : State :=
  let g := coreCg (engCore e)
  if !cgPowered s g ∨ !engWaits s e ∨ (s.eng e).glide.isSome then s
  else
    let first := !(cgCores g).any (fun c => (coreEngs c).any (fun i => (s.eng i).glide.isSome))
    let f := (glideRule s g).1
    let s := s.modCgPow g (fun x =>
      let i := if first then prior else x.prior
      { x with prior := i, glide := i * f / 4080, ramp := if first then decide ((glideRule s g).2 = 0) else x.ramp })
    traceEng (s.modEng e (fun x => { x with glide := some (f / 255) })) e 5 0 (1 + 2 ^ 8 * (f / 255)) 0

def execGlideEntry (e : EngId) (prior : Fin 1048576) (s : State) : Host.Outcome State Fault Refusal :=
  doneKeep s (glideEnter s e.val prior.val)

/-- GLIDE_HOLD_EXPIRY: the CG's current begins to fall at GLIDE_SLOPE (R433). -/
def execGlideHoldExpiry (g : CgId) (s : State) : Host.Outcome State Fault Refusal :=
  doneKeep s (if (cgCores g.val).any (fun c => (coreEngs c).any (fun i => (s.eng i).glide.isSome)) then
    s.modCgPow g.val (fun x => { x with ramp := true }) else s)

/-- HINT_PHASE_START: the i-th pending hint of a VD takes effect (R435). -/
def execHintPhaseStart (v : VdId) (i : Fin 4) (s : State) : Host.Outcome State Fault Refusal :=
  doneKeep s (match (s.hints.filter (fun h => h.vd = v.val && !h.active))[i.val]? with
    | some h => startHint s h
    | none => s)

/-- HINT_WINDOW_END: the i-th open window of a VD ends (R435). -/
def execHintWindowEnd (v : VdId) (i : Fin 8) (s : State) : Host.Outcome State Fault Refusal :=
  doneKeep s (match (s.hints.filter (fun h => h.vd = v.val && h.active))[i.val]? with
    | some h => { s with hints := s.hints.erase h }
    | none => s)

/- Rails (R422–R425). -/

/-- IMAX of a rail in A (R422). -/
def railMax (r : Nat) : Nat := [1450, 1450, 300, 300, 320, 150, 110, 160, 35, 6, 12].getD r 0

/-- The tier limits of a rail in A, in hundredths: those of 10 µs and 1 ms fall by a tenth in proxy-only operation (R423,
R440). -/
def tier10 (s : State) (r : Nat) : Nat := railMax r * s.pow.cur.i10.getD r 90 * (if (s.rail r).proxyOnly then 9 else 10) / 10
def tier1ms (s : State) (r : Nat) : Nat := railMax r * s.pow.cur.i1ms.getD r 80 * (if (s.rail r).proxyOnly then 9 else 10) / 10

/-- The gain of a rail in thousandths (R439, R440). -/
def railGain (s : State) (r : Nat) : Nat := if (s.rail r).proxyOnly then 1150 else (s.rail r).gain

/-- The duty a pass asks for at a single CG, in the fixed mode (R432). -/
def ownDuty (t : RailTick) (g : Nat) : Nat := match t.points.find? (fun p => p.1.val = g) with | some p => max 1 p.2.val | none => 16

/-- The duty the rail controller sets for a CG: lanes are throttled only below every other CG at 1/16 (R424). -/
def tickDuty (s : State) (t : RailTick) (g : Nat) : Nat :=
  let d := cgDie g
  let bulk := max 1 (t.bulk.getD d 16).val
  if s.pow.cur.fixed then
    if cgInLane s g && (dieCgs d).any (fun h => cgWorks s h && !cgInLane s h && decide (ownDuty t h ≠ 1)) then 16 else ownDuty t g
  else if cgInLane s g then (if bulk = 1 then max 1 (t.lane.getD d 16).val else 16)
  else bulk

/-- Set a CG's duty and trace the change (R424, R547). -/
def setDuty (s : State) (g d : Nat) : State :=
  let old := (s.cgPow g).duty
  if old = d then s
  else (cgCores g).foldl (fun s c => traceEv s c 0xFF 6 0 (d + 2 ^ 8 * old) 0) (s.modCgPow g (fun x => { x with duty := d }))

/-- RAIL_CONTROL_TICK: proxies are summed and scaled, duties set; 1 µs windows with throttling are counted, and 10 µs windows
that reach their tier are marked (R423, R424). -/
def railTick (s : State) (t : RailTick) : State :=
  let n := s.pow.ticks
  let s := if n % 20 = 0 then [0, 1, 2, 3].foldl (fun s r => s.modRail r (fun x => { x with thrNow := false })) s else s
  let s := (workingCgs s).foldl (fun s g => setDuty s g (tickDuty s t g)) s
  let s : State := { s with pow := { s.pow with cgs := mapVals s.pow.cgs (fun _ (x : CgPow) => { x with thr := x.thr || decide (x.duty < 16) }) } }
  let s := [0, 1, 2, 3].foldl (fun s r =>
    let thr := (dieCgs (r % 2)).any (fun g => cgWorks s g && decide ((s.cgPow g).duty < 16))
    let ma := t.proxies.getD r 0 * railGain s r / 1000
    s.modRail r (fun x =>
      let charge := (if n % 200 = 0 then 0 else x.charge10) + ma
      { x with thrNow := x.thrNow || thr, thrCount := if thr && !x.thrNow then min 1000 (x.thrCount + 1) else x.thrCount
               charge10 := charge, hit10 := x.hit10 || (decide (n % 200 = 199) && decide (tier10 s r * 10 * 200 ≤ charge)) })) s
  { s with pow := { s.pow with ticks := n + 1 } }

def execRailControlTick (t : RailTick) (s : State) : Host.Outcome State Fault Refusal := doneKeep s (railTick s t)

/- The power window (R426–R432, R439, R441). -/

/-- Calibrate the proxies of a VDD_A or VDD_S rail (R439). -/
def calibrate (s : State) (w : WindowReads) (r : Nat) : State :=
  let sum := w.proxies.getD r 0
  if sum = 0 then s
  else
    let raw := w.avs.getD r 0 * 1000 / sum
    let gain := max 850 (min 1150 raw)
    let n := if gain = 850 ∨ gain = 1150 then (s.rail r).clamped + 1 else 0
    let s := s.modRail r (fun x => { x with gain := gain, clamped := n, proxyOnly := x.proxyOnly || decide (10 ≤ n) })
    if 10 ≤ n then raiseAlarm s 2 else s

/-- The rails without throttling: a mean above the 1 ms tier is a fault (R425). -/
def checkRail (s : State) (w : WindowReads) (r : Nat) : State :=
  if tier1ms s r < 100 * w.amps.getD r 0 then report (raiseAlarm s 1) 18 r 64 else s

/-- Whether boost may be granted on a die, from the window that ended (R429); currents in A. -/
def boostOk (s : State) (w : WindowReads) (d : Nat) : Bool :=
  let cap := effCap s.pow.cur
  s.pow.cur.boostEn && decide (w.power.sum + 10 * s.pow.cur.laserAllow ≤ 9 * cap)
    && [d, 2 + d].all (fun r => decide (1000 * w.amps.getD r 0 ≤ 9 * tier1ms s r) && !(s.rail r).hit10)
    && !s.pow.hot.contains d

/-- Shed issue duty while the cap is not met at the floor, hold at 1/16, and raise it again (R430). -/
def shedStep (s : State) : State :=
  let cap := effCap s.pow.cur
  let last := s.pow.board.headD 0
  let mean := meanOf s.pow.board
  let met := decide (last ≤ 11 * cap) && decide (mean ≤ 10 * cap)
  let gs := workingCgs s
  let bulk := gs.filter (fun g => !cgInLane s g)
  let lanes := gs.filter (cgInLane s)
  if !met ∧ atFloor s then
    let bulkLow := bulk.all (fun g => (s.cgPow g).shed ≤ 1)
    let lanesLow := lanes.all (fun g => (s.cgPow g).shed ≤ 1)
    if bulkLow ∧ lanesLow then
      let new := !s.pow.capUnmet
      let s := raiseAlarm { s with pow := { s.pow with capUnmet := true, shedding := true } } 0
      if new then report s 19 0 64 else s
    else
      let s := { s with pow := { s.pow with shedding := true } }
      (if bulkLow then lanes else bulk).foldl (fun s g => s.modCgPow g (fun x => { x with shed := max 1 (x.shed - 1) })) s
  else if s.pow.shedding ∧ mean < 10 * (cap - 40) then
    let s := gs.foldl (fun s g => s.modCgPow g (fun x => { x with shed := min 16 (x.shed + 1) })) s
    { s with pow := { s.pow with capUnmet := false, shedding := !gs.all (fun g => (s.cgPow g).shed = 16) } }
  else { s with pow := { s.pow with capUnmet := s.pow.capUnmet && !met } }

/-- The point that DVFS may give a CG, from the one it asks for: at most one listed point up, none while its rail throttles,
boost only where granted, and down where throttling, heat or a rail's voltage asks for it (R33, R424, R428, R429, R438,
R441). -/
def allowedPoint (s : State) (met : Bool) (boost : Bool) (g want : Nat) : Nat :=
  let d := cgDie g
  let x := s.cgPow g
  let k := x.goal.getD x.step
  let rails := [s.rail d, s.rail (2 + d)]
  let up := met && !rails.any (fun r => r.thrNow) && !rails.any (fun r => decide (125 < r.thrLast)) && !x.therm
  let top := if boost then 120 else 104
  let w := max 32 (min want top)
  let w := if k < w then (if up then min w (pointUp k) else k) else w
  let w := if rails.any (fun r => decide (125 < r.thrLast)) ∧ x.thr then min w (pointDown k) else w
  let w := if x.therm then min w (pointDown k) else w
  if (s.rail d).voltBad then 32 else w

/-- The point a window asks for at a CG: bulk CGs of a die share one in the shared mode; lanes fall only after every bulk CG
is at the floor (R431). -/
def wantedPoint (s : State) (w : WindowReads) (g : Nat) : Nat :=
  let own := ((w.points.find? (fun p => p.1.val = g)).map (fun p => p.2.val)).getD (s.cgPow g).step
  if s.pow.cur.fixed then own
  else if cgInLane s g then
    let bulkFloor := (workingCgs s).all (fun h => cgInLane s h || decide ((s.cgPow h).step ≤ 32))
    if bulkFloor then own else max own (s.cgPow g).step
  else if cgDie g = 0 then w.bulk.1.val else w.bulk.2.val

/-- DVFS at one CG. -/
def dvfs (s0 : State) (w : WindowReads) (s : State) (g : Nat) : State :=
  let cap := effCap s0.pow.cur
  let met := decide (s0.pow.board.headD 0 ≤ 11 * cap) && decide (meanOf s0.pow.board ≤ 10 * cap)
  let k := allowedPoint s0 met (boostOk s0 w (cgDie g)) g (wantedPoint s0 w g)
  let hinted := match cgHint s0 g with | some h => decide (h.phase = 2 ∨ h.phase = 4) | none => false
  let limited := decide (k < levelStep s0.pow.cur) && !hinted && !(s0.cgPow g).therm && !(s0.rail (cgDie g)).voltBad
  goTo (s.modCgPow g (fun x => { x with capLimited := limited })) g k

/-- The figures of a VD over the window that ended (R544). -/
def vdFigures (s : State) (v : Nat) : State :=
  let gs := s.vdWorking v
  if gs = [] then s
  else
    let mhz := gs.map (fun g => stepMhz (cgStep s g))
    let thr := gs.foldl (fun m g => max m (max (s.rail (cgDie g)).thrCount (s.rail (2 + cgDie g)).thrCount)) 0
    let old := lookD s.pow.vds v {}
    { s with pow := { s.pow with vds := put s.pow.vds v { old with
        minMhz := mhz.foldl min 65535, maxMhz := mhz.foldl max 0, throttledUs := thr } } }

/-- Core groups that no longer work are gated, or run at the floor point as spares (R420). -/
def atRest (s : State) : State :=
  let s := (s.pow.cgs.filter (fun p => !cgWorks s p.1 && p.2.step ≠ 32)).foldl (fun s p => logFreq s p.1 32) s
  { s with pow := { s.pow with cgs := (mapVals (s.pow.cgs.filter (fun p => cgPowered s p.1)) (fun g (x : CgPow) =>
      if cgWorks s g then x else { therm := x.therm, prior := x.prior, glide := x.glide, ramp := x.ramp })).filter (fun p => p.2 ≠ {}) } }

/-- POWER_WINDOW_START (R426–R432, R439, R444). -/
def windowStart (s : State) (w : WindowReads) : State :=
  let s := (keys s.cmp.vds).foldl vdFigures s
  let s := (List.range 11).foldl (fun s r => s.modRail r (fun x => { x with
    current := w.amps.getD r 0, power := w.power.getD r 0, thrLast := x.thrCount, thrCount := 0 })) s
  let board := w.power.sum + 10 * s.pow.cur.laserAllow
  let s := { s with pow := { s.pow with window := (s.pow.window + 1) % 2 ^ 32, board := (board :: s.pow.board).take 16 } }
  let s := [0, 1, 2, 3].foldl (fun s r => calibrate s w r) s
  let s := [4, 5, 6, 7, 8, 9, 10].foldl (fun s r => checkRail s w r) s
  let s := { s with pow := { s.pow with cur := s.pow.written } }
  let s := shedStep s
  let s := atRest s
  let s := if s.pow.ref = .valid ∧ !s.pow.tripped then (workingCgs s).foldl (dvfs s w) s else s
  { s with pow := { s.pow with
      hot := []
      cgs := mapVals s.pow.cgs (fun _ (x : CgPow) => { x with thr := false })
      rails := mapVals s.pow.rails (fun _ (x : Rail) => { x with hit10 := false }) } }

def execPowerWindowStart (w : WindowReads) (s : State) : Host.Outcome State Fault Refusal := doneKeep s (windowStart s w)

/- Inputs (R421, R437, R438, R441–R443). -/

/-- REFCLK_ALARM: every PLL holds its setting, and slews stop where they stand (R421, R445). -/
def refAlarm (s : State) (stood : List (Nat × Nat)) : State :=
  if s.pow.ref ≠ .valid then s
  else
    let s := stood.foldl (fun s p =>
      match (s.cgPow p.1).goal with
      | some k =>
        let x := s.cgPow p.1
        let at_ := max (min x.step k) (min (max x.step k) p.2)
        logFreq (s.modCgPow p.1 (fun x => { x with step := at_, volt := pointVolt at_ })) p.1 at_
      | none => s) s
    let s := { s with pow := { s.pow with ref := .alarm, cgs := mapVals s.pow.cgs (fun _ (x : CgPow) => { x with goal := none }) } }
    raiseAlarm s 7

def execRefclkAlarm (stood : List (CgId × OpStep)) (s : State) : Host.Outcome State Fault Refusal :=
  doneKeep s (refAlarm s (stood.map (fun p => (p.1.val, p.2.val))))

/-- Every stack enters self-refresh. -/
def selfRefresh (s : State) : State := (List.range 8).foldl (fun s n => s.modStack n (fun x => { x with selfRefresh := true })) s

/-- REFCLK_HOLD_EXPIRY: engines stop issuing and the stacks refresh themselves until a cold reset (R421). -/
def execRefclkHoldExpiry (s : State) : Host.Outcome State Fault Refusal :=
  doneKeep s (if s.pow.ref = .alarm then report (selfRefresh { s with pow := { s.pow with ref := .lost } }) 15 0 64 else s)

def execRefclkValidAgain (s : State) : Host.Outcome State Fault Refusal :=
  doneKeep s (if s.pow.ref = .alarm then { s with pow := { s.pow with ref := .valid } } else s)

/-- One read of a sensor: a timeout counts as a discard; three in a row mark the sensor bad (R438). -/
def readSensor (s : State) (i : Nat) (x : SensorRead) : State :=
  let o := s.sensor i
  let good : Option Int := match x with
    | .timeout => none
    | .reading t far => if far || decide (t < -400) || decide (1500 < t) then none else some t
  match good with
  | some t => { s with pow := { s.pow with
      sensors := putD s.pow.sensors i { o with temp := t, discards := 0 } {}
      hot := if 1000 ≤ t ∧ !s.pow.hot.contains (i / 64) then s.pow.hot ++ [i / 64] else s.pow.hot } }
  | none =>
    let n := o.discards + 1
    let s := { s with pow := { s.pow with sensors := putD s.pow.sensors i { o with discards := n, bad := o.bad || decide (3 ≤ n) } {} } }
    if n = 3 ∧ !o.bad then raiseAlarm s 5 else s

/-- The sensors of a CG: two at each site (R441). -/
def cgSensors (g : Nat) : List Nat := [64 * cgDie g + 2 * (g % 24), 64 * cgDie g + 2 * (g % 24) + 1]

/-- The highest good sensor of a set, or none. -/
def hottest (s : State) (is : List Nat) : Option Int :=
  is.foldl (fun (m : Option Int) i =>
    let x := s.sensor i
    if x.bad then m else match m with | some t => some (max t x.temp) | none => some x.temp) none

/-- The temperature a CG is treated as having: 105 °C where all its sensors are bad (R438). -/
def cgTemp (s : State) (g : Nat) : Int := (hottest s (cgSensors g)).getD 1050

/-- Throttle a CG at 105 °C, and let it go below 100 °C (R441, R445). -/
def thermCheck (s : State) (g : Nat) : State :=
  let t := cgTemp s g
  let x := s.cgPow g
  if 1050 ≤ t ∧ !x.therm then
    let s := raiseAlarm (s.modCgPow g (fun x => { x with therm := true })) 6
    let s := if 104 < x.goal.getD x.step then goTo s g 104 else s
    report s 20 g ((s.cgVd g).getD 64)
  else if t < 1000 ∧ x.therm then s.modCgPow g (fun x => { x with therm := false })
  else s

/-- SENSOR_SAMPLE: every sensor of both dies, and the stacks' own temperatures (R438, R441). -/
def sensorSample (s : State) (d0 d1 : List SensorRead) (temps : List Int) : State :=
  let rd (s : State) (b : Nat) (xs : List SensorRead) : State :=
    ((xs.take 64).zipIdx).foldl (fun s (p : SensorRead × Nat) => readSensor s (b + p.2) p.1) s
  let s := rd (rd s 0 d0) 64 d1
  let s := ((List.range 48).filter (cgPowered s)).foldl thermCheck s
  let hot := (List.range 8).filter (fun n => decide (950 ≤ temps.getD n 0))
  let s := { s with pow := { s.pow with hbmHot := hot } }
  if hot = [] then s else raiseAlarm s 8

def execSensorSample (d0 d1 : List SensorRead) (temps : List Int) (s : State) : Host.Outcome State Fault Refusal :=
  doneKeep s (sensorSample s d0 d1 temps)

/-- AVS_SAMPLE of a VDD_A or VDD_S rail (R438). -/
def avsSample (s : State) (r : Nat) (x : Option AvsRead) : State :=
  match x with
  | none =>
    let n := (s.rail r).timeouts + 1
    let s := s.modRail r (fun y => { y with timeouts := n, proxyOnly := y.proxyOnly || decide (3 ≤ n) })
    if 3 ≤ n then raiseAlarm s 2 else s
  | some a =>
    let y := s.rail r
    let off := decide (y.setMv + 25 < a.mv) || decide (a.mv + 25 < y.setMv)
    let n := if off then y.off + 1 else 0
    let bad := if off then y.voltBad || decide (3 ≤ n) else false
    let keep := decide (a.ma ≤ 1200 * railMax r)
    let s := s.modRail r (fun y => { y with
      timeouts := 0, off := n, voltBad := bad, readMv := a.mv, avsMa := if keep then a.ma else y.avsMa })
    let s := if 3 ≤ n then raiseAlarm s 3 else s
    if bad ∧ r < 2 then ((dieCgs r).filter (cgWorks s)).foldl (fun s g => goTo s g 32) s else s

def execAvsSample (r : Fin 4) (x : Option AvsRead) (s : State) : Host.Outcome State Fault Refusal :=
  doneKeep s (avsSample s r.val x)

/-- PMBUS_POLL of a VR: none is a failure, a reading outside the VR's range included (R438). -/
def pmbusPoll (s : State) (r : Nat) (x : Option AvsRead) : State :=
  match x with
  | none =>
    let n := (s.rail r).pmbusFails + 1
    let s := s.modRail r (fun y => { y with pmbusFails := n, comm := y.comm && decide (n < 3) })
    if 3 ≤ n then raiseAlarm s 4 else s
  | some a => s.modRail r (fun y => { y with pmbusFails := 0, comm := true, readMv := a.mv })

def execPmbusPoll (r : RailId) (x : Option AvsRead) (s : State) : Host.Outcome State Fault Refusal :=
  doneKeep s (pmbusPoll s r.val x)

/-- THERMAL_TRIP: THERMTRIP_N latches, every A and N clock stops, the stacks refresh themselves (R442). -/
def execThermalTrip (_d : DieId) (_c : Fin 16) (s : State) : Host.Outcome State Fault Refusal :=
  doneKeep s (selfRefresh { s with pow := { s.pow with tripped := true } })

/-- THROTTLE_N goes low: every working CG runs at duty 1/16 (R443). The pin acts where an MPIO has the function (R538). -/
def throttlePin (s : State) (low : Bool) : State :=
  if s.pins.mpio.contains 3 then { s with pow := { s.pow with throttleIn := low } } else s

def execThrottleNAssert (s : State) : Host.Outcome State Fault Refusal := doneKeep s (throttlePin s true)
def execThrottleNDeassert (s : State) : Host.Outcome State Fault Refusal := doneKeep s (throttlePin s false)

/-- Whether PWR_ALERT_N is asserted (R421, R430, R443). -/
def pwrAlert (s : State) : Bool :=
  decide (s.pow.alarm &&& s.pow.cur.alarmMask ≠ 0) || decide (s.pow.ref = .lost) || s.pow.capUnmet

end Sys2Proof.Machine
end

