-- ==== Sys2Proof/Machine/Garnet.lean ====
section
/-! DEFINITION. Checkpoints and batches, Amber regions and push rings, host time, sealed weights, and the life cycle
(R448–R450, R453, R461, R464, R475–R477, R483–R489). -/

namespace Sys2Proof.Machine

/- Statuses of Dunir (R530). -/
def duOk : Nat := 0
def duField : Nat := 1
def duVersion : Nat := 2
def duNotReady : Nat := 3
def duNoObject : Nat := 4
def duAccess : Nat := 5
def duLength : Nat := 6
def duPosture : Nat := 7
def duRange : Nat := 8
def duState : Nat := 9
def duConflict : Nat := 10
def duBusy : Nat := 11
def duInternal : Nat := 12

/-- What a write answers: the state, the status, the byte offset of the first failing field, and the response data. -/
structure DRes where
  st : State
  status : Nat := 0
  detail : Nat := 0
  data : List Byte := []

def dOk (s : State) : DRes := { st := s }
def dErr (s : State) (status detail : Nat) : DRes := { st := s, status := status, detail := detail }

/- Checkpoints (R486–R488). -/

/-- The image set in use. -/
def activeSet (s : State) : ImageSet := s.flash.sets.getD s.boot.active {}

/-- The image of a class in the set in use. -/
def activeImage (s : State) (c : Nat) : Image := ((activeSet s).images.find? (fun i => i.cls = c)).getD { cls := c, version := 0 }

/-- SET_DIGEST: the SHA-384 of the digests of the four running images, class 1 first (R482). -/
def setDigest (s : State) : List Byte := sha384 ([1, 2, 3, 4].flatMap (fun c => sliceB (activeImage s c).digest 0 48))

/-- One level of a hash tree from the one below it (R487). -/
def treeUp : List (List Byte) → List (List Byte)
  | a :: b :: t => sha384 (a ++ b) :: treeUp t
  | _ => []

/-- The levels of a tree from its leaves up, `n` levels above them. -/
def treeLevels : Nat → List (List Byte) → List (List (List Byte))
  | 0, ls => [ls]
  | n + 1, ls => ls :: treeLevels n (treeUp ls)

def zero48 : List Byte := List.replicate 48 0

/-- Chains whose leaves a batch takes: those with a checkpoint ring. -/
def batchVds (s : State) : List (Nat × Chain) := s.chains.filter (fun p => p.2.leaves ≠ [] && decide (0 < p.2.sizeLog2))

/-- The bytes of a checkpoint entry (R488). -/
def entryBytes (leaf : Leaf) (i : Nat) (path stmt e h : List Byte) : List Byte :=
  sliceB leaf.body 0 128 ++ natLe 2 i ++ List.replicate 14 0 ++ sliceB path 0 576 ++ sliceB stmt 0 128 ++ e ++ natLe 4 5236 ++ h
    ++ List.replicate 2008 0

/-- Write the entries of a VD's leaves to its checkpoint ring and record its last signed head (R487). -/
def writeEntries (s : State) (v : Nat) (c : Chain) (levels : List (List (List Byte))) (stmt e h : List Byte) : State :=
  let mine := c.leaves.take 64
  let s := (mine.zipIdx).foldl (fun s l =>
    let i := 64 * v + l.2
    let path := (List.range 12).flatMap (fun k => ((levels.getD k []).getD (Nat.xor (i / 2 ^ k) 1) zero48))
    writeDpa s 0 (c.dpa + 2 ^ c.sizeLog2 + 8192 * (fieldAt l.1.body 16 4 % 64)) (entryBytes l.1 i path stmt e h)) s
  let last : Leaf := mine.getLastD {}
  s.modChain v (fun x => { x with
    leaves := x.leaves.drop 64
    signedNext := if fieldAt last.body 20 4 = x.creation then fieldAt last.body 32 8 + 1 else x.signedNext
    signedHash := if fieldAt last.body 20 4 = x.creation then sliceB last.body 40 48 else x.signedHash })

/-- Close a batch: the tree, the signed statement, the entries and the signed heads (R487). Without a signature the leaves
stay queued (R465, R490). -/
def signBatch (s : State) : Option State :=
  let vs := batchVds s
  if vs = [] then none
  else
    let slot (v : Nat) : List (List Byte) :=
      let ls := ((look vs v).map (fun c => (c.leaves.take 64).map (·.digest))).getD []
      ls ++ List.replicate (64 - ls.length) zero48
    let levels := treeLevels 12 ((List.range 64).flatMap slot)
    let root := (levels.getD 12 []).headD []
    let stmt := natLe 4 0x54534D41 ++ natLe 2 1 ++ natLe 2 0 ++ natLe 8 serial ++ natLe 8 s.flash.batchNo ++ natLe 8 s.s0
      ++ sliceB root 0 48 ++ setDigest s
    match signPair s stmt with
    | none => none
    | some (e, h, s) =>
      let s := vs.foldl (fun s p => writeEntries s p.1 p.2 levels stmt e h) s
      some { s with flash := { s.flash with batchNo := s.flash.batchNo + 1 } }

/-- Batches until no leaf that has a checkpoint ring is queued, by fuel of one batch each. -/
def signAll : Nat → State → State
  | 0, s => s
  | f + 1, s => match signBatch s with | some t => signAll f t | none => s

/-- BATCH_CLOSE: the end of AMBER_SIGN_PERIOD (R487). -/
def execBatchClose (s : State) : Host.Outcome State Fault Refusal := doneKeep s ((signBatch s).getD s)

/-- CLOSE_BATCH, which draws a token of the shared bucket (R487); without one the action cannot begin. -/
def closeBatchNow (s : State) : DRes :=
  if batchVds s = [] then dOk s
  else
    match takeToken s 0 with
    | none => dErr s duBusy 0
    | some t =>
      match signBatch t with
      | some t => dOk t
      | none => dErr s duInternal 0

/- Buckets (R464). -/

/-- TOKEN_REFILL: the shared bucket for 0, else that of VF `v`. -/
def execTokenRefill (v : VdId) (s : State) : Host.Outcome State Fault Refusal :=
  doneKeep s (if v.val = 0 then s.modSec (fun c => { c with shared := min 256 (c.shared + 1) })
    else s.modSec (fun c => { c with tokens := put c.tokens v.val (min 16 (lookD c.tokens v.val 0 + 1)) }))

/-- RNG_HEALTH_FAIL (R453). -/
def execRngHealthFail (s : State) : Host.Outcome State Fault Refusal :=
  doneKeep s (s.modSec (fun c => { c with rngFault := true }))

/- The record ring (R483, R484). -/

/-- Bytes of an Amber region: its record ring and checkpoint ring (R483). -/
def regionBytes (log2 : Nat) : Nat := 2 ^ log2 + 524288

/-- Whether a range lies wholly in VD0's channel pairs (R483, R538). -/
def inVd0 (s : State) (a n : Nat) : Bool :=
  decide (a + n ≤ dpaLimit) && decide (0 < n)
    && ((List.range 64).filter (fun p => decide (p * pairBytes < a + n ∧ a < (p + 1) * pairBytes))).all (fun p => s.pairVd p = some 0)

def overlap (a n b m : Nat) : Bool := decide (a < b + m ∧ b < a + n)

def dumpBytes : Nat := 67108864

/-- Whether a range meets an Amber region, but for the one of VD `v` (64 for none), or a dump region, but for that of die `d`
(R538). -/
def regionClash (s : State) (v d a n : Nat) : Bool :=
  s.chains.any (fun p => p.1 ≠ v && decide (0 < p.2.sizeLog2) && overlap a n p.2.dpa (regionBytes p.2.sizeLog2))
    || (s.dump.region.zipIdx).any (fun p => p.2 ≠ d && p.1 ≠ 0 && overlap a n p.1 dumpBytes)

/-- A record as it stands: in VD0's buffer, or in its slot of the ring. -/
def recordAt (s : State) (v seq : Nat) : List Byte :=
  let c := s.chain v
  if c.sizeLog2 = 0 then (c.buffer.find? (fun b => fieldAt b 0 8 = seq)).getD [] else (readDpaVd s 0 (c.dpa + seq % chainSlots c * 256) 256).1

/-- Copy records to the push ring while it has room, by fuel of one record each (R483). -/
def pushDrain : Nat → State → Nat → State
  | 0, s, _ => s
  | f + 1, s, v =>
    let c := s.chain v
    if c.push.en ∧ c.push.pos < c.seq ∧ c.push.pos - c.push.cons < 2 ^ c.push.log2 then
      pushDrain f (pushCopy s v c.push.pos (recordAt s v c.push.pos)) v
    else s

/-- After space returned: waiting appends proceed, and what they release follows (R484). -/
def amberGo (s : State) (v : Nat) : State := settle (amberDrain 65536 (pushDrain (2 ^ 20) s v) v)

/-- A write of SEC_AMBER_CONS for VD `v` (R484, R492). -/
def writeCons (s : State) (v x : Nat) : State :=
  let c := s.chain v
  if c.cons ≤ x ∧ x ≤ c.seq then amberGo (s.modChain v (fun c => { c with cons := x })) v else s

/-- A write of a row of AMBER_REGION (R483, R484, R538); `zero` says that the rest of the row is 0. -/
def writeRegion (s : State) (v dpa k policy : Nat) (zero : Bool) : DRes :=
  let c := s.chain v
  let n := regionBytes k
  let same : Bool := dpa = c.dpa && k = c.sizeLog2
  let sized : Bool := decide (22 ≤ k ∧ k ≤ 32)
  if dpa % 65536 ≠ 0 ∨ (sized ∧ !inVd0 s dpa n) then dErr s duRange 0
  else if !sized then dErr s duRange 8
  else if 1 < policy then dErr s duRange 9
  else if !zero then dErr s duRange 10
  else
    let held : Bool := if v = 0 then decide (0 < c.sizeLog2) && (c.cons ≠ c.seq || c.leaves ≠ []) else (s.vd v).live
    if !same ∧ held then dErr s duState 0
    else if regionClash s v 2 dpa n then dErr s duConflict 0
    else
      let s := s.modChain v (fun c => { c with drop := decide (policy = 1) })
      if same then dOk (amberGo s v)
      else
        let s := s.modChain v (fun c => { c with dpa := dpa, sizeLog2 := k, tail := if v = 0 ∧ 0 < c.sizeLog2 then c.seq else c.tail })
        if v ≠ 0 ∨ c.sizeLog2 ≠ 0 then dOk (if v = 0 then amberGo s 0 else s)
        else
          -- VD0's first region: the buffered records enter it, then the lost ones are named
          let slots := 2 ^ k / 256
          let s := c.buffer.foldl (fun s b => writeDpa s 0 (dpa + fieldAt b 0 8 % slots * 256) b) s
          let s := s.modChain 0 (fun c => { c with buffer := [], lost := none })
          let s := match c.lost with
            | some (a, b) =>
              (appendRaw s 0 0x000C 0xFFFF (natLe 8 a ++ natLe 8 b ++ natLe 1 3)).modChain 0 (fun c => { c with gaps := satAdd 16 c.gaps 1 })
            | none => s
          dOk (amberGo s 0)

/-- A write of a VD's push row (R483); `zero` says that its reserved word is 0. -/
def writePush (s : State) (v base log2 en vector cons : Nat) (zero : Bool) : DRes :=
  let c := s.chain v
  if log2 < 6 ∨ 20 < log2 then dErr s duRange 8
  else if 1 < en then dErr s duRange 9
  else if 63 < vector then dErr s duRange 10
  else if !zero then dErr s duRange 12
  else
    let on : Bool := en = 1
    let start := if on ∧ !c.push.en then c.seq else c.push.pos
    if on ∧ (start < cons ∨ (c.push.en ∧ cons < c.push.cons)) then dErr s duRange 16
    else
      let k := if on ∧ !c.push.en then start else cons
      let p : PushRing := { en := on, base := base, log2 := log2, vector := vector, pos := start, cons := k }
      dOk (amberGo (s.modChain v (fun c => { c with push := p })) v)

/- Host time (R489). -/

def hostcorT1 (s : State) (v t1 clock : Nat) : DRes :=
  { st := s.modChain v (fun c => { c with hostcor := some (t1, s.s0, clock) }), data := natLe 8 s.s0 }

def hostcorT2 (s : State) (v t2 : Nat) : DRes :=
  match (s.chain v).hostcor with
  | none => dErr s duState 0
  | some (t1, s0, clock) =>
    let s := s.modChain v (fun c => { c with hostcor := none })
    dOk (amberAppend s v 0x000B 0xFFFF (natLe 8 t1 ++ natLe 8 t2 ++ natLe 8 s0 ++ natLe 4 clock) .none)

/-- HOSTCOR_TIMEOUT: T2 did not come, and no record is made (R489). -/
def execHostcorTimeout (v : VdId) (s : State) : Host.Outcome State Fault Refusal :=
  doneKeep s (s.modChain v.val (fun c => { c with hostcor := none }))

/- Sealed weights (R475–R477). -/

/-- KEY_BLOB: `mk` is what the unwrapping gives where the blob's point and tag are good (R475). -/
def keyBlob (s : State) (v : Nat) (blob : List Byte) (good : Bool) (mk : Option (List Byte)) : DRes :=
  let x := s.vd v
  if fieldAt blob 0 4 ≠ 0x4B574B50 then dErr s duRange 0
  else if fieldAt blob 4 2 ≠ 1 then dErr s duRange 4
  else if fieldAt blob 6 2 ≠ 0 then dErr s duRange 6
  else if !allZero (sliceB blob 121 7) then dErr s duRange 121
  else if !allZero (sliceB blob 176 16) then dErr s duRange 176
  else if !x.posSealed ∨ x.posture.isSome then dErr s duState 0xFFFF
  else
    match importSlot s v with
    | none => dErr s duInternal 0xFFFF
    | some p =>
      let (s, ok) := useSlotKey s p.1 good
      if !ok ∨ s.sec.tableFault then dErr s duInternal 0xFFFF
      else
        match mk with
        | none => dErr s duRange 24
        | some k =>
          let hs := (modelSlots s v).map (·.2.handle)
          match (List.range 8).find? (fun h => !hs.contains h), freePool s with
          | some h, some n =>
            { st := setSlot s n { key := sliceB k 0 32, bits := 256, type := 3, owner := v, policy := 0x0420, keyGen := x.keyGen,
                                  model := sliceB blob 8 16, handle := h }, data := natLe 1 h }
          | _, _ => dErr s duBusy 0xFFFF

def modelKey (s : State) (v h : Nat) : Option (Nat × KeySlot) := (modelSlots s v).find? (fun p => p.2.handle = h)

/-- The fields of a package header: CHUNK_LOG2 and PLAIN_LEN (R476). -/
def pkgLog2 (h : List Byte) : Nat := fieldAt h 6 1
def pkgLen (h : List Byte) : Nat := fieldAt h 24 8
def pkgChunks (h : List Byte) : Nat := ceilDiv (pkgLen h) (2 ^ pkgLog2 h)
def pkgBytes (h : List Byte) : Nat := 64 + pkgLen h + 16 * pkgChunks h

def pkgOk (h : List Byte) : Bool :=
  decide (fieldAt h 0 4 = 0x4C534B50 ∧ fieldAt h 4 2 = 1 ∧ 12 ≤ pkgLog2 h ∧ pkgLog2 h ≤ 16 ∧ fieldAt h 7 1 = 0 ∧ 1 ≤ pkgLen h ∧ pkgLen h ≤ 2 ^ 40)
    && allZero (sliceB h 36 28)

/-- A range of a context that is device memory, or nothing where a walk fails. -/
def vdRange (s : State) (v ctx : Nat) (write : Bool) (va n : Nat) : Option (List (Bool × Nat × Nat)) :=
  match rangeOf s v ctx write va n with
  | .ok ps => if allDev ps then some ps else none
  | .error _ => none

def endUnseal (s : State) (v st : Nat) : State := s.modSec (fun c => { c with unseals := adjust c.unseals v (fun u => { u with st := st }) })

/-- UNSEAL_START (R477): the request's own fields first; a failed walk, or a package that is no package, ends the unseal. -/
def unsealStart (s : State) (v ctx h src dst : Nat) (good : Bool) : DRes :=
  if 4095 < ctx then dErr s duRange 0
  else if 7 < h then dErr s duRange 2
  else if src % 64 ≠ 0 then dErr s duRange 8
  else if dst % 65536 ≠ 0 then dErr s duRange 16
  else if ((look s.sec.unseals v).map (·.st)).getD 0 = 1 ∨ (s.vd v).posture.isSome then dErr s duState 0xFFFF
  else
    match s.ctx? v ctx, modelKey s v h with
    | some x, some key =>
      if x.st ≠ .live then dErr s duState 0
      else
        let (s, ok) := useSlotKey s key.1 good
        let u : Unseal := { st := 1, ctx := ctx, handle := h, src := src, dst := dst }
        let s0 := s
        let s := s.modSec (fun c => { c with unseals := put c.unseals v u })
        if !ok ∨ s.sec.tableFault then dOk (endUnseal s v 3)
        else
          match vdRange s v ctx false src 64 with
          | none => dOk (endUnseal s v 3)
          | some ps =>
            let hd := (readPieces s v ps).1
            if !pkgOk hd ∨ sliceB hd 8 16 ≠ key.2.model then dOk (endUnseal s v 3)
            else if overlap src (pkgBytes hd) dst (pkgLen hd) then
              dErr s0 duRange 16
            else if (vdRange s v ctx false src (pkgBytes hd)).isNone ∨ (vdRange s v ctx true dst (pkgLen hd)).isNone then
              dOk (endUnseal s v 3)
            else dOk s
    | none, _ => dErr s duState 0
    | _, none => dErr s duState 2

/-- The plaintext of the first `n` chunks of a package. -/
def plainOf (key hd body : List Byte) (n : Nat) : List Byte :=
  (List.range n).flatMap (fun i =>
    let z := 2 ^ pkgLog2 hd
    let m := min z (pkgLen hd - i * z)
    sliceB (Config.gcmPlain key hd i (sliceB body (i * (z + 16)) (m + 16))) 0 m)

/-- UNSEAL_COMPLETE: `bad` names the chunk whose tag fails, if one does. The plaintext stands at DST and a LOAD record is
appended, or DST bytes written are zeroed and a failing record is appended (R477). -/
def unsealEnd (s : State) (v : Nat) (bad : Option Nat) : State :=
  match look s.sec.unseals v with
  | none => s
  | some u =>
    if u.st ≠ 1 then s
    else
      match modelKey s v u.handle, vdRange s v u.ctx false u.src 64 with
      | some key, some ps =>
        let hd := (readPieces s v ps).1
        match vdRange s v u.ctx false u.src (pkgBytes hd), vdRange s v u.ctx true u.dst (pkgLen hd) with
        | some sp, some dp =>
          let body := ((readPieces s v sp).1).drop 64
          match bad with
          | none =>
            let plain := plainOf key.2.key hd body (pkgChunks hd)
            let s := writePieces s v dp plain
            settle (loadRecord s v u.ctx 4 0 0 u.handle u.dst (pkgLen hd) key.2.model (sha384 plain) (.unsealDone v))
          | some i =>
            if pkgChunks hd ≤ i then s
            else
              let s := writePieces s v dp (List.replicate (min (pkgLen hd) (i * 2 ^ pkgLog2 hd)) 0)
              settle (endUnseal (loadRecord s v u.ctx 4 1 0 u.handle i (pkgLen hd) key.2.model zero48 .none) v 3)
        | _, _ => endUnseal s v 3
      | _, _ => endUnseal s v 3

def execUnsealComplete (v : VdId) (bad : Option W32) (s : State) : Host.Outcome State Fault Refusal :=
  doneKeep s (unsealEnd s v.val (bad.map (·.toNat)))

/- The life cycle and images (R449, R450, R461). -/

/-- Who asks for a transition (R449). -/
inductive LcAsk where
  | operator | vendor
deriving DecidableEq, Repr

/-- Whether R449 has a transition; RETURN to FIELD at most 3 times. -/
def lcAllowed (s : State) (who : LcAsk) (b : Nat) : Bool :=
  match s.otp.lc, b, who with
  | 1, 2, .vendor => true
  | 2, 3, .operator | 2, 4, .operator | 3, 4, .operator => true
  | 4, 2, .vendor => decide (s.otp.refurb < 3)
  | a, 5, .operator => decide (a ≠ 5)
  | _, _, _ => false

/-- Steps 1 to 3 of a transition (R450); `auth` are the bytes of the authorisation. -/
def lcTransit (s : State) (b : Nat) (auth : List Byte) : State :=
  let a := s.otp.lc
  let s := amberAppend s 0 0x000D 0xFFFF (natLe 1 a ++ natLe 1 b ++ List.replicate 6 0 ++ sha384 auth) .none
  let s := (keys s.chains).foldl (fun s v => formLeaf s v 0) s
  let s := signAll 4096 s
  let s := { s with
    otp := { s.otp with
      lc := b
      transitions := s.otp.transitions + 1
      refurb := if a = 4 ∧ b = 2 then s.otp.refurb + 1 else s.otp.refurb }
    flash := { s.flash with hssRes := 32768 } }
  (dropKeys s (fun _ x => x.policy.testBit 14)).modChain 0 (fun c => { c with opened := false })

/-- Raise the OTP counters to the running images (R461). -/
def raiseSvn (s : State) : State :=
  { s with otp := { s.otp with svn := s.otp.svn.mapIdx (fun i n => max n (activeImage s (i + 1)).svn) } }

/-- Burn the revocation bit of an image key; the last one is kept (R461). -/
def revokeKey (s : State) (k : Nat) : DRes :=
  let r := if s.otp.revoked.contains k then s.otp.revoked else s.otp.revoked ++ [k]
  if (List.range 4).all (r.contains ·) then dErr s duState 0xFFFF
  else dOk { s with otp := { s.otp with revoked := r } }

end Sys2Proof.Machine
end

