-- ==== Sys2Proof/Machine/Spdm.lean ====
section
/-! DEFINITION. SPDM and measurements (R464, R466–R470). -/

namespace Sys2Proof.Machine

/- Measurement blocks (R469, R470). -/

/-- One block: index, specification, sizes, type and value (R469). -/
def measBlock (i t : Nat) (v : List Byte) : List Byte :=
  natLe 1 i ++ natLe 1 1 ++ natLe 2 (v.length + 3) ++ natLe 1 t ++ natLe 2 v.length ++ v

/-- The grade, the stepping and the enabled CG sites as fused. -/
def gradeNo : Nat := 184
def stepping : Nat := 0x00B1
def cgFused : Nat := maskOf ((List.range 48).filter (fun g => decide (g ≠ 23 ∧ g ≠ 47)))

/-- Whether debug is locked (R448). -/
def debugLocked (s : State) : Bool := decide (s.otp.lc = 2 ∨ s.otp.lc = 5)

/-- Versions of R537 in table order. -/
def ifVersions : List Nat := [0x0203, 0x0101, 0x0101, 0x0103, 0x0103, 0x0103, 0x0100]

/-- The holdings of a VD as index 9 lists them (R470). -/
def measVd (s : State) (v : Nat) : List Byte :=
  let x := s.vd v
  natLe 1 v ++ natLe 1 (b2n x.posSealed) ++ natLe 1 x.cls ++ natLe 1 x.spares.length ++ natLe 4 x.gen ++ natLe 8 (maskOf (s.vdCgs v))
    ++ natLe 8 (maskOf (s.vdPairs v)) ++ natLe 4 (maskOf (s.vdPorts v)) ++ natLe 4 0

/-- Whether an entry of the load list names the current generation of a live routine or a live program (R470). -/
def loadLive (s : State) (e : List Byte) : Bool :=
  let h := fieldAt e 4 4
  match fieldAt e 0 1 with
  | 2 => match (look s.gfe.routines h).bind (·.cur) with | some g => decide (g.gen = fieldAt e 2 2) | none => false
  | 3 => has s.gfe.programs h
  | _ => false

/-- The load list of a VD: live routines and programs, then the most recent weight loads, up to 256 (R470). -/
def loadList (s : State) (v : Nat) : List Byte :=
  let c := s.chain v
  let live := (c.loads.filter (loadLive s)).take 256
  let weights := c.loads.filter (fun e => decide (fieldAt e 0 1 = 1 ∨ fieldAt e 0 1 = 4))
  let room := 256 - live.length
  let es := live ++ weights.drop (weights.length - room)
  natLe 2 es.length ++ natLe 1 (b2n (decide (room < weights.length))) ++ List.replicate 13 0 ++ sliceB c.loadChain 0 48
    ++ es.flatMap (fun e => sliceB e 0 64)

/-- The value of an index with its type, for VDs that the requester sees (R470). -/
def measValue (s : State) (vis : List Nat) (i : Nat) : Option (Nat × List Byte) :=
  if i = 1 then some (0x00, sliceB Config.romDigest 0 48)
  else if 2 ≤ i ∧ i ≤ 5 then some (0x01, sliceB (activeImage s (i - 1)).digest 0 48)
  else if i = 6 then
    some (0x86, [1, 2, 3, 4].flatMap (fun c => natLe 4 (activeImage s c).version ++ natLe 2 (activeImage s c).svn)
      ++ s.otp.svn.flatMap (natLe 8) ++ natLe 2 0x0203 ++ natLe 2 0x0101 ++ natLe 2 0x0101)
  else if i = 7 then
    some (0x85, natLe 1 s.otp.lc ++ natLe 1 (b2n (debugLocked s)) ++ natLe 2 s.otp.transitions ++ natLe 1 s.otp.refurb
      ++ natLe 1 (maskOf s.otp.revoked))
  else if i = 8 then some (0x82, natLe 2 gradeNo ++ natLe 2 stepping ++ natLe 8 serial ++ natLe 8 cgFused)
  else if i = 9 then (if vis = [] then none else some (0x83, vis.flatMap (measVd s)))
  else if 0x20 ≤ i ∧ i < 0x60 ∧ vis.contains (i - 0x20) then
    let v := i - 0x20
    some (0x83, natLe 1 v ++ natLe 1 (b2n (s.vd v).posSealed) ++ natLe 2 (s.vd v).keyGen ++ natLe 4 0 ++ natLe 8 (s.chain v).seq
      ++ sliceB (s.chain v).head 0 48 ++ sliceB (s.chain v).loadChain 0 48 ++ importPub s v)
  else if 0x60 ≤ i ∧ i < 0xA0 ∧ vis.contains (i - 0x60) then some (0x84, loadList s (i - 0x60))
  else none

/-- The VDs whose indices a requester sees (R248, R468). -/
def visibleVds (s : State) : SpdmEnd → List Nat
  | .fn f => if f.val = 0 then (List.range 64).filter (fun v => (s.vd v).live) else if (s.vd f.val).live then [f.val] else []
  | .c1 => []
  | .mctp _ => (List.range 64).filter (fun v => (s.vd v).live)

/-- The block of an index, if the requester gets one. -/
def measOne (s : State) (w : SpdmEnd) (i : Nat) : List (List Byte) :=
  match measValue s (visibleVds s w) i with
  | some (t, v) => [measBlock i t v]
  | none => []

def askIndices : MeasAsk → List Nat
  | .one i => [i.toNat]
  | .all => List.range 0xA0

/- Connections. -/

def spdmConn (s : State) (w : SpdmEnd) : SpdmConn := ((s.sec.conns.find? (fun p => p.1 = w)).map (·.2)).getD {}

def setConn (s : State) (w : SpdmEnd) (c : SpdmConn) : State :=
  s.modSec (fun x => { x with conns := x.conns.filter (fun p => p.1 ≠ w) ++ [(w, c)] })

def spdmSay (s : State) (w : SpdmEnd) (r : SpdmRsp) : State := s.modSec (fun x => { x with spdmOut := some (w, r) })

/-- The bucket that a requester's signatures draw on: its VF's, or the shared one (R464). -/
def spdmBucket : SpdmEnd → Nat
  | .fn f => f.val
  | .c1 | .mctp _ => 0

/-- Serve a request once the device answers SPDM there: the function is reachable, and the life-cycle state gives an identity
(R448, R466, R467). -/
def spdmServe (s : State) (w : SpdmEnd) (k : State → SpdmConn → State) : State :=
  let here : Bool := match w with | .fn f => f.val = 0 || vfOn s f.val | .c1 => s.pcie.split | .mctp _ => true
  if s.boot.ready ∧ here ∧ s.otp.lc ≠ 0 ∧ s.otp.lc ≠ 5 then k s (spdmConn s w) else s

/-- A request that needs negotiation to have ended. -/
def spdmAfter (s : State) (w : SpdmEnd) (stage : Nat) (k : State → SpdmConn → State) : State :=
  spdmServe s w (fun s c => if c.stage < stage then spdmSay s w (.error .unexpected) else k s c)

/-- A signed response: a token and a signature, or Busy without a token and an error without a signature (R464, R465). -/
def spdmSigned (s : State) (w : SpdmEnd) (msg : List Byte) (k : State → List Byte × List Byte → State) : State :=
  match takeToken s (spdmBucket w) with
  | none => spdmSay s w (.error .busy)
  | some t =>
    match signPair t msg with
    | none => spdmSay s w (.error .unspecified)
    | some (e, h, t) => k t (e, h)

/- The messages. -/

/-- GET_VERSION starts a connection anew (R467). -/
def execSpdmGetVersion (w : SpdmEnd) (s : State) : Host.Outcome State Fault Refusal :=
  doneKeep s (spdmServe s w (fun s _ => spdmSay (setConn s w { stage := 1 }) w (.version [0x12, 0x13])))

/-- GET_CAPABILITIES in SPDM 1.2 or 1.3. -/
def execSpdmGetCapabilities (w : SpdmEnd) (minor : Fin 16) (s : State) : Host.Outcome State Fault Refusal :=
  doneKeep s (spdmAfter s w 1 (fun s c =>
    if minor.val = 2 ∨ minor.val = 3 then spdmSay (setConn s w { c with stage := 2, minor := minor.val }) w .capabilities
    else spdmSay s w (.error .invalid)))

/-- NEGOTIATE_ALGORITHMS: `suite` says that the requester offers ECDSA P-384, SHA-384, secp384r1 and AES-256-GCM, the only
ones negotiated (R467). -/
def execSpdmNegotiateAlgorithms (w : SpdmEnd) (suite : Bool) (s : State) : Host.Outcome State Fault Refusal :=
  doneKeep s (spdmAfter s w 2 (fun s c =>
    if suite then spdmSay (setConn s w { c with stage := 3 }) w .algorithms else spdmSay s w (.error .invalid)))

/-- GET_DIGESTS of slots 0 and 1 (R466). -/
def execSpdmGetDigests (w : SpdmEnd) (s : State) : Host.Outcome State Fault Refusal :=
  doneKeep s (spdmAfter s w 3 (fun s _ =>
    spdmSay s w (.digests [sha384 (Config.certChain 0 s.otp.lc), sha384 (Config.certChain 1 s.otp.lc)])))

/-- GET_CERTIFICATE of slot 0 or 1: a portion and what is left after it (R466). -/
def execSpdmGetCertificate (w : SpdmEnd) (slot : Fin 8) (off len : W16) (s : State) : Host.Outcome State Fault Refusal :=
  doneKeep s (spdmAfter s w 3 (fun s _ =>
    if 1 < slot.val then spdmSay s w (.error .invalid)
    else
      let c := Config.certChain slot.val s.otp.lc
      if c.length < off.toNat then spdmSay s w (.error .invalid)
      else spdmSay s w (.certificate ((c.drop off.toNat).take len.toNat) (c.length - (off.toNat + len.toNat)))))

/-- CHALLENGE, signed with both algorithms over the requester's nonce and the base measurements (R462, R467). -/
def execSpdmChallenge (w : SpdmEnd) (slot : Fin 8) (nonce : List Byte) (s : State) : Host.Outcome State Fault Refusal :=
  doneKeep s (spdmAfter s w 3 (fun s _ =>
    if 1 < slot.val then spdmSay s w (.error .invalid)
    else spdmSigned s w (nonce ++ (List.range 9).flatMap (fun i => (measOne s w (i + 1)).flatten))
      (fun s sig => spdmSay s w (.challengeAuth slot.val sig))))

/-- GET_MEASUREMENTS (R468–R470): a signed request for index 0x20 + n of a VD whose posture changes is answered Busy (R472). -/
def execSpdmGetMeasurements (w : SpdmEnd) (ask : MeasAsk) (signed : Bool) (nonce : List Byte) (s : State) :
    Host.Outcome State Fault Refusal :=
  doneKeep s (spdmAfter s w 3 (fun s _ =>
    let is := askIndices ask
    let blocks := is.flatMap (measOne s w)
    let changing : Bool := (visibleVds s w).any (fun v => is.contains (0x20 + v) && (s.vd v).posture.isSome)
    if !signed then spdmSay s w (.measurements blocks none)
    else if changing then spdmSay s w (.error .busy)
    else spdmSigned s w (nonce ++ blocks.flatten) (fun s sig => spdmSay s w (.measurements blocks (some sig)))))

/-- KEY_EXCHANGE opens a session; a function holds at most 8 (R453, R467). -/
def execSpdmKeyExchange (w : SpdmEnd) (nonce : List Byte) (s : State) : Host.Outcome State Fault Refusal :=
  doneKeep s (spdmAfter s w 3 (fun s c =>
    match lowestFree c.sessions 0 8 with
    | none => spdmSay s w (.error .sessionLimit)
    | some n =>
      if !canKey s then spdmSay s w (.error .unspecified)
      else spdmSigned s w nonce (fun s sig =>
        spdmSay (setConn s w { c with sessions := put c.sessions n (false, 0) }) w (.keyExchange n sig))))

/-- FINISH: `good` says that the requester's MAC verifies; else the session ends. -/
def execSpdmFinish (w : SpdmEnd) (session : Fin 8) (good : Bool) (s : State) : Host.Outcome State Fault Refusal :=
  doneKeep s (spdmAfter s w 3 (fun s c =>
    match look c.sessions session.val with
    | some (false, g) =>
      if good then spdmSay (setConn s w { c with sessions := put c.sessions session.val (true, g) }) w (.finish session.val)
      else spdmSay (setConn s w { c with sessions := del c.sessions session.val }) w (.error .unspecified)
    | _ => spdmSay s w (.error .unexpected)))

/-- A request within an established session. -/
def spdmInSession (s : State) (w : SpdmEnd) (n : Nat) (k : State → SpdmConn → Nat → State) : State :=
  spdmAfter s w 3 (fun s c =>
    match look c.sessions n with
    | some (true, g) => k s c g
    | _ => spdmSay s w (.error .unexpected))

/-- KEY_UPDATE: it needs no signature (R375, R490). -/
def execSpdmKeyUpdate (w : SpdmEnd) (session : Fin 8) (s : State) : Host.Outcome State Fault Refusal :=
  doneKeep s (spdmInSession s w session.val (fun s c g =>
    spdmSay (setConn s w { c with sessions := put c.sessions session.val (true, g + 1) }) w (.keyUpdateAck session.val)))

def execSpdmHeartbeat (w : SpdmEnd) (session : Fin 8) (s : State) : Host.Outcome State Fault Refusal :=
  doneKeep s (spdmInSession s w session.val (fun s _ _ => spdmSay s w (.heartbeatAck session.val)))

def execSpdmEndSession (w : SpdmEnd) (session : Fin 8) (s : State) : Host.Outcome State Fault Refusal :=
  doneKeep s (spdmInSession s w session.val (fun s c _ =>
    spdmSay (setConn s w { c with sessions := del c.sessions session.val }) w (.endSessionAck session.val)))

/-- CHUNK_SEND gathers a large message; CHUNK_GET asks for the next chunk of a large response (R467). -/
def execSpdmChunk (w : SpdmEnd) (k : SpdmChunk) (s : State) : Host.Outcome State Fault Refusal :=
  doneKeep s (spdmAfter s w 2 (fun s c =>
    match k with
    | .send last bytes =>
      spdmSay (setConn s w { c with large := if last then [] else c.large ++ bytes, chunks := if last then 0 else c.chunks + 1 }) w
        (.chunkSendAck c.chunks)
    | .get => spdmSay (setConn s w { c with chunks := c.chunks + 1 }) w (.chunkResponse c.chunks)))

end Sys2Proof.Machine
end

