-- ==== Sys2Proof/Machine/Vdlife.lean ====
section
/-! DEFINITION. Creation and teardown of virtual devices, postures, zero-fills and tag sweeps (R85, R162, R163, R246–R248, R471,
R472, R479). -/

namespace Sys2Proof.Machine

/- Chains (R479, R481, R482). -/

/-- The PREV of a chain's GENESIS record (R481). -/
def genesisPrev (v creation : Nat) : List Byte :=
  sha384 ([0x61, 0x6D, 0x62, 0x65, 0x72, 0x20, 0x67, 0x65, 0x6E, 0x65, 0x73, 0x69, 0x73] ++ natLe 8 serial ++ natLe 1 v ++ natLe 4 creation)

/-- Open a VD's chain: the next CREATION count and a GENESIS record; its region, and leaves of the chain before it, stay. -/
def openChain (s : State) (v : Nat) : State :=
  let c := s.chain v
  let n := (c.creation + 1) % 2 ^ 32
  let h := genesisPrev v n
  let k : Chain := {
    opened := true, head := h, creation := n, dpa := c.dpa, sizeLog2 := c.sizeLog2, drop := c.drop, leaves := c.leaves,
    ckptNo := c.ckptNo, signedHash := h, reserved := 2 ^ 20 }
  let s := s.setChain v k
  amberAppend s v 0x0001 0xFFFF
    (natLe 8 serial ++ natLe 4 n ++ natLe 1 (b2n (s.vd v).posSealed) ++ natLe 1 s.otp.lc ++ [0, 0] ++ setDigest s) .none

/- Creation (R246, R252). -/

/-- Whether a posture is allowed in the life-cycle state (R448, R458). -/
def postureOk (s : State) (secret : Bool) : Bool :=
  if secret then decide (s.otp.lc = 2) else decide (1 ≤ s.otp.lc ∧ s.otp.lc ≤ 4)

/-- The creation proper: tag, key set, posture, meter and chain; the pool of key slots or the tags may be used up. -/
def createVdNow (s : State) (v : Nat) (secret : Bool) : Option State :=
  match issueTag s v with
  | none => none
  | some t =>
    let old := s.vd v
    let t := t.modVd v (fun x => { x with
      live := true, posSealed := secret, req := none, lastStatus := 0, gen := (old.gen + 1) % 2 ^ 32,
      meter := { s0Begin := s.s0, compGen := (old.gen + 1) % 2 ^ 32 } })
    (genKeys (newKeys t v) v secret).map (fun t => settle (notice (openChain t v) v 1))

/-- CREATE_VD (R246, R252, R453, R483). With no tag free it waits for the sweep (R85). -/
def createVdReq (s : State) (v : Nat) (secret : Bool) : State × Nat :=
  if v = 0 ∨ 63 < v then (s, coField)
  else if !vfOn s v then (s, coNoFunction)
  else if (s.vd v).live ∨ !postureOk s secret then (s, coBadState)
  else if (s.chain v).sizeLog2 = 0 ∨ (secret ∧ (freePool s).isNone) then (s, coNoResource)
  else if !canKey s then (s, coFault)
  else
    match createVdNow s v secret with
    | some t => (t, coOk)
    | none =>
      let s := s.modVd v (fun x => { x with live := true, req := some { op := 3, sealed := secret } })
      ({ s with cmp := { s.cmp with tagWaiters := s.cmp.tagWaiters ++ [(v, secret, false)] } }, coOk)

/- Teardown (R247 t2–t5). -/

/-- A VD leaves the groups of shared slices; one that it held goes to the next member, or back to CARVED (R247, R261). -/
def leaveGroups (s : State) (v : Nat) : State :=
  (s.pool.slices.filter (fun p => p.2.st = .shared)).foldl (fun s p =>
    match look s.pool.slices p.1 with
    | none => s
    | some x =>
      let keep (g : List (Nat × Nat)) : List (Nat × Nat) := g.filter (fun e => e.1 ≠ v)
      let held : Bool := x.vd? = some v
      let g := keep x.group
      let cs := (sliceCgs s x).flatMap cgCores
      let heir := (g[0]?).map (·.1)
      let s := if !held then s else poolKept (fun s => match heir with
        | some w => cs.foldl (fun s c => coreJoins s c w) s
        | none => cs.foldl coreLeaves s) s
      let at_ := match x.vd? with | some w => (g.findIdx? (fun e => e.1 = w)).getD 0 | none => 0
      let h := if held then 0 else at_
      setSlice s p.1 (fun y => if g = [] then { y with st := .carved, group := [], nextGroup := none, holder := 0, quantumOver := false }
        else { y with group := g, nextGroup := y.nextGroup.map keep, holder := h })) s

/-- The end of a VD, once its CLOSE record is appended: the final leaf, the slices, and the VD itself (R247 t5, R486). -/
def vdGone (s : State) (v : Nat) : State :=
  let s := poolKept (fun s => (formLeaf s v 2).modChain v (fun c => { c with closed := true })) s
  let mine := (s.pool.slices.filter (fun p => p.2.st = .marked v)).map (·.1)
  let s := mine.foldl (fun s k => setSlice s k (fun y => { y with st := .carved })) s
  poolKept (fun s =>
    let old := s.vd v
    let s := s.setVd v { gen := (old.gen + 1) % 2 ^ 32, lastStatus := 0, hold := old.hold, telemetry := old.telemetry }
    notice { s with cmp := { s.cmp with capGen := (s.cmp.capGen + 2) % 2 ^ 32 } } v 1) s

/-- The VDs whose CLOSE record is appended are gone. -/
def settleVds (s : State) : State :=
  let vs := s.ready.filterMap (fun x => match x.1 with | .closeVd v => some v | _ => none)
  let s := { s with ready := s.ready.filter (fun x => match x.1 with | .closeVd _ => false | _ => true) }
  vs.foldl vdGone s

/-- t4 of a teardown: keys, tag, the FINAL meter statement and the CLOSE record (R247). -/
def teardownEnd (s : State) (v : Nat) : State :=
  let s := poolKept (fun s =>
    let s := retireTag (dropVdKeys s v) v
    let s := s.modVd v (fun x => { x with lastStatus := 0 })
    let s := closeMeter (compRecord s v 4 coOk) v true false
    settle (amberAppend s v 0x000E 0xFFFF [1] (.closeVd v))) s
  settleVds s

/-- FUNCTION_RESET_CLEAR: the reset of a function ends; that of a VD in teardown goes on with t2 of R247, and ends at once
where the VD holds no pairs. -/
def resetClear (s : State) (fn : Nat) : State :=
  let was := (s.fn fn).resetting
  let s := poolKept (fun s => functionResetClear s fn) s
  if was ∧ !(s.fn fn).resetting ∧ (s.vd fn).teardown then
    let s := teardownHold (leaveGroups s fn) fn
    if ownedPairs s fn = [] then teardownEnd s fn else s
  else s

def execFunctionResetClear (f : FnId) (s : State) : Host.Outcome State Fault Refusal := done s (resetClear s f.val)

/- Postures (R471, R472). -/

def postRefused (s : State) (v why : Nat) : State :=
  s.modSec (fun c => { c with postSt := put c.postSt v 3, postWhy := put c.postWhy v why })

/-- Whether an export window leads into a VD (R385, R458). -/
def windowInto (s : State) (v : Nat) : Bool := s.talko.windows.any (fun w => w.2.len ≠ 0 && w.2.vd = v)

/-- t4 of a posture change: the POSTURE record, LOAD_CHAIN anew, and the release (R472). -/
def postureEnd (s : State) (v : Nat) : State :=
  match (s.vd v).posture with
  | none => s
  | some secret =>
    let old := (s.vd v).posSealed
    let s := s.modVd v (fun x => { x with posture := none })
    match (if canKey s then genKeys (newKeys s v) v secret else none) with
    | none => unhold (postRefused s v (if canKey s then coNoResource else coFault)) v
    | some s =>
      let s := loadKeys s v (s.vdPairs v)
      let s := s.modVd v (fun x => { x with posSealed := secret })
      let s := (pairsChans (s.vdPairs v)).foldl (fun s c => startConv s c (vdLayout s v)) s
      let dig := if secret then sha384 (importPub s v) else zero48
      let s := amberAppend s v 0x0002 0xFFFF (natLe 1 (b2n old) ++ natLe 1 (b2n secret) ++ natLe 2 (s.vd v).keyGen ++ natLe 4 0 ++ dig) .none
      let s := s.modChain v (fun c => { c with loadChain := [], loads := [] })
      let s := s.modSec (fun c => { c with postSt := put c.postSt v 2 })
      settle (unhold s v)

/-- t1 and t2 of a posture change, once a tag is issued: keys destroyed, cores switched, and the fill started (R472). -/
def postureGo (s : State) (v : Nat) : State :=
  let s := dropVdKeys s v
  let s := unloadKeys s (ownedPairs s v)
  let s := ((s.vdCgs v).flatMap cgCores).foldl (fun s c => coreJoins s c v) s
  let s := startFill s (ownedPairs s v)
  if ownedPairs s v = [] then postureEnd s v else s

/-- A posture write that passed R528: R471 refuses it through the row's STATE, or t0 starts (R472). -/
def postureWrite (s : State) (v posture : Nat) (good : Bool) : DRes :=
  let secret : Bool := posture = 1
  let x := s.vd v
  if v = 0 ∨ !x.live ∨ (secret ∧ s.otp.lc ≠ 2) then dErr s duState 0
  else if x.posture.isSome then dErr s duBusy 0
  else
    let s := if good then s else s.modSec (fun c => { c with tableFault := true })
    if s.fnCtxs v ≠ [] ∨ x.req.isSome ∨ ((look s.sec.unseals v).map (·.st)).getD 0 = 1 ∨ (secret ∧ windowInto s v) then
      dOk (postRefused s v coBusy)
    else if !canKey s then dOk (postRefused s v coFault)
    else if secret ∧ !x.posSealed ∧ (freePool s).isNone then dOk (postRefused s v coNoResource)
    else
      let s := setHeld s v
      let s := s.modVd v (fun x => { x with posture := some secret })
      let s := s.modSec (fun c => { c with postSt := put c.postSt v 1 })
      match issueTag (retireTag s v) v with
      | some t => dOk (postureGo t v)
      | none => dOk { s with cmp := { s.cmp with tagWaiters := s.cmp.tagWaiters ++ [(v, secret, true)] } }

/- Zero-fills (R163). -/

/-- The fill of a VD's pairs ends: failed pairs are fenced and reported, and the teardown or posture change goes on. -/
def vdFilled (s : State) (v : Nat) (failed : BitVec 64) : State :=
  let ps := ownedPairs s v
  let x := s.vd v
  let waiting : Bool := (x.teardown && !(s.fn v).resetting) || x.posture.isSome
  if !waiting ∨ ps = [] ∨ ps.any (fun p => !(s.pairMem p).filling) then s
  else
    let bad := ps.filter (fun p => pairBit failed p)
    let s := poolKept (fun s => bad.foldl (fun s p => report s 6 p v) (endFill s ps)) s
    let s := { s with pool := { s.pool with pairFenced := s.pool.pairFenced ||| BitVec.ofNat 64 (maskOf bad) } }
    if x.teardown then teardownEnd s v else poolKept (fun s => postureEnd s v) s

/-- ZERO_FILL_COMPLETE; `failed` are the pairs on which a write failed. -/
def execZeroFillComplete (f : FillOf) (failed : BitVec 64) (s : State) : Host.Outcome State Fault Refusal :=
  done s (match f with
    | .slice k => sliceFilled s k.val failed
    | .vd v => vdFilled s v.val failed)

/- Tag sweeps (R85). -/

/-- TAG_SWEEP_START: a sweep of the retired tags runs once fewer than 256 are free. -/
def execTagSweepStart (s : State) : Host.Outcome State Fault Refusal :=
  doneKeep s (if s.cmp.sweeping.isNone ∧ tagsFree s < 256 ∧ s.cmp.tagsRetired ≠ [] then
      { s with cmp := { s.cmp with sweeping := some s.cmp.tagsRetired } }
    else s)

/-- A creation or posture change that waited for a tag goes on, or ends with NO_RESOURCE (R85, R252). -/
def serveTagWaiter (s : State) (w : Nat × Bool × Bool) : State :=
  let (v, secret, post) := w
  let x := s.vd v
  if post then
    if x.posture.isNone then s
    else
      match issueTag (retireTag s v) v with
      | some t => postureGo t v
      | none => unhold (postRefused (s.modVd v (fun x => { x with posture := none })) v coNoResource) v
  else if (x.req.map (·.op)) ≠ some 3 then s
  else
    match createVdNow s v secret with
    | some t => t
    | none => s.modVd v (fun x => { x with live := false, req := none, lastStatus := coNoResource })

/-- TAG_SWEEP_COMPLETE: swept tags are free again, and what waited for one proceeds. -/
def execTagSweepComplete (s : State) : Host.Outcome State Fault Refusal :=
  doneKeep s (match s.cmp.sweeping with
    | none => s
    | some ts =>
      let s := sweepTags s ts
      let ws := s.cmp.tagWaiters
      let s := { s with cmp := { s.cmp with sweeping := none, tagWaiters := [], tagsRetired := s.cmp.tagsRetired.filter (fun t => !ts.contains t) } }
      ws.foldl serveTagWaiter s)

/-- AMBER_CONS_WRITE: a write of SEC_AMBER_CONS through PF0's BAR0 (R484, R492); the end of a VD whose CLOSE record waited
follows. -/
def execAmberConsWrite (seq : W64) (s : State) : Host.Outcome State Fault Refusal :=
  done s (settleVds (poolKept (fun s => hostGate s 0 (fun s => writeCons s s.sec.amberSel seq.toNat)) s))

end Sys2Proof.Machine
end

