-- ==== Sys2Proof/Machine/Recovery.lean ====
section
/-! DEFINITION. Engine and core resets, samples, and hang detection (R83, R97, R110, R504–R507, R511–R520). -/

namespace Sys2Proof.Machine

/- Samples (R518, R519). -/

/-- The bytes of a sample record of a core; `sus` are the suspect tiles as (LAUNCH_ID, CTX). No error of a core's storage is
modelled, so the syndromes are zero. -/
def sampleBytes (s : State) (kind core eng : Nat) (sus : List (Nat × Nat)) : List Byte :=
  let k := s.core core
  let blk (b : Nat) : SpBlock := lookD k.sp b {}
  let los (e l : Nat) : LosLine := lookD (s.eng (8 * core + e)).los l {}
  natLe 4 0x4C504D53 ++ natLe 2 1 ++ natLe 1 kind ++ natLe 1 (coreDie core) ++ natLe 1 core ++ natLe 1 eng ++ natLe 2 k.curTag.toNat
    ++ natLe 4 (s.dump.next.getD (coreDie core) 0) ++ natLe 8 s.s0 ++ natLe 8 (aCycles s (coreCg core))
    ++ (List.range 5).flatMap (fun i => natLe 4 (sus.getD i (0, 0xFFFF)).1)
    ++ (List.range 5).flatMap (fun i => natLe 2 (sus.getD i (0, 0xFFFF)).2) ++ List.replicate 194 0
    ++ (List.range 768).flatMap (fun b => (lineBytes (lookD (blk b).lines 0 0)).take 64)
    ++ (List.range 768).flatMap (fun b => natLe 2 (blk b).tag.toNat ++ [0, 0] ++ natLe 4 (blk b).written.toNat)
    ++ (List.range 8).flatMap (fun e => (List.range 32).flatMap (fun l => lineBytes (los e l).data))
    ++ (List.range 8).flatMap (fun e => (List.range 32).flatMap (fun l =>
        natLe 2 ((los e l).tag.toNat + 4096 * b2n (los e l).written)))
    ++ List.replicate 1024 0 ++ List.replicate 41216 0

/-- Bytes of a sample record, and slots of a dump region (R518). -/
def sampleLen : Nat := 131072

/-- Take a sample of a core: it takes its sixteenth of the die's trace SRAM from tracing, and goes on to the dump region where
one is set (R518, R547). -/
def takeSample (s : State) (kind core eng : Nat) (sus : List (Nat × Nat)) : State :=
  let d := coreDie core
  let n := s.dump.next.getD d 0
  let b := sampleBytes s kind core eng sus
  let x : Sample := { die := d, seq := n, vd := (s.coreVd core).getD 64, bytes := b }
  let s := traceStop s d 2
  let s := s.modTrace d (fun t => { t with
    lost := if t.recs = [] then t.lost else t.lost ||| 2 ^ (n % 16)
    recs := t.recs.filter (fun r => decide (r.1 / 4096 ≠ n % 16)) })
  let s := { s with dump := { s.dump with
    next := s.dump.next.mapIdx (fun i k => if i = d then (k + 1) % 2 ^ 32 else k)
    sram := s.dump.sram.filter (fun y => !(y.die = d && y.seq % 16 = n % 16)) ++ [x] } }
  let base := s.dump.region.getD d 0
  if base = 0 then s
  else
    let s := writeDpa s 0 (base + n % 512 * sampleLen) b
    { s with dump := { s.dump with slots := s.dump.slots.filter (fun y => !(y.die = d && y.seq % 512 = n % 512)) ++ [x] } }

/- Core reset (R507). -/

/-- Launches with a part originated on a core that is queued, running or stolen. -/
def originLaunches (s : State) (c : Nat) : List Nat :=
  ((s.gfe.launches.filter (fun p => p.2.started.any (fun i => decide (0 < shareLeft s p.1 i c)))).map (·.1))

/-- Origins of the tiles that a core was granted and has not reported (R97). -/
def stolenFrom (s : State) (c : Nat) : List Nat := keys (s.cores.filter (fun p => p.1 ≠ c && p.2.granted.any (fun t => t.1 = c)))

/-- What still runs on a core after its reset holds a constant-buffer slot again: launches in flight with no tile there, and
resident tasks, which start again (DEDUCED, log 154). -/
def slotsAgain (s : State) (c : Nat) : State :=
  let s := (launchesOn s c).foldl (fun s p => match p.2.cores.findIdx? (· = c) with
    | some i => let k := p.2.slots.getD i 32
                if k < 32 ∧ p.2.failed.isNone then deliverCb (useSlot s c k) p.2.vd c k p.2.cb else s
    | none => s) s
  (keys (s.gfe.tasks.filter (fun p => engCore p.2.engine = c && p.2.st ≠ .moving))).foldl (fun s t =>
    match s.task? t, freeSlot s c with
    | some x, some k => (deliverCb (useSlot s c k) x.fn c k x.cb).modTask t (fun x => { x with cbSlot := k, restarts := x.restarts + 1 })
    | _, _ => s) s

/-- A core after its reset: the sequencer and the registers of its window that the reset clears; the tag, the scratchpad and
the limits stay (R101, R504). -/
def clearCore (k : Core) : Core :=
  { k with st := .idle, slots := [], tq := [], backlog := [], tqHigh := 0, peekIdx := 0, lastPull := 7, engSteals := 0, ksplits := 0,
           xcoreOut := 0, xcoreIn := 0, drops := 0, facetErr := 0, facetCount := 0, facetInfo0 := 0, facetInfo1 := 0, facetTables := [],
           hostLines := [], mshrs := [], snoops := [], xtlb := [], xreq := .none, xlast := 3, xdenied := [], granted := [], cbUsed := 0,
           ingress := [], reserve := [], resets := k.resets + 1 }

/-- A core reset: it is sampled, its engines and sequencer are reset, its cache writes back, origins of stolen tiles are told,
and the launches it originated fail. Three within 60 s, or one that does not complete, fail the core group (R507). -/
def coreResetNow (s : State) (c : Nat) (late : Bool) : State :=
  let s := poolKept (fun s =>
    let s := takeSample s 4 c 0xFF []
    let mine := originLaunches s c
    let from_ := stolenFrom s c
    let s := { s with xmsgs := s.xmsgs ++ from_.map (fun o => .resetNotice c o) }
    let s := flushCore s c
    let tag := (s.coreTag c).toNat
    let s := joinScope (leaveScope (leaveScope s c 0 tag) c 1 tag) c tag
    let s := (coreEngs c).foldl (fun s e => s.modEng e (fun x => { clearEng x with
      run := none, queue := [], claimWait := false, held := [], replaying := false, hangReason := 0 })) s
    let s := s.modCore c clearCore
    let s := mine.foldl (fun s l => failLaunch s l { cause := 0x0015, detail := natLe 1 (coreCg c) }) s
    let s := settle (slotsAgain s c)
    let times := (lookD s.boot.coreResets c []).filter (fun t => decide (s.s0 < t + 48000000000)) ++ [s.s0]
    { s with boot := { s.boot with coreResets := put s.boot.coreResets c times } }) s
  if late ∨ 3 ≤ (lookD s.boot.coreResets c []).length then failCg s (coreCg c) [] else s

/-- CORE_RESET: cause 1 after an engine reset that did not complete, cause 2 at the manager's request; `late` says that it does
not complete within 5 ms. -/
def execCoreReset (c : CoreId) (_cause : CoreCause) (late : Bool) (s : State) : Host.Outcome State Fault Refusal :=
  done s (if s.coreOn c.val ∧ !cgBit s.pool.cgFenced (coreCg c.val) then coreResetNow s c.val late else s)

/- Engine resets (R110, R505, R506). -/

def engCauseCode : EngCause → Nat
  | .watchdog => 1
  | .budget => 2
  | .request => 3
  | .squash => 4

/-- ENGINE_RESET, with its cause. -/
def execEngineReset (e : EngId) (cause : EngCause) (s : State) : Host.Outcome State Fault Refusal :=
  doneKeep s (if s.coreOn (engCore e.val) then settle (engineResetFor s e.val (engCauseCode cause)) else s)

/-- CORE_ENG_RESET: a write through PF0's BAR0 that names engines (R101, R110). -/
def execCoreEngReset (c : CoreId) (engs : BitVec 8) (s : State) : Host.Outcome State Fault Refusal :=
  doneKeep s (hostGate s 0 (fun s =>
    if !s.coreOn c.val then s
    else settle ((bitsOf 8 engs.toNat).foldl (fun s i => engineResetFor s (8 * c.val + i) 3) s)))

/- Hang detection (R512–R517, R521). -/

/-- The suspects of REASON 1: the running tile, from K_BEGIN, and the tiles of the private queue; a thief tile goes to its
victim instead (R97, R514). -/
def suspects (x : Eng) : List Tile :=
  (match x.run with | some r => if r.tile.slot = 0xFF then [restartTile r] else [] | none => []) ++ x.queue

/-- The context of a tile's launch. -/
def tileCtx (s : State) (t : Tile) : Nat := ((s.launch? t.launch).map (·.ctx)).getD 0xFFFF

/-- Held tiles in the order of their replay: contexts by their lowest LAUNCH_ID, and tiles by LAUNCH_ID (R514). -/
def replayOrder (s : State) (ts : List Tile) : List Tile :=
  let low (t : Tile) : Nat := ((ts.filter (fun u => tileCtx s u = tileCtx s t)).map (·.launch)).foldl min t.launch
  ts.mergeSort (fun a b => decide (low a < low b ∨ (low a = low b ∧ a.launch ≤ b.launch)))

/-- The sequence of an engine has ended: it pulls again, and three sequences within 1 s reset its core (R514 t5, R517). -/
def hangEnd (s : State) (e : Nat) : State × Bool :=
  let times := ((s.eng e).hangs.filter (fun t => decide (s.s0 < t + 800000000))) ++ [s.s0]
  (s.modEng e (fun x => { x with held := [], replaying := false, hangReason := 0, run := none, hangs := times }), decide (3 ≤ times.length))

/-- Replay the next held tile whose context still lives; without one the sequence ends (R341, R515). By fuel of one tile each. -/
def replayNext : Nat → State → Nat → State × Bool
  | 0, s, _ => (s, false)
  | f + 1, s, e =>
    match (s.eng e).held with
    | [] => hangEnd s e
    | t :: q =>
      let alive : Bool := match s.launch? t.launch with
        | some l => l.failed.isNone && ctxLive s l.fn l.ctx
        | none => false
      let s := s.modEng e (fun x => { x with held := q })
      if !alive then replayNext f s e
      else
        match s.launch? t.launch with
        | none => (s, false)
        | some l =>
          let n := l.nodes.getD t.node {}
          let r : RunTile := { tile := t, chunk := min t.kEnd (t.kBegin + 256), done := t.kBegin, accs := if t.matrix then freshAccs l n t else [] }
          (s.modEng e (fun x => { x with run := some r }), false)

/-- t2 to t4 of a sequence of REASON 1: the sample, the reset with its record, and the first replay (R514). A resident task has
no tile; it starts again on its engine. -/
def hangGo (s : State) (e : Nat) : State × Bool :=
  let x := s.eng e
  let s := takeSample s 1 (engCore e) (engIdx e) (x.held.map (fun t => (t.launch, tileCtx s t)))
  let s := s.modEng e (fun x => { clearEng x with claimWait := false, replaying := true })
  let s := match s.engVd e with | some v => resetRecord s v 2 1 e | none => s
  if (engTask s e).isSome then (s, false) else replayNext 8 s e

/-- After a sequence: the one that waits on another engine of the core runs, and a core that must be reset is (R517, R521). -/
def hangAfter (s : State) (e : Nat) (reset : Bool) : State :=
  let c := engCore e
  if reset then coreResetNow s c false
  else if (s.eng e).hangReason ≠ 0 then s
  else
    match (coreEngs c).find? (fun i => decide ((s.eng i).hangReason ≠ 0) && !(s.eng i).replaying) with
    | some i =>
      let r := hangGo s i
      if r.2 then coreResetNow (poolKept (fun _ => r.1) s) c false else poolKept (fun _ => r.1) s
    | none => s

/-- Whether a hang sequence runs on a core. -/
def coreHang (s : State) (c : Nat) : Bool := (coreEngs c).any (fun i => (s.eng i).replaying)

/-- WATCHDOG_FIRE: the suspects are fixed and held, and the sequence runs, after one of another engine of the core (R514,
R521). A wait on a fault, a Page Request or a MIG entry is not counted (R512). -/
def execWatchdogFire (e : EngId) (s : State) : Host.Outcome State Fault Refusal :=
  let x := s.eng e.val
  let stalled : Bool := match x.run with | some r => r.stalled.isSome | none => false
  let busy : Bool := x.run.isSome || (match engTask s e.val with | some t => (match s.task? t with | some q => q.st = .running | none => false) | none => false)
  done s (if !busy ∨ stalled ∨ x.hangReason ≠ 0 then s
    else
      let r := poolKept (fun s =>
        let s := match x.run with
          | some r =>
            let s := stopThieves s (engCore e.val) e.val r.thieves
            if r.tile.slot = 0xFF then s else handBack s (engCore e.val) r.tile.slot
          | none => s
        s.modEng e.val (fun y => { y with run := none, queue := [], held := replayOrder s (suspects x), hangReason := 1 })) s
      if coreHang r (engCore e.val) then r
      else
        let g := hangGo r e.val
        poolKept (fun _ => settle g.1) r |> fun s => hangAfter s e.val g.2)

/-- The error record of a guilty launch or task (R338, R516). -/
def hangErr (e reason : Nat) : ErrRec := { cause := 0x0014, detail := natLe 2 e ++ natLe 1 reason }

/-- STEP_BUDGET_OVERRUN: the core is sampled, the engines that run the launch are reset, and it is guilty without replay
(R513, R514). -/
def execStepBudgetOverrun (c : CoreId) (launch : W32) (s : State) : Host.Outcome State Fault Refusal :=
  let lid := launch.toNat
  let es := (coreEngs c.val).filter (fun e => match (s.eng e).run with | some r => r.tile.launch = lid | none => false)
  done s (match s.launch? lid with
    | none => s
    | some l =>
      if es = [] ∨ !has s.gfe.routines l.routine then s
      else
        let s := poolKept (fun s =>
          let s := takeSample s 2 c.val 0xFF (es.map (fun _ => (lid, l.ctx)))
          let s := es.foldl (fun s e => engineResetFor s e 2) s
          settle (failLaunch s lid (hangErr (es.headD 0) 2))) s
        es.foldl (fun s e =>
          let r := hangEnd s e
          if r.2 then coreResetNow (poolKept (fun _ => r.1) s) c.val false else poolKept (fun _ => r.1) s) s)

/-- REPLAY_TILE_DONE: a replayed tile that has reached its end completes for its launch, and the next one is replayed; a
replayed resident task has made progress (R515). -/
def execReplayTileDone (e : EngId) (s : State) : Host.Outcome State Fault Refusal :=
  done s (if !(s.eng e.val).replaying then s
    else
      let s := poolKept (fun s => tileComplete s e.val) s
      if (s.eng e.val).run.isSome then s
      else
        let r := if (engTask s e.val).isSome then hangEnd s e.val else replayNext 8 s e.val
        hangAfter (poolKept (fun _ => settle r.1) s) e.val r.2)

/-- REPLAY_WATCHDOG_FIRE: the tile's context is guilty and its launch fails; the engine is reset again, tiles of other launches
of the context go back to the tile queue, and the next suspect is replayed. A guilty resident task ends (R516). -/
def execReplayWatchdogFire (e : EngId) (s : State) : Host.Outcome State Fault Refusal :=
  done s (if !(s.eng e.val).replaying then s
    else
      match (s.eng e.val).run, engTask s e.val with
      | some r, _ =>
        let k := poolKept (fun s =>
          let key (t : Tile) : Bool := match s.launch? t.launch, s.launch? r.tile.launch with
            | some a, some b => a.fn = b.fn && a.ctx = b.ctx
            | _, _ => false
          let back := (s.eng e.val).held.filter (fun t => key t && t.launch ≠ r.tile.launch)
          let s := stopThieves s (engCore e.val) e.val r.thieves
          let s := s.modEng e.val (fun x => { clearEng x with run := none, held := x.held.filter (fun t => !key t) })
          let s := match s.engVd e.val with | some v => resetRecord s v 2 1 e.val | none => s
          let s := s.modCore (engCore e.val) (fun k => { k with tq := (back ++ k.tq).take 256, backlog := (back ++ k.tq).drop 256 ++ k.backlog })
          settle (failLaunch s r.tile.launch (hangErr e.val 1))) s
        let n := replayNext 8 k e.val
        hangAfter (poolKept (fun _ => settle n.1) k) e.val n.2
      | none, some t =>
        let s := poolKept (fun s =>
          let s := match s.engVd e.val with | some v => resetRecord s v 2 1 e.val | none => s
          settle (endTask s t (some (hangErr e.val 1)))) s
        let r := hangEnd s e.val
        hangAfter (poolKept (fun _ => r.1) s) e.val r.2
      | none, none => s)

/- Loop processors (R511). -/

/-- LOOP_PROCESSOR_SILENCE: `svcs` are the services of the processor that is restarted; a step in progress fails an attempt. -/
def execLoopProcessorSilence (svcs : List W32) (s : State) : Host.Outcome State Fault Refusal :=
  doneKeep s (settle (svcs.foldl (fun s v =>
    let h := v.toNat
    match s.service? h with
    | none => s
    | some x =>
      let e : ErrRec := { cause := 0x0015 }
      match x.st with
      | .run => match x.launch with | some l => failLaunch s l e | none => s
      | .sample => s.setService h { x with st := .run, outcome := some (some e), launch := none }
      | _ => s) (report s 9 0 64)))

end Sys2Proof.Machine
end

