-- ==== Sys2Proof/Machine/Persist.lean ====
section
/-! DEFINITION. Persistent objects as boot flash holds them, and what each one sets (R531, R539, R541–R546). -/

namespace Sys2Proof.Machine

/-- The key of an object's row. -/
def objKey (idx sub row : Nat) : Nat := idx * 2 ^ 40 + sub * 2 ^ 32 + row

/-- MANAGER_CAP under a power level (R31, R444). -/
def levelCap (l : Nat) : Nat := [2400, 2200, 1600].getD l 2200

def modParams (s : State) (f : PwrParams → PwrParams) : State := { s with pow := { s.pow with written := f s.pow.written } }

/-- The sources that an export window lists (R544). -/
def windowSources (b : List Byte) : List Nat := ((List.range 8).map (fun i => fieldAt b (32 + 2 * i) 2)).filter (· ≠ 0xFFFF)

/-- An export window of its 48-byte row. -/
def exportWindow (b : List Byte) : Window :=
  { vd := fieldAt b 0 1, base := fieldAt b 8 8, len := fieldAt b 16 8, dpa := fieldAt b 24 8, sources := windowSources b }

/-- A peer group of its 40-byte row. -/
def peerGroupRow (b : List Byte) : PeerGroup :=
  { group := fieldAt b 0 4, vd := fieldAt b 4 1, nDev := fieldAt b 5 1, rank := fieldAt b 6 1, root := fieldAt b 7 1, egress := fieldAt b 8 1,
    counts := (List.range 24).map (fun i => fieldAt b (10 + i) 1) }

/-- A route of its 4-byte row (R380). -/
def routeOf (b : List Byte) : Route :=
  let x := fieldAt b 0 4
  { ports := x % 2 ^ 24, valid := x.testBit 24, direct := x.testBit 25 }

def shareOf (b : List Byte) : List Share :=
  (List.range 8).map (fun t => { resvRd := fieldAt b (4 * t) 1, resvWr := fieldAt b (4 * t + 1) 1, capRd := fieldAt b (4 * t + 2) 1,
                                 capWr := fieldAt b (4 * t + 3) 1 })

/-- What a row of a persistent parameter object sets, with no check: the value is in range. -/
def setObj (s : State) (idx sub row : Nat) (b : List Byte) : State :=
  let n := leNat b
  let k := idx * 256 + sub
  if k = 0x200301 then
    let tc : VdTc := { bulk := fieldAt b 2 1, sprint := fieldAt b 3 1, move := fieldAt b 4 1, allowed := fieldAt b 5 1 }
    let s := s.modVd row (fun x => { x with hold := fieldAt b 0 2, telemetry := decide (fieldAt b 6 1 = 1) })
    { s with net := { s.net with vdTc := putD s.net.vdTc row tc {} } }
  else if k = 0x200401 then { s with mem := { s.mem with retryGap := n } }
  else if k = 0x200402 then { s with mem := { s.mem with convShare := n } }
  else if k = 0x200403 then { s with net := { s.net with relayWait := n } }
  else if k = 0x200404 then { s with net := { s.net with mcTimeout := n } }
  else if k = 0x200405 then { s with cmp := { s.cmp with residentWait := n } }
  else if k = 0x200406 then { s with cmp := { s.cmp with liftTimeout := n } }
  else if k = 0x200407 then { s with cmp := { s.cmp with meterPeriod := n } }
  else if k = 0x200501 then { s with net := { s.net with kinds := s.net.kinds.set row n } }
  else if k = 0x200502 then { s with net := { s.net with frame := (List.range 16).map (fun i => fieldAt b i 1) } }
  else if k = 0x200701 then { s with net := { s.net with shares := put s.net.shares row (shareOf b) } }
  else if k = 0x300001 then modParams s (fun p => { p with opCap := n })
  else if k = 0x300002 then modParams s (fun p => { p with mgrCap := n })
  else if k = 0x300003 then modParams s (fun p => { p with mgrCap := levelCap n })
  else if k = 0x300004 then modParams s (fun p => { p with laserAllow := n })
  else if k = 0x300005 then modParams s (fun p => { p with fixed := decide (n = 1) })
  else if k = 0x300006 then modParams s (fun p => { p with boostEn := decide (n = 1) })
  else if k = 0x300007 then modParams s (fun p => { p with alarmMask := n })
  else if k = 0x300101 then modParams s (fun p => { p with budgets := putD p.budgets row n 0 })
  else if k = 0x300201 then modParams s (fun p => { p with i10 := p.i10.set row (fieldAt b 0 1), i1ms := p.i1ms.set row (fieldAt b 1 1) })
  else if k = 0x300301 then modParams s (fun p => { p with glideFrac := n })
  else if k = 0x300302 then modParams s (fun p => { p with glideLow := n })
  else if k = 0x300303 then modParams s (fun p => { p with glideHold := n })
  else if k = 0x300304 then modParams s (fun p => { p with glideSlope := n })
  else if k = 0x300305 then modParams s (fun p => { p with memFloor := BitVec.ofNat 32 n })
  else if k = 0x400302 then s.modSec (fun c => { c with signPeriod := n })
  else if k = 0x500001 then { s with talko := { s.talko with devId := n } }
  else if k = 0x500101 then { s with talko := { s.talko with routes := putD s.talko.routes row (routeOf b) {} } }
  else if k = 0x500201 then s.modPort row (fun x => { x with encPolicy := fieldAt b 0 1, fecPolicy := fieldAt b 1 1 })
  else if k = 0x500301 then s.modPort row (fun x => { x with peerPolicy := sliceB b 0 64 })
  else if k = 0x500401 then { s with talko := { s.talko with windows := putD s.talko.windows row (exportWindow b) {} } }
  else if k = 0x500501 then { s with talko := { s.talko with peers := putD s.talko.peers row (peerGroupRow b) {} } }
  else if k = 0x500601 then { s with talko := { s.talko with peerWait := n } }
  else if k = 0x600001 then s.modStack row (fun x => { x with patrolHours := n })
  else if k = 0x600002 then { s with mem := { s.mem with degradeAt := n } }
  else if k = 0x800401 then { s with dump := { s.dump with region := s.dump.region.set row n } }
  else if k = 0x900101 then
    let m := s.pins.mpio.set row n
    { s with pins := { s.pins with mpio := m }, pow := { s.pow with throttleIn := s.pow.throttleIn && m.contains 3 } }
  else if k = 0x900301 then { s with pcie := { s.pcie with subsystem := n } }
  else s

/-- A persistent write waits to be committed to flash; a power level is kept as the cap it sets (R531). -/
def commitObj (s : State) (idx sub row : Nat) (b : List Byte) : State :=
  let c : Nat × List Byte := if idx = 0x3000 ∧ sub = 3 then (objKey 0x3000 2 0, natLe 2 (levelCap (leNat b))) else (objKey idx sub row, b)
  let vals := if idx = 0x9002 then put s.dun.vals (objKey idx sub row) b else s.dun.vals
  { s with dun := { s.dun with commits := s.dun.commits ++ [c], vals := vals } }

/-- Load every committed object; `ids` says whether the device ID and the routes are loaded too (R383, R539). -/
def loadObjs (s : State) (ids : Bool) : State :=
  s.flash.objs.foldl (fun s p =>
    let idx := p.1 / 2 ^ 40
    if (idx = 0x5000 ∨ idx = 0x5001) ∧ !ids then s else setObj s idx (p.1 / 2 ^ 32 % 256) (p.1 % 2 ^ 32) p.2) s

/-- PERSIST_COMMIT_DONE: the oldest pending commit stands in both copies, or fails and sets FLASH_FAULT (R531). -/
def execPersistCommitDone (ok : Bool) (s : State) : Host.Outcome State Fault Refusal :=
  doneKeep s (match s.dun.commits with
    | [] => s
    | (k, b) :: t =>
      let s := { s with dun := { s.dun with commits := t, flashFault := s.dun.flashFault || !ok } }
      if ok then { s with flash := { s.flash with objs := put s.flash.objs k b } } else s)

end Sys2Proof.Machine
end

