-- ==== Sys2Proof/Machine/Boot.lean ====
section
/-! DEFINITION. Power, resets of the device and the start (R450, R451, R458, R460, R485, R493–R510, R559, R560). -/

namespace Sys2Proof.Machine

/- The boot journal (R501). -/

/-- Outcomes of a boot step as the journal codes them (R501). -/
def outOk : Nat := 0
def outSkip : Nat := 1
def outDegrade : Nat := 2
def outSubstitute : Nat := 3
def outHalt : Nat := 4

/-- Append a boot journal entry (R501). -/
def journal (s : State) (step attempts outcome unit us bin : Nat) : State :=
  let n := s.flash.nextEntry
  let (k, s) := takeFree s
  let detail := if outcome = outOk then 0 else Config.journalDetail k
  let b := natLe 4 0x4E524A42 ++ natLe 4 n ++ natLe 4 (s.flash.startNo - 1) ++ natLe 1 s.boot.kind ++ natLe 1 step ++ natLe 1 attempts
    ++ natLe 1 outcome ++ natLe 2 detail ++ natLe 2 unit ++ natLe 4 us ++ natLe 8 (if step ≤ 4 then 0 else s.s0)
    ++ natLe 4 (activeSet s).seq ++ natLe 1 bin ++ [0, 0, 0] ++ sliceB (Config.journalData k) 0 20
  { s with flash := { s.flash with journal := put s.flash.journal (n % 65536) (b ++ natLe 4 (crc32c b)), nextEntry := n + 1 } }

/-- The steps that a step comes after (R497). -/
def bootAfter : Nat → List Nat
  | 2 => [1]
  | 3 => [2]
  | 4 => [3]
  | 5 => [4]
  | 6 => [5]
  | 7 => [5]
  | 8 => [3]
  | 9 => [5]
  | 10 => [9]
  | 11 => [6, 7, 10]
  | 12 => [8, 11]
  | _ => []

/-- Run a step of a start whose predecessors have ended (R497). -/
def bootGate (s : State) (n : Nat) (k : State → State) : State :=
  if s.boot.running ∧ !s.boot.halted ∧ !s.boot.done.contains n ∧ (bootAfter n).all (s.boot.done.contains ·) then k s else s

/-- End a step: its journal entry, or one for each unit it degrades, and the halt of a start that stops (R496, R501). -/
def endStep (s : State) (n attempts outcome : Nat) (units : List Nat) (us bin : Nat) : State :=
  let s := (if units = [] then [0xFFFF] else units).foldl (fun s u => journal s n attempts outcome u us bin) s
  { s with boot := { s.boot with done := s.boot.done ++ [n], halted := s.boot.halted || outcome = outHalt } }

/- What resets keep (R421, R499, R504, R509). -/

/-- The part of a virtual device that flash holds; its meter window begins again. -/
def durableVd (x : Vd) : Vd :=
  { live := x.live, tag := x.tag, posSealed := x.posSealed, keyGen := x.keyGen, spares := x.spares, lanes := x.lanes, teardown := x.teardown || x.posture.isSome,
    gen := x.gen, lastStatus := x.lastStatus, ways0 := x.ways0, ways1 := x.ways1, cls := x.cls, need := x.need,
    meter := { window := x.meter.window, compGen := x.gen } }

/-- The part of a chain that flash and its region hold (R485); push rings stay through a warm reset. -/
def durableChain (warm : Bool) (c : Chain) : Chain :=
  { opened := c.opened, closed := c.closed, seq := c.signedNext, head := c.signedHash, creation := c.creation, dpa := c.dpa,
    sizeLog2 := c.sizeLog2, drop := c.drop, cons := c.cons, tail := c.tail, loads := c.loads, gaps := c.gaps,
    push := if warm then c.push else {}, lastLeaf := c.signedNext, ckptNo := c.ckptNo, signedNext := c.signedNext, signedHash := c.signedHash,
    loadChain := c.loadChain, reserved := c.reserved, jumps := c.jumps }

/-- A VD whose creation had not completed does not survive. -/
def keptVds (vs : Map Vd) : Map Vd := vs.filter (fun p => !(p.2.live && (p.2.req.map (·.op)) = some 3))

def pinsOf (b : Boot) : Boot := { pwrOk := b.pwrOk, devRst := b.devRst, perst0 := b.perst0, perst1 := b.perst1 }

/-- A persistent object of one value, if one was committed. -/
def objValue (s : State) (idx sub d : Nat) : Nat := ((look s.flash.objs (objKey idx sub 0)).map leNat).getD d

/-- What a start finds: everything else is at its reset value (R504, R509). -/
def bootBase (s : State) (kind cause : Nat) : State :=
  let warm : Bool := kind = 2
  let vds := keptVds s.cmp.vds
  let wheels : Map Wheel :=
    if warm then s.net.wheels.map (fun p => (p.1, if p.1 < 16 then { auto := true, len := p.2.len } else { slots := p.2.slots, len := p.2.len }))
    else defaultWheels
  let slices : Map Slice := mapVals s.pool.slices (fun _ (x : Slice) => { x with nextGroup := none, quantumOver := false, holder := 0 })
  let pool : Pool :=
    if warm then { s.pool with slices := slices, portAside := 0xFFFFFF } else { slices := slices }
  let mem : Mem :=
    if warm then { hbm := s.mem.hbm, units := s.mem.units, chans := s.mem.chans, stackUnits := s.mem.stackUnits, macFails := s.mem.macFails }
    else { stackUnits := mapVals s.mem.stackUnits (fun _ (x : Stack) => { record := x.record }) }
  let port (x : Port) : Port := { (linkFresh x) with st := .off, reason := 0, queue := [], reads := [], writes := [], keyGen := 0, sentMsgs := [], tagFails := [] }
  let talko : Talko :=
    if warm then { devId := s.talko.devId, routes := s.talko.routes, ports := mapVals s.talko.ports (fun _ x => port x), lasers := s.talko.lasers }
    else {}
  let pow : Pow :=
    if warm then { written := s.pow.written, cur := s.pow.cur, locked := s.pow.locked, cycles := s.pow.cycles,
                   log := s.pow.log ++ (s.pow.cgs.filter (fun p => p.2.step ≠ 32)).map (fun p => (p.1, lookD s.pow.cycles p.1 0 / 64, 32)),
                   window := s.pow.window, tripped := s.pow.tripped, throttleIn := s.pow.throttleIn, ref := s.pow.ref }
    else { tripped := s.pow.tripped, throttleIn := s.pow.throttleIn }
  let cores : Map Core := if warm then mapVals s.cores (fun _ (k : Core) => { sp := k.sp, engOk := k.engOk }) else []
  let engs : Map Eng := if warm then mapVals s.engs (fun _ (e : Eng) => { los := e.los }) else []
  let tags := (vds.filter (fun p => p.2.live)).map (fun p => p.2.tag.toNat)
  let cmp : Cmp := {
    vds := mapVals vds (fun _ x => durableVd x), tagsLive := if tags.contains 1 then tags else 1 :: tags
    tagsRetired := if warm then s.cmp.tagsRetired else [], nextTag := s.cmp.nextTag, keyGen := s.cmp.keyGen, capGen := s.cmp.capGen }
  let pcie : Pcie :=
    if warm then { split := s.pcie.split, splitPoint := s.pcie.splitPoint }
    else { split := decide (objValue s 0x9002 1 0 = 1), splitPoint := objValue s 0x9002 2 31 }
  let boot : Boot := { pinsOf s.boot with running := s.boot.running, kind := kind, cause := cause }
  let sec : Sec := { slots := s.sec.slots.filter (fun p => p.2.policy.testBit 14) }
  let base : State := {
    pending := s.pending, free := s.free, s0 := if warm then s.s0 else 0, cores := cores, engs := engs, mem := mem, host := s.host, pool := pool,
    cmp := cmp, chains := mapVals s.chains (fun _ c => durableChain warm c), pcie := pcie,
    net := { wheels := wheels, fenced := if warm then s.net.fenced else [] }, talko := talko, pow := pow, sec := sec, otp := s.otp,
    flash := s.flash, boot := boot, trace := if warm then { s.trace with last := [], dropped := [] } else {},
    dump := if warm then { s.dump with region := [0, 0] } else {}, pins := { level := if warm then s.pins.level else 0 }, reports := s.reports, dun := { out := s.dun.out } }
  let base := loadObjs base false
  { base with pow := { base.pow with cur := base.pow.written } }

/-- A start begins: a cold one with no step done; a warm one with step 1 done, and step 7 where its results stand (R497,
R508). -/
def beginStart (s : State) (bist : Bool) : State :=
  { s with
    boot := { s.boot with done := if s.boot.kind = 2 then (if bist then [1, 7] else [1]) else [] }
    flash := { s.flash with
      startNo := s.flash.startNo + 1
      stackPol := mapVals s.flash.stackPol (fun _ (x : StackPol) => { x with starts := x.starts + 1 }) } }

/-- A device cold reset; the start begins at once unless the reset input is asserted or power is not good (R505). -/
def coldReset (s : State) (cause : Nat) : State :=
  let go : Bool := s.boot.pwrOk && !s.boot.devRst
  let t := bootBase s 1 cause
  let t := { t with boot := { t.boot with running := go } }
  if go then beginStart t false else t

/-- Cores that run tiles. -/
def busyCores (s : State) : List Nat :=
  (List.range 192).filter (fun c => (coreEngs c).any (fun e => (s.eng e).run.isSome))

/-- Reset a function to its end (R343, R508 t1). -/
def resetFunction (s : State) (fn : Nat) : State :=
  let s := functionReset s fn
  let s := (s.fnCtxs fn).foldl (fun s c => abortEnd (squashCtx s fn c) fn c) s
  functionResetClear s fn

/-- t0 to t2 of a warm reset: samples, function resets, RESET records, meter windows, and caches written back (R508). -/
def warmDown (s : State) (cause : Nat) : State :=
  let s := (busyCores s).foldl (fun s c => takeSample s 3 c 0xFF []) s
  let s := (List.range 64).foldl resetFunction s
  let s := (keys s.chains).foldl (fun s v => resetRecord s v 3 cause 0xFFFFFFFF) s
  let s := ((keys s.cmp.vds).filter (fun v => (s.vd v).live)).foldl (fun s v => closeMeter s v false false) s
  let s := (List.range 192).foldl flushCore s
  flushPairs s (List.range 64)

/-- A device warm reset (R505, R508). Under NET_UNROUTABLE it runs as a cold reset; during another warm reset it merges. -/
def warmReset (s : State) (cause : Nat) : State :=
  if !s.boot.running ∨ (s.boot.kind = 2 ∧ !s.boot.ready ∧ !s.boot.halted) then s
  else if s.net.unroutable then coldReset s 6
  else
    let bist : Bool := s.boot.done.contains 7
    let s := poolKept (fun s => if s.boot.ready then warmDown s cause else s) s
    let t := selfRefresh (bootBase s 2 cause)
    let t := if cause = 1 then { t with boot := { t.boot with perst0 := s.boot.perst0 } } else t
    beginStart { t with boot := { t.boot with running := true } } bist

def warmCode : WarmCause → Nat
  | .request => 2
  | .watchdog => 3
  | .tableFault => 4

/-- WARM_RESET by a trigger with no row of its own. -/
def execWarmReset (cause : WarmCause) (s : State) : Host.Outcome State Fault Refusal :=
  done s (if cause = .tableFault ∧ !s.sec.tableFault then s else warmReset s (warmCode cause))

/-- COLD_RESET: DEV_RST_N asserts, the reference clock was lost (R421), or a trip stopped the clocks (R442). -/
def execColdReset (cause : ColdCause) (s : State) : Host.Outcome State Fault Refusal :=
  done s (match cause with
    | .devRst => coldReset { s with boot := { s.boot with devRst := true } } 1
    | .refLoss => if s.pow.ref = .lost then coldReset s 3 else s
    | .trip => if s.pow.tripped then coldReset s 4 else s)

/- Pins (R505, R559–R561). -/

/-- A start begins once power is good and the reset input and PERST0_N are released (R498, R559). -/
def tryStart (s : State) : State :=
  if s.boot.pwrOk ∧ !s.boot.devRst ∧ !s.boot.perst0 ∧ !s.boot.running then
    beginStart { s with boot := { s.boot with running := true } } false
  else s

/-- RESET_RELEASE: the release of the reset input clears THERMTRIP_N (R561). -/
def execResetRelease (pin : ResetPin) (s : State) : Host.Outcome State Fault Refusal :=
  doneKeep s (match pin with
    | .devRst => tryStart { s with boot := { s.boot with devRst := false }, pow := { s.pow with tripped := if s.boot.devRst then false else s.pow.tripped } }
    | .perst0 => tryStart { s with boot := { s.boot with perst0 := false } }
    | .perst1 => { s with boot := { s.boot with perst1 := false } })

/-- PERST_ASSERT: a warm reset; PERST1_N with two halves is a DL_Down of half 1 (R505, R561). -/
def execPerstAssert (half : Fin 2) (s : State) : Host.Outcome State Fault Refusal :=
  done s (if half.val = 0 then
      let s := { s with boot := { s.boot with perst0 := true } }
      if s.boot.devRst then s else warmReset s 1
    else
      poolKept (fun s => hotReset { s with boot := { s.boot with perst1 := true } } 1) s)

/-- PWR_OK_ASSERT: every rail is good (R559). -/
def execPwrOkAssert (s : State) : Host.Outcome State Fault Refusal :=
  doneKeep s (tryStart { s with boot := { s.boot with pwrOk := true } })

/-- PWR_OK_DEASSERT: clocks stop, outputs reset, and HBM contents are lost (R560). -/
def execPwrOkDeassert (s : State) : Host.Outcome State Fault Refusal :=
  done s (coldReset { s with boot := { s.boot with pwrOk := false } } 1)

/- Watchdogs of the control processors (R510). -/

/-- BERYL_HEARTBEAT_TIMEOUT: the core is reset; a second miss within 1 s starts a warm reset. -/
def execBerylHeartbeatTimeout (core : Fin 4) (s : State) : Host.Outcome State Fault Refusal :=
  done s (if !s.boot.running then s
    else
      let again : Bool := match look s.boot.beryl core.val with
        | some t => decide (s.s0 < t + 800000000)
        | none => false
      let s := { s with boot := { s.boot with beryl := put s.boot.beryl core.val s.s0 } }
      if again then warmReset s 3 else s)

/-- CROSS_WATCHDOG_TIMEOUT: Garnet and Beryl watch each other. -/
def execCrossWatchdogTimeout (s : State) : Host.Outcome State Fault Refusal := done s (warmReset s 3)

/-- CONTROL_STATE_ECC_ERROR. -/
def execControlStateEccError (garnet : Bool) (s : State) : Host.Outcome State Fault Refusal :=
  done s (if s.boot.running then warmReset (report s 16 (b2n garnet) 64) 3 else s)

/- Steps 1 to 5 (R451, R452, R455, R460, R495, R497). -/

/-- BOOT_ROM. -/
def execBootRom (ok : Bool) (us : W32) (s : State) : Host.Outcome State Fault Refusal :=
  doneKeep s (bootGate s 1 (fun s => endStep s 1 1 (if ok then outOk else outHalt) [] us.toNat 0))

/-- The keys derived at each start: slot, bits, type and policy (R452, R454, R455; the policies are a DESIGN CHOICE, log 155). -/
def deriveKeys (s : State) : State :=
  [(0, 384, 1, 0x1E01), (1, 384, 2, 0x1E01), (2, 384, 2, 0x1E01), (3, 256, 3, 0x1E0C)].foldl (fun s p =>
    setSlot s p.1 { key := sliceB (Config.rootKey s.otp.lc s.otp.transitions p.1) 0 (p.2.1 / 8), bits := p.2.1, type := p.2.2.1, policy := p.2.2.2 }) s

/-- BOOT_PUF_KEYS: `fails` readouts did not match; `badSlots` are restored slots whose tag fails (R451, R456). In BLANK no root
is derived (R448). -/
def execBootPufKeys (fails : Fin 4) (badSlots : List (Fin 128)) (us : W32) (s : State) : Host.Outcome State Fault Refusal :=
  doneKeep s (bootGate s 2 (fun s =>
    if fails.val = 3 then endStep s 2 3 outHalt [] us.toNat 0
    else if s.otp.lc = 0 then endStep s 2 (fails.val + 1) outOk [] us.toNat 0
    else
      let (n, s) := drawKey (deriveKeys s)
      let s := s.modSec (fun c => { c with rootOk := true, nonce := sliceB n 0 48, lower := s.flash.hssRes })
      let s := (badSlots.filter (fun k => has s.sec.slots k.val)).foldl (fun s k => slotFails s k.val) s
      endStep s 2 (fails.val + 1) outOk [] us.toNat 0))

/-- R460 for one image of a set; the outcomes of the checks over its bytes stand with it. -/
def imageOk (s : State) (x : ImageSet) (c : Nat) : Bool :=
  match x.images.find? (fun i => i.cls = c), x.images.find? (fun i => i.cls = 1) with
  | some i, some g =>
    !s.otp.revoked.contains i.keyId && i.keyHash && i.ecdsa && i.hss && i.body && decide (s.otp.svn.getD (c - 1) 0 ≤ i.svn)
      && decide (i.version % 256 = g.version % 256)
  | _, _ => false

/-- Whether a set can be chosen, and passes R460 as a whole (R495). -/
def setUsable (x : ImageSet) : Bool := x.valid && !x.rejected

def imgSetOk (s : State) (i : Nat) : Bool :=
  let x := s.flash.sets.getD i {}
  setUsable x && [1, 2, 3, 4].all (imageOk s x)

/-- The set that the ROM tries first (R495). -/
def firstSet (s : State) : Nat :=
  let a := s.flash.sets.getD 0 {}
  let b := s.flash.sets.getD 1 {}
  if setUsable b ∧ (!setUsable a ∨ a.seq < b.seq) then 1 else 0

def modImgSet (s : State) (i : Nat) (f : ImageSet → ImageSet) : State :=
  { s with flash := { s.flash with sets := s.flash.sets.mapIdx (fun j x => if j = i then f x else x) } }

/-- Use a set: a trial set has now been tried. -/
def chooseSet (s : State) (i : Nat) : State := { modImgSet s i (fun x => { x with tried := x.trial }) with boot := { s.boot with active := i } }

/-- BOOT_IMAGE_VERIFY: a trial set that did not reach READY is REJECTED at the next cold start; the first set that passes
R460 is used (R495, R521). -/
def execBootImageVerify (us : W32) (s : State) : Host.Outcome State Fault Refusal :=
  doneKeep s (bootGate s 3 (fun s =>
    let s := if s.boot.kind = 2 then s
      else [0, 1].foldl (fun s i => modImgSet s i (fun x => if x.trial ∧ x.tried then { x with rejected := true } else x)) s
    let a := firstSet s
    let s := modImgSet s a (fun x => { x with tried := x.tried || x.trial })
    if imgSetOk s a then endStep (chooseSet s a) 3 1 outOk [] us.toNat 0
    else if imgSetOk s (1 - a) then endStep (chooseSet s (1 - a)) 3 1 outSubstitute [] us.toNat 0
    else endStep s 3 1 outHalt [] us.toNat 0))

/-- BOOT_MGMT_FIRMWARE: after `fails` failed attempts; `other` says whether Beryl starts from the other set, and `tagsOk` whether the
tags of the security tables match (R458, R497). -/
def execBootMgmtFirmware (fails : Fin 3) (other tagsOk : Bool) (us : W32) (s : State) : Host.Outcome State Fault Refusal :=
  doneKeep s (bootGate s 4 (fun s =>
    let s := if tagsOk then s else s.modSec (fun c => { c with tableFault := true })
    if fails.val < 2 then endStep s 4 (fails.val + 1) outOk [] us.toNat 0
    else if other ∧ imgSetOk s (1 - s.boot.active) then endStep (chooseSet s (1 - s.boot.active)) 4 2 outSubstitute [] us.toNat 0
    else endStep s 4 2 outHalt [] us.toNat 0))

def fenceCgs (s : State) (m : BitVec 48) : State := { s with pool := { s.pool with cgFenced := s.pool.cgFenced ||| m } }

def fencePairs (s : State) (m : BitVec 64) : State := { s with pool := { s.pool with pairFenced := s.pool.pairFenced ||| m } }

/-- The channel pairs of stacks (R13). -/
def stackPairs (m : BitVec 8) : BitVec 64 :=
  BitVec.ofNat 64 (maskOf ((bitsOf 8 m.toNat).flatMap (fun n => (List.range 8).map (8 * n + ·))))

/-- BOOT_PLLS: a CG whose A PLL fails and a stack whose M PLL fails are fenced (R497). -/
def execBootPlls (cgBad : BitVec 48) (stackBad : BitVec 8) (halt : Bool) (us : W32) (s : State) : Host.Outcome State Fault Refusal :=
  done s (bootGate s 5 (fun s =>
    if halt then poolKept (fun s => endStep s 5 1 outHalt [] us.toNat 0) s
    else
      let s := fencePairs (fenceCgs s cgBad) (stackPairs stackBad)
      poolKept (fun s =>
        let units := bitsOf 48 cgBad.toNat ++ bitsOf 8 stackBad.toNat
        let s := (bitsOf 48 cgBad.toNat).foldl (fun s g => report s 5 g 64) s
        let s := { s with pow := { s.pow with locked := true, cgs := [] } }
        let s := setRails (setRails s 0) 1
        endStep s 5 1 (if units = [] then outOk else outDegrade) units us.toNat 0) s))

/- Step 6 (R151, R153, R502, R503). -/

/-- The CRC of a training record's fields. -/
def recordCrc (x : TrainRec) : W32 :=
  BitVec.ofNat 32 (crc32c (natLe 8 x.stackId ++ natLe 1 x.bin ++ natLe 2 (unsgn x.temp 16) ++ x.pins.flatMap (natLe 4) ++ natLe 1 x.fwMajor))

/-- The bin a stack starts at (R502). -/
def wantBin (s : State) (n : Nat) : Nat := ((look s.flash.stackPol n).map (·.bin)).getD 0

/-- Whether a record can be used in place of full training (R153). -/
def recordUsable (s : State) (n : Nat) (r : HbmRun) (x : TrainRec) : Bool :=
  r.recOk && decide (x.stackId = r.serial.toNat ∧ x.bin = wantBin s n ∧ (x.temp - r.temp.toInt).natAbs ≤ 20
    ∧ x.fwMajor = (activeImage s 2).version % 256 ∧ x.crc = recordCrc x)

/-- What training leaves of a stack: the state, the outcome of the step for it, and the pairs that failed. -/
structure Trained where
  st : State
  outcome : Nat := 0
  pairs : BitVec 64 := 0

def trainStack (s : State) (n : Nat) (r : HbmRun) : Trained :=
  let up (s : State) (bin : Nat) (rec_ : Bool) : State :=
    let s := s.modStack n (fun x => { x with
      trained := true, bin := bin, fromRecord := rec_, serial := r.serial.toNat, selfRefresh := decide (s.pow.ref = .lost) })
    [56 + 2 * n, 57 + 2 * n].foldl (fun s d => noteFreq s d (if bin = 0 then 96 else if bin = 1 then 80 else 64)) s
  let all := stackPairs (BitVec.ofNat 8 (2 ^ n))
  if (s.pool.pairFenced &&& all) = all then { st := s }
  else
    let b := wantBin s n
    match (s.stack n).record with
    | some x =>
      if recordUsable s n r x then { st := up s b true } else full s n r b up outSubstitute
    | none => full s n r b up outOk
where
  /-- Full training from bin `b` down; a stack that degrades in a warm reset is fenced (R521). -/
  full (s : State) (n : Nat) (r : HbmRun) (b : Nat) (up : State → Nat → Bool → State) (out : Nat) : Trained :=
    let at_ := b + r.fails.val
    let s := if r.fails.val = 0 then s
      else { s with flash := { s.flash with stackPol := put s.flash.stackPol n { bin := min 2 at_, starts := 0 } } }
    if s.boot.kind = 2 ∧ r.fails.val ≠ 0 then { st := s, outcome := outDegrade, pairs := stackPairs (BitVec.ofNat 8 (2 ^ n)) }
    else if at_ ≤ 2 then
      let x : TrainRec := {
        stackId := r.serial.toNat, bin := at_, temp := r.temp.toInt, pins := r.pins.map (·.toNat), fwMajor := (activeImage s 2).version % 256 }
      let s := (up s at_ false).modStack n (fun k => { k with record := some { x with crc := recordCrc x } })
      { st := s, outcome := if r.fails.val = 0 then out else outDegrade }
    else
      let s := if r.bad = 0xFF then s else up s 2 false
      { st := s, outcome := outDegrade, pairs := BitVec.ofNat 64 (maskOf ((bitsOf 8 r.bad.toNat).map (8 * n + ·))) }

/-- Rows of the repair table after step 6: those that could not be repaired stay and are reported (R503). -/
def repairRows (s : State) (left : List (ChanId × Fin 2 × W32)) : State :=
  let stay := s.flash.repairs.filter (fun p => left.any (fun q => decide (q.1.val = p.1 ∧ q.2.1.val * 2 ^ 32 + q.2.2.toNat = p.2)))
  stay.foldl (fun s p => report s 24 p.1 64) { s with flash := { s.flash with repairs := stay } }

/-- BOOT_HBM_TRAINING: `runs` are the stacks in their order. -/
def execBootHbmTraining (runs : List HbmRun) (unrepaired : List (ChanId × Fin 2 × W32)) (us : W32) (s : State) : Host.Outcome State Fault Refusal :=
  done s (bootGate s 6 (fun s =>
    let r := (List.range 8).foldl (fun (a : State × List Nat × Bool × BitVec 64) n =>
      let t := trainStack a.1 n (runs.getD n {})
      let ps := bitsOf 64 t.pairs.toNat
      let us := if t.outcome ≠ outDegrade then [] else if ps = [] ∨ ps.length = 8 then [n] else ps
      (t.st, a.2.1 ++ us, a.2.2.1 || t.outcome = outSubstitute, a.2.2.2 ||| t.pairs)) (s, [], false, 0)
    let s := fencePairs (poolKept (fun _ => r.1) s) r.2.2.2
    let live := (List.range 8).filter (fun n => (s.stack n).trained)
    let ready := stackPairs (BitVec.ofNat 8 (maskOf live)) &&& ~~~ s.pool.pairFenced
    let s := { s with pool := { s.pool with pairReady := ready } }
    let bin := (live.map (fun n => (s.stack n).bin)).foldl max 0
    let out := if r.2.1 ≠ [] then outDegrade else if r.2.2.1 then outSubstitute else outOk
    poolKept (fun s => endStep (repairRows s unrepaired) 6 1 out r.2.1 us.toNat bin) s))

/- Steps 7 to 10. -/

/-- BOOT_CORE_BIST: core groups and routers that fail, and engines that do (R239, R243, R497). -/
def execBootCoreBist (cgBad : BitVec 48) (routers : List CoreId) (engBad : List (CoreId × BitVec 8)) (us : W32) (s : State) :
    Host.Outcome State Fault Refusal :=
  done s (bootGate s 7 (fun s =>
    let rs := (routers.map (·.val)).eraseDups
    let gone := (rs.map coreCg).eraseDups
    let bad := (cgBad ||| BitVec.ofNat 48 (maskOf gone)) &&& BitVec.ofNat 48 cgFused
    let s := fenceCgs { s with pool := { s.pool with cgReady := BitVec.ofNat 48 cgFused } } bad
    poolKept (fun s =>
      let s := { s with net := { s.net with fenced := rs } }
      let s := engBad.foldl (fun s p => s.modCore p.1.val (fun k => { k with engOk := ~~~ p.2 })) s
      let units := bitsOf 48 bad.toNat ++ rs
      if !bypassOk rs then endStep s 7 1 outHalt [] us.toNat 0
      else endStep s 7 1 (if units = [] then outOk else outDegrade) units us.toNat 0) s))

/-- Train one half; PERST# of its host must be released. It answers whether the half is up, and whether its link is narrow. -/
def bootHalf (s : State) (h : Nat) (r : HalfRun) : State × Bool × Bool :=
  let held : Bool := if h = 0 then s.boot.perst0 else s.boot.perst1
  match r with
  | .trained rate width flit =>
    if held then (s, false, false)
    else
      let s := linkUp s h (rateOf rate) (widthOf width) flit
      (s, true, decide ((s.half h).width < (if s.pcie.split then 8 else 16)))
  | _ => (s, false, false)

/-- BOOT_PCIE: each half trains, or is left out (R394, R497). -/
def execBootPcie (h0 h1 : HalfRun) (attempts : BitVec 8) (us : W32) (s : State) : Host.Outcome State Fault Refusal :=
  doneKeep s (bootGate s 8 (fun s =>
    let a := bootHalf s 0 h0
    let b := if s.pcie.split then bootHalf a.1 1 h1 else (a.1, true, false)
    let out := if !a.2.1 ∨ !b.2.1 then outSkip else if a.2.2 ∨ b.2.2 then outDegrade else outOk
    endStep b.1 8 (max 1 attempts.toNat) out [] us.toNat 0))

/-- BOOT_PHOTONICS: modules come up with their set points; lanes that fail calibration are left out of LANES_OK (R360, R497). -/
def execBootPhotonics (tiles : List LaserRun) (lanesBad : List (PortId × Fin 512)) (us : W32) (s : State) :
    Host.Outcome State Fault Refusal :=
  doneKeep s (bootGate s 9 (fun s =>
    let s := (List.range 4).foldl (fun s t =>
      match tiles.getD t .waiting with
      | .failed => moduleFails s t
      | .waiting => s.modLaser t (fun _ => { enabled := true })
      | .locked lines => s.modLaser t (fun _ => {
          enabled := true, locked := true, lines := (List.range 9).map (fun k => { failed := !lines.val.testBit k }) })) s
    let s := lanesBad.foldl (fun s p => s.modPort p.1.val (fun x => { x with calBad := p.2.val })) s
    let down := ((List.range 4).filter (fun t => tiles.getD t .waiting = .failed)).flatMap tilePorts
    let s := down.foldl (fun s p => s.modPort p (fun x => { x with st := .down, reason := 8, errLaser := true })) s
    let units := (down ++ (lanesBad.filter (fun p => p.2.val ≠ 0)).map (·.1.val)).eraseDups
    endStep s 9 1 (if units = [] then outOk else outDegrade) units us.toNat 0))

/-- BOOT_TALKO: every port of a tile that is up begins its negotiation; without a device ID the step is left out (R370,
R497). -/
def execBootTalko (us : W32) (s : State) : Host.Outcome State Fault Refusal :=
  doneKeep s (bootGate s 10 (fun s =>
    let s := if s.boot.kind = 2 then s else { s with talko := { s.talko with devId := objValue s 0x5000 1 0xFFFF } }
    if 4095 < s.talko.devId then endStep s 10 1 outSkip [] us.toNat 0
    else
      let s := (List.range 24).foldl bringUp s
      let down := (List.range 24).filter (fun p => (s.port p).st = .down)
      endStep s 10 1 (if down = [] then outOk else outDegrade) down us.toNat 0))

/- Step 11 (R485, R499). -/

/-- Read a chain forward from its signed head: the next number and the hash of the last record kept. Numbers that an earlier
resume jumped over are passed (R485). -/
def scanChain : Nat → State → Nat → Nat → List Byte → Nat × List Byte
  | 0, _, _, n, h => (n, h)
  | f + 1, s, v, n, h =>
    let n := match (s.chain v).jumps.find? (fun j => j.1 = n) with
      | some j => j.2 + 1
      | none => n
    let b := recordAt s v n
    if b.length = 256 ∧ fieldAt b 0 8 = n ∧ sliceB b 32 48 = h then scanChain f s v (n + 1) (sha384 b) else (n, h)

/-- Resume a chain after a reset of KIND `kind`: what follows on is kept, a GAP record stands at the reservation boundary,
and a RESET record follows (R485). -/
def resumeChain (s : State) (v kind cause : Nat) : State :=
  let c := s.chain v
  if !c.opened ∨ c.closed then s
  else
    let p := if c.sizeLog2 = 0 then (c.signedNext, c.signedHash) else scanChain (chainSlots c) s v c.signedNext c.signedHash
    let e := c.reserved
    let s := s.modChain v (fun c => { c with
      seq := e, head := p.2, cons := chainReclaimed c, buffer := [], lost := none, held := [], jumps := if p.1 < e then c.jumps ++ [(p.1, e - 1)] else c.jumps
      gaps := satAdd 16 c.gaps 1 })
    let s := appendRaw s v 0x000C 0xFFFF (natLe 8 p.1 ++ natLe 8 (e - 1) ++ natLe 1 1)
    formLeaf (resetRecord s v kind cause 0xFFFFFFFF) v 4

/-- KIND of the RESET record of a start: 3 warm, 4 cold (R482). -/
def resetKind (s : State) : Nat := if s.boot.kind = 2 then 3 else 4

/-- Whether a VD cannot be restored (R499): its seed slot fails or is gone, none of the core groups it had works, it is SEALED
outside FIELD, or its teardown had begun. -/
def leftOut (s : State) (v : Nat) : Bool :=
  let x := s.vd v
  let cgs := (List.range 48).filter (fun g => s.cgVd g = some v)
  decide (v ≠ 0) && (s.sec.failedSlots.contains (seedSlot v) || !has s.sec.slots (seedSlot v) || x.teardown
    || (cgs ≠ [] && cgs.all (cgBit s.pool.cgFenced ·)) || (x.posSealed && decide (s.otp.lc ≠ 2)))

/-- Leave a VD out: its pairs are zero-filled, its slices CARVED, its tag retired, its keys destroyed and its chain closed. -/
def leaveOut (s : State) (v : Nat) : State :=
  let s := poolKept (fun s => endFill (unloadKeys s (ownedPairs s v)) (ownedPairs s v)) s
  let mine := (s.pool.slices.filter (fun p => p.2.st = .bound v ∨ p.2.st = .marked v)).map (·.1)
  let s := mine.foldl (fun s k => setSlice s k (fun y => { y with st := .carved })) s
  let shared := (s.pool.slices.filter (fun p => p.2.st = .shared)).map (·.1)
  let s := shared.foldl (fun s k => setSlice s k (fun y =>
    let g := y.group.filter (fun e => e.1 ≠ v)
    if g = [] then { y with st := .carved, group := [], holder := 0 } else { y with group := g, holder := 0 })) s
  poolKept (fun s =>
    let s := retireTag (dropVdKeys s v) v
    let s := resumeChain s v (resetKind s) s.boot.cause
    let s := amberAppend s v 0x000E 0xFFFF [2] .none
    let s := (formLeaf s v 2).modChain v (fun c => { c with closed := true })
    let old := s.vd v
    report (s.setVd v { gen := (old.gen + 1) % 2 ^ 32, hold := old.hold, telemetry := old.telemetry }) 23 v 64) s

/-- VD0 exists from the first start on. -/
def ensureVd0 (s : State) : State :=
  let s := if (s.vd 0).live then s
    else s.modVd 0 (fun x => { x with live := true, tag := 1, ways0 := 1, ways1 := 1, gen := 0, meter := { s0Begin := s.s0 } })
  let s := if has s.sec.slots (seedSlot 0) then s else (genKeys (newKeys s 0) 0 false).getD s
  if (s.chain 0).opened then s else openChain s 0

/-- Restore a VD: after a cold start its pairs are zero-filled first; its key set is loaded, and its cores join it. -/
def restoreVd (s : State) (v : Nat) : State :=
  let ps := s.vdPairs v
  let s := if s.boot.kind = 2 then s else endFill s (ownedPairs s v)
  let s := if s.sec.failedSlots.contains (seedSlot v) then s else loadKeys s v ps
  let s := s.modVd v (fun x => { x with meter := { x.meter with s0Begin := s.s0 } })
  let s := (pairsChans ps).foldl (fun s c => startConv s c (vdLayout s v)) s
  ((s.vdCgs v).flatMap cgCores).foldl (fun s c => coreJoins s c v) s

/-- BOOT_COMPOSITION_RESTORE: `badSeeds` are the VDs whose seed slot fails its tag now, `badFill` pairs on which a zero-fill
fails (R163, R456). -/
def execBootCompositionRestore (badSeeds badFill : BitVec 64) (us : W32) (s : State) : Host.Outcome State Fault Refusal :=
  done s (bootGate s 11 (fun s =>
    let cold : Bool := decide (s.boot.kind ≠ 2)
    let fresh : Bool := !(s.chain 0).opened
    let s := poolKept (fun s => ensureVd0 (if cold then loadObjs s true else s)) s
    let seeds := (bitsOf 64 badSeeds.toNat).filter (fun v => (s.vd v).live)
    let s := poolKept (fun s => seeds.foldl (fun s v => slotFails s (seedSlot v)) s) s
    let s := fencePairs s (badFill &&& s.pool.pairReady)
    let s := poolKept (fun s => (bitsOf 64 (badFill &&& s.pool.pairReady).toNat).foldl (fun s p => report s 6 p 64) s) s
    let gone := (s.pool.slices.filter (fun p => p.2.st = .releasing)).map (·.1)
    let s := gone.foldl (fun s k => sliceFilled s k 0) s
    let live := (keys s.cmp.vds).filter (fun v => (s.vd v).live)
    let out := live.filter (leftOut s)
    let s := out.foldl leaveOut s
    poolKept (fun s =>
      let stay := live.filter (fun v => !out.contains v)
      let s := stay.foldl restoreVd s
      let s := autoWheels s
      let s := (stay.filter (fun v => !(fresh && v = 0))).foldl (fun s v => resumeChain s v (resetKind s) s.boot.cause) s
      let s := { s with cmp := { s.cmp with capGen := (s.cmp.capGen + 2) % 2 ^ 32 } }
      endStep s 11 1 (if out = [] then outOk else outDegrade) out us.toNat 0) s))

/-- BOOT_READY: host functions open; a trial set is confirmed, and OTP counters rise on the second start in a row (R461, R495,
R497). -/
def execBootReady (us : W32) (s : State) : Host.Outcome State Fault Refusal :=
  doneKeep s (bootGate s 12 (fun s =>
    let i := s.boot.active
    let n := s.flash.startNo
    let two : Bool := decide (n ≠ 0 ∧ (activeSet s).streak = n - 1 ∧ 2 ≤ n)
    let s := modImgSet s i (fun x => { x with trial := false, tried := false, streak := n })
    let s := if two then raiseSvn s else s
    endStep { s with boot := { s.boot with ready := true } } 12 1 outOk [] us.toNat 0))

end Sys2Proof.Machine
end

