-- ==== Sys2Proof/Machine/Cap.lean ====
section
/-! DEFINITION. The capability table (R345–R348) with the distance classes of R24 and the stops of R213. -/

namespace Sys2Proof.Machine

/-- Row of the tiles that the stops of controller M(k) attach to, and its three columns (R213). -/
def ctlRow (k : Nat) : Nat := if k / 2 % 4 < 2 then 0 else 7
def ctlCols (k : Nat) : List Nat := (List.range 3).map (fun i => k / 2 % 2 * 6 + k % 2 * 3 + i)

def absDiff (a b : Nat) : Nat := (a - b) + (b - a)

/-- The distance class of a core and a channel pair (R346). -/
def distClass (c p : Nat) : Nat :=
  if coreDie c ≠ pairDie p then 3
  else
    let k := p / 4
    let h := absDiff (coreRow c) (ctlRow k) + (ctlCols k).foldl (fun m x => min m (absDiff (coreCol c) x)) 12
    if h ≤ 4 then 0 else if h ≤ 10 then 1 else 2

/-- A stop: KIND, INDEX and the core numbers of its tiles. -/
def stopBytes (x : Nat × Nat × Nat × Nat) : List Byte := natLe 1 x.1 ++ natLe 1 x.2.1 ++ natLe 1 x.2.2.1 ++ natLe 1 x.2.2.2 ++ List.replicate 4 0

/-- Memory-controller and photonic edge stops of R213, and then the service stops, whose places R213 leaves to this table. -/
def stopList : List (Nat × Nat × Nat × Nat) :=
  (List.range 16).flatMap (fun k => (ctlCols k).map (fun x =>
    let t := k / 8 * 96 + ctlRow k * 12 + x
    (8, k, t, t)))
  ++ (List.range 4).flatMap (fun p => (List.range 4).map (fun r =>
    let t := p / 2 * 96 + (p % 2 * 4 + r) * 12 + (if p < 2 then 0 else 11)
    (9, p, t, t)))
  ++ Config.serviceStops.take 32

/-- STATUS and SLICE, and VD, of a unit (R347): its slice if any, whether it exists, is fenced, or is a port that is down. -/
def unitEntry (slice : Option (Nat × Slice)) (present fenced down : Bool) : Nat :=
  let k := (slice.map (·.1)).getD 0
  if !present then 0
  else if fenced then 4 + 65536 * k
  else if down then 5
  else
    match slice with
    | none => 1
    | some (k, x) => match x.vd? with
      | some v => 3 + 256 * v + 65536 * k
      | none => 2 + 65536 * k

def cgEntry (s : State) (g : Nat) : Nat :=
  let e := unitEntry (s.cgSlice g) (cgFused.testBit g) (cgBit s.pool.cgFenced g) false
  if e % 8 ≠ 3 then e
  else
    let v := (s.cgVd g).getD 0
    e + (if s.cgShared g then 3 * 16384
      else match s.cgLane v g with
        | some l => 2 * 16384 + 2 ^ 24 * l
        | none => if (s.vd v).spares.contains g then 16384 else 0)

def layoutCode : Layout → Nat
  | .standard => 0
  | .strong => 1
  | .sealed => 2
  | .scrubbed => 3

def pairEntry (s : State) (p : Nat) : Nat :=
  unitEntry (s.pairSlice p) true (pairBit s.pool.pairFenced p) false + 2 ^ 24 * (s.stack (p / 8)).bin + 2 ^ 26 * layoutCode (s.chan (2 * p)).layout

def portEntry (s : State) (p : Nat) : Nat :=
  let x := s.port p
  let m := x.mode.getD {}
  let up : Bool := x.st = .up
  unitEntry (s.portSlice p) true false (!up || portBit s.pool.portAside p)
    + 2 ^ 24 * (if up then x.laneMap.length else 0) + 2 ^ 28 * b2n m.lowFec + 2 ^ 29 * b2n m.parity

/-- The VF view hides a unit that is not bound to the function's VD (R348). -/
def vfEntry (f : Nat) (vd : Option Nat) (e : Nat) : Nat := if f = 0 ∨ vd = some f then e else 7

def coreEntry (s : State) (c : Nat) : Nat :=
  let here : Bool := cgFused.testBit (coreCg c)
  coreCol c + 16 * coreRow c + 128 * coreDie c + (if here then 256 * (s.core c).engOk.toNat else 0) + 65536 * coreCg c + 2 ^ 22 * b2n here

/-- FENCED_CH of a stack: the channels fenced, or whose pair is. -/
def fencedCh (s : State) (f n : Nat) : Nat :=
  maskOf ((List.range 16).filter (fun i =>
    let c := 16 * n + i
    ((s.chan c).fenced || pairBit s.pool.pairFenced (c / 2)) && (f = 0 || s.pairVd (c / 2) = some f)))

/-- The limits section: those of R324, then rings, queue pairs, work queues and services. -/
def capLimits : List Nat := [4096, 16384, 65536, 4194304, 262144, 1048576, 1024, 2048, 64, 64, 4096, 4096, 4096, 16]

/-- The 7,168 bytes of the table as a function sees them (R346), with key 64 for C1, whose FUNCTION and VD read 0 (R397); GEN is odd before step 12 (R500). -/
def capTable (s : State) (f : Nat) : List Byte :=
  let v := (activeImage s 2).version
  let cgs := (bitsOf 48 cgFused).length
  let stops := stopList
  let head := natLe 4 0x4B434150 ++ natLe 2 1 ++ natLe 2 7168 ++ natLe 4 (s.cmp.capGen + b2n (!s.boot.ready)) ++ natLe 1 (b2n (decide (f ≠ 0)))
    ++ natLe 1 (f % 64) ++ natLe 1 (f % 64)
    ++ natLe 1 stops.length ++ List.replicate 48 0
  let ident := natLe 2 gradeNo ++ natLe 2 stepping ++ natLe 1 1 ++ natLe 1 1 ++ natLe 2 (4 * cgs) ++ natLe 1 cgs ++ natLe 1 2 ++ natLe 1 3
    ++ List.replicate 5 0 ++ natLe 8 cgFused ++ natLe 8 serial ++ natLe 4 v ++ List.replicate 28 0
  let lims := sliceB (capLimits.flatMap (natLe 4)) 0 128
  let cgMap := (List.range 48).flatMap (fun g => natLe 4 (vfEntry f (s.cgVd g) (cgEntry s g)))
  let coreMap := (List.range 192).flatMap (fun c => natLe 4 (coreEntry s c))
  let pairMap := (List.range 64).flatMap (fun p => natLe 8 (vfEntry f (s.pairVd p) (pairEntry s p)))
  let portMap := (List.range 24).flatMap (fun p => natLe 8 (vfEntry f (s.portVd p) (portEntry s p)))
  let stackB := (List.range 8).flatMap (fun n =>
    natLe 1 (s.stack n).bin ++ natLe 1 (b2n (s.stack n).fromRecord) ++ natLe 2 (fencedCh s f n) ++ List.replicate 12 0)
  let dist := (List.range 192).flatMap (fun c => natLe 16 ((List.range 64).foldl (fun a p => a + distClass c p * 4 ^ p) 0))
  head ++ ident ++ lims ++ cgMap ++ List.replicate 64 0 ++ coreMap ++ pairMap ++ sliceB portMap 0 256 ++ stackB
    ++ sliceB (stops.flatMap stopBytes) 0 768 ++ List.replicate 1152 0 ++ dist

end Sys2Proof.Machine
end

