-- ==== Sys2Proof/Machine/Regs.lean ====
section
/-! DEFINITION. The registers of BAR0: what each reads, and the writes of those that have no command of their own (R6–R8, R101–R110,
R210, R211, R281, R282, R322, R323, R353, R354, R392, R393, R403–R405, R446, R447, R491, R492, R534, R535). -/

namespace Sys2Proof.Machine

/-- The blocks of BAR0 (R403, R404). -/
inductive Blk where
  | cap | gfe | int | xlt | cmp | pwr | mbx | tlk | sec | core
deriving DecidableEq, Repr

/-- The block and the offset in it of a BAR0 offset (R403, R404). -/
def blockAt (f off : Nat) : Option (Blk × Nat) :=
  if f = 0 then
    if off < 0x100000 then some (.cap, off)
    else if off < 0x200000 then some (.gfe, off - 0x100000)
    else if off < 0x400000 then some (.int, off - 0x200000)
    else if off < 0x800000 then some (.xlt, off - 0x400000)
    else if off < 0x1000000 then some (.cmp, off - 0x800000)
    else if off < 0x1800000 then some (.pwr, off - 0x1000000)
    else if off < 0x2000000 then some (.mbx, off - 0x1800000)
    else if off < 0x2800000 then some (.tlk, off - 0x2000000)
    else if off < 0x3000000 then some (.sec, off - 0x2800000)
    else if off < 0x3C00000 then some (.core, off - 0x3000000)
    else none
  else
    let o := off % 0x10000
    match off / 0x10000 with
    | 0 => some (.cap, o)
    | 1 => some (.gfe, o)
    | 2 => some (.int, o)
    | 3 => some (.xlt, o)
    | 4 => some (.cmp, o)
    | 5 => some (.mbx, o)
    | _ => none

/-- A half of a 64-bit register. -/
def half64 (x : Nat) (hi : Bool) : Nat := if hi then x / 2 ^ 32 % 2 ^ 32 else x % 2 ^ 32

/-- A 64-bit register after a write of one half. -/
def setHalf (x : Nat) (hi : Bool) (v : Nat) : Nat := if hi then x % 2 ^ 32 + v * 2 ^ 32 else x / 2 ^ 32 * 2 ^ 32 + v

def bit (x i : Nat) : Nat := b2n (x.testBit i)

/- Readings. -/

/-- STATE of a ring (R323). -/
def ringStateCode (x : Ring) : Nat :=
  match x.sh.st with
  | .error => 5
  | .destroying => 6
  | st => if x.waitFence.isSome then 4 else match st with | .active => 1 | .armed => 2 | _ => 3

/-- The ring that GFE_RING_SEL selects, if it is a live ring of the function. -/
def selRing (s : State) (f : Nat) : Option Ring := (s.ring? (.cmd (s.fn f).gfe.ringSel)).filter (fun x => x.fn = f)

/-- Launches in flight on a core. -/
def coreLaunches (s : State) (c : Nat) : List Nat := (s.gfe.launches.filter (fun p => p.2.cores.contains c)).map (·.1)

/-- Engines of a core that run a resident task. -/
def residents (s : State) (c : Nat) : Nat := maskOf ((coreEngs c).filterMap (fun e => if (engTask s e).isSome then some (engIdx e) else none))

def readGfe (s : State) (f off : Nat) : Nat :=
  let g := (s.fn f).gfe
  match off with
  | 0x00 => half64 g.sqBase false
  | 0x04 => half64 g.sqBase true
  | 0x08 => half64 g.cqBase false
  | 0x0C => half64 g.cqBase true
  | 0x10 => g.sqLog2 + 16 * g.cqLog2 + 256 * g.vector + 2 ^ 31 * b2n g.en
  | 0x14 => b2n (s.boot.ready && (f = 0 || (s.vd f).live)) + 2 * (s.gfe.rings.filter (fun p => p.2.fn = f)).length + 65536 * (s.gfe.pages.filter (fun p => p.1 / 4096 = f)).length
  | 0x18 => b2n g.overrun + 2 * b2n g.fetchFault + 4 * b2n g.cqFault + 8 * b2n g.adminErr
  | 0x1C => g.errRing % 4096 + 65536 * (g.errIndex % 65536)
  | 0x20 => g.ringSel
  | 0x24 => match selRing s f with
    | some x => ringStateCode x + 8 * b2n x.sh.pend + 65536 * (if ringStateCode x = 4 then x.waitFence.getD 0 % 65536 else 0)
    | none => 0
  | 0x28 => ((selRing s f).map (·.sh.head)).getD 0 % 2 ^ 32
  | 0x2C => ((selRing s f).map (·.sh.tail)).getD 0 % 2 ^ 32
  | 0x30 => g.stray + 65536 * g.overruns
  | 0x100 => if f = 0 then s.gfe.csqSel else 0
  | 0x104 => if f = 0 then (coreLaunches s s.gfe.csqSel).length + 256 * (32 - (bitsOf 32 (s.core s.gfe.csqSel).cbUsed.toNat).length)
      + 65536 * residents s s.gfe.csqSel else 0
  | 0x108 => if f = 0 then (coreLaunches s s.gfe.csqSel).headD 0 % 2 ^ 32 else 0
  | _ => 0

def readInt (s : State) (f off : Nat) : Nat :=
  let x := (s.fn f).int
  let p := s.pf f
  if off = 0x00 then half64 x.fenceBase false
  else if off = 0x04 then half64 x.fenceBase true
  else if off = 0x08 then b2n x.fenceEn
  else if off = 0x0C then x.lower + 65536 * x.rejected
  else if off = 0x10 then b2n x.warn + 2 * b2n x.spent + 4 * b2n x.mirrorFault
  else if off = 0x14 then x.info % 65536
  else if off = 0x18 then x.eventVector + 2 ^ 31 * b2n x.eventEn
  else if 0x800 ≤ off ∧ off < 0x1000 then
    if off % 32 = 0 then (let w := lookD x.sel ((off - 0x800) / 32) {}; w.fence % 65536 + 65536 * w.vector) else 0
  else if 0x1000 ≤ off ∧ off < 0x1000 + 16 * vecCount f then
    let w := lookD p.vecs ((off - 0x1000) / 16) {}
    match off % 16 with
    | 0 => half64 w.addr false
    | 4 => half64 w.addr true
    | 8 => w.data.toNat
    | _ => b2n w.masked
  else if 0xC000 ≤ off ∧ off < 0xC000 + vecCount f / 8 then
    maskOf ((p.pba.filter (fun v => v / 32 = (off - 0xC000) / 4)).map (· % 32))
  else 0

def ringCfg (r : RecRing) : Nat := r.log2 + 65536 * r.vector + 2 ^ 31 * b2n r.en

/-- The open faults of a function. -/
def openFaults (s : State) (f : Nat) : Nat := (s.xlt.faults.filter (fun p => p.2.fn = f)).length

def readXlt (s : State) (f off : Nat) : Nat :=
  let x := (s.fn f).xlt
  if f = 0 ∧ 0x8040 ≤ off ∧ off < 0x9000 then
    let d := lookD s.xlt.dlog ((off - 0x8000) / 64) {}
    match off % 64 with
    | 0x00 => b2n d.en + 4 * b2n d.swapDone + 8 * b2n d.active + 16 * b2n d.hostOvf
    | 0x08 => half64 d.hbase false
    | 0x0C => half64 d.hbase true
    | 0x10 => d.hpages
    | 0x18 => half64 d.set0 false
    | 0x1C => half64 d.set0 true
    | 0x20 => half64 d.set1 false
    | 0x24 => half64 d.set1 true
    | _ => 0
  else
    match off with
    | 0x00 => half64 x.fring.base false
    | 0x04 => half64 x.fring.base true
    | 0x08 => ringCfg x.fring
    | 0x0C => x.fring.prod % 65536
    | 0x10 => x.fring.cons % 65536
    | 0x18 => x.faultTimeout + 65536 * x.invLimit
    | 0x1C => x.fullStalls + 65536 * x.badResume
    | 0x20 => x.invIgnored + 65536 * openFaults s f
    | 0x28 => half64 x.nring.base false
    | 0x2C => half64 x.nring.base true
    | 0x30 => ringCfg x.nring
    | 0x34 => x.nring.prod % 65536
    | 0x38 => x.nring.cons % 65536
    | 0x3C => x.hotHost + 65536 * x.hotDev
    | 0x40 => x.dropped + 65536 * x.evicted
    | _ => 0

/-- STATE of CMP_VD_STATE (R282). -/
def vdStateCode (s : State) (v : Nat) : Nat :=
  let x := s.vd v
  if !x.live then 0
  else if x.teardown then 5
  else if x.posture.isSome then 4
  else
    match x.req with
    | some r =>
      if r.op = 5 ∨ (r.op = 6 ∧ (r.stage = .compute ∨ r.stage = .held)) then 4
      else if r.op = 6 ∧ (r.stage = .memory ∨ r.stage = .accepted) then 3
      else if s.vdWorking v = [] then 1 else 2
    | none => if s.vdWorking v = [] then 1 else 2

/-- CMP_VD_STATE of a VD. -/
def cmpState (s : State) (v : Nat) : Nat :=
  let x := s.vd v
  vdStateCode s v + 16 * (s.vdWorking v).length + 1024 * x.spares.length + 16384 * x.cls + 65536 * x.lastStatus

def readCmp (s : State) (v off : Nat) : Nat :=
  let x := s.vd v
  match off with
  | 0x00 => cmpState s v
  | 0x04 => x.gen
  | 0x08 => b2n x.leaving + 2 * b2n x.changed + 4 * b2n x.spareUsed + 8 * b2n (decide (x.spares.length < x.need)) + 16 * b2n x.laneChanged
  | 0x0C => 256 * x.vector + 2 ^ 31 * b2n x.noticeEn
  | 0x10 => half64 x.leave.toNat false
  | 0x14 => half64 x.leave.toNat true
  | _ => 0

/-- A temperature as an I16 of 0.1 °C. -/
def temp16 (t : Option Int) : Nat := (t.map (unsgn · 16)).getD 0

def pwrStatus (s : State) : Nat :=
  let gs := workingCgs s
  b2n s.pow.cur.fixed + 2 * levelOf s.pow.cur + 8 * b2n (gs.any (fun g => (s.cgPow g).capLimited)) + 16 * b2n s.pow.capUnmet
    + 32 * b2n (gs.any (fun g => decide (104 < cgStep s g))) + 64 * b2n (gs.any (fun g => (s.cgPow g).therm)) + 128 * b2n s.pow.throttleIn
    + 256 * b2n ((List.range 11).any (fun r => (s.rail r).proxyOnly))

def pwrCap (s : State) : Nat := effCap s.pow.cur + 4096 * b2n (decide (s.pow.cur.opCap < s.pow.cur.mgrCap))

def pwrBoard (s : State) : Nat := s.pow.board.headD 0 % 65536 + 65536 * (meanOf s.pow.board % 65536)

def cgStat (s : State) (g : Nat) : Nat :=
  let on := cgPowered s g
  stepMhz (cgStep s g) + 2048 * effDuty s g + 65536 * (if on then (s.cgPow g).volt else 0)
    + 2 ^ 26 * b2n ((cgCores g).any (fun c => (coreEngs c).any (fun e => (s.eng e).glide.isSome))) + 2 ^ 27 * b2n (cgHint s g).isSome

def cgTherm (s : State) (g : Nat) : Nat :=
  temp16 (hottest s (cgSensors g)) + 65536 * b2n ((cgSensors g).any (fun i => (s.sensor i).bad))

def readPwr (s : State) (off : Nat) : Nat :=
  let r := s.rail s.pow.railSel
  match off with
  | 0x00 => pwrStatus s
  | 0x04 => s.pow.alarm
  | 0x08 => pwrCap s
  | 0x0C => pwrBoard s
  | 0x10 => s.pow.window
  | 0x14 => s.pow.railSel
  | 0x18 => r.current % 4096 + 65536 * min 1000 r.thrLast
  | 0x1C => r.setMv % 4096 + 65536 * (r.readMv % 4096)
  | 0x20 => s.pow.cgSel
  | 0x24 => cgStat s s.pow.cgSel
  | 0x28 => cgTherm s s.pow.cgSel
  | 0x2C => temp16 (hottest s (List.range 64)) + 65536 * temp16 (hottest s ((List.range 64).map (64 + ·)))
  | _ => 0

/-- Read bytes of a sparse buffer of bytes. -/
def bytesOf (m : Map Byte) (a n : Nat) : List Byte := (List.range n).map (fun i => lookD m (a + i) 0)

def readMbx (s : State) (f off : Nat) : Nat :=
  let x : Mbx := lookD s.dun.mbx f {}
  if off = 0x00 then 65536 * x.vector + 2 ^ 31 * b2n x.irqEn
  else if off = 0x04 then b2n x.busy + 2 * b2n x.done + 65536 * x.ignored
  else if off = 0x08 then 0x1110
  else if 0x1000 ≤ off ∧ off < 0x3010 then leNat (bytesOf x.req (off - 0x1000) 4)
  else if 0x4000 ≤ off ∧ off < 0x6010 then fieldAt x.rsp (off - 0x4000) 4
  else 0

def portCode : PortSt → Nat
  | .off => 0
  | .training => 1
  | .negotiating => 2
  | .keying => 3
  | .up => 4
  | .renegotiating => 5
  | .down => 6

/-- TLK_PORT_STATE of a port (R393). -/
def portState (s : State) (p : Nat) : Nat :=
  let x := s.port p
  let up : Bool := x.st = .up
  let m := x.mode.getD {}
  portCode x.st + 8 * (if up then dataLanes x else 0) + 128 * b2n m.parity + 256 * b2n m.lowFec + 512 * b2n x.session + 1024 * b2n x.spareUsed
    + 2048 * x.reach + 65536 * (16 * (m.version / 256) + m.version % 16) + 2 ^ 24 * x.reason

/-- TLK_PORT_PEER of a port. -/
def portPeer (s : State) (p : Nat) : Nat :=
  match (s.port p).peerCaps with
  | some c => c.devId % 4096 + 4096 * b2n c.pool
  | none => 0

def readTlk (s : State) (off : Nat) : Nat :=
  let p := s.talko.portSel
  let x := s.port p
  match off with
  | 0x00 => if s.talko.devId ≤ 4095 then s.talko.devId + 2 ^ 31 else 0
  | 0x04 => p
  | 0x08 => portState s p
  | 0x0C => portPeer s p
  | 0x10 => b2n x.errLane + 2 * b2n x.errLaser + 4 * b2n x.errTag + 8 * b2n x.errNeg + 16 * b2n x.errLink
  | 0x14 => min 65535 x.replays + 65536 * min 65535 x.uncorr
  | 0x18 => min 65535 x.dropForward + 65536 * min 65535 x.dropPeer
  | _ => 0

/-- SEC_LC (R492). -/
def secLc (s : State) : Nat := s.otp.lc + 8 * b2n (debugLocked s) + 16 * s.otp.refurb + 65536 * s.otp.transitions

/-- SEC_STATUS (R492). -/
def secStatus (s : State) : Nat :=
  b2n s.sec.rootOk + 2 * b2n s.sec.rngFault + 4 * b2n s.sec.tableFault + 8 * b2n (s.sec.failedSlots ≠ []) + 16 * b2n (signFault s)
    + 32 * b2n s.sec.lmsLow + 64 * b2n (decide (lmsRemain s = 0))

def readSec (s : State) (off : Nat) : Nat :=
  let c := s.chain s.sec.amberSel
  match off with
  | 0x00 => secLc s
  | 0x04 => secStatus s
  | 0x08 => lmsRemain s
  | 0x0C => s.sec.slotFail + 128 * b2n s.sec.slotValid + 256 * min 255 s.sec.failedSlots.length
  | 0x10 => s.sec.amberSel
  | 0x18 => half64 c.seq false
  | 0x1C => half64 c.seq true
  | 0x20 => half64 c.cons false
  | 0x24 => half64 c.cons true
  | 0x28 => b2n c.drop + 2 * b2n (slotTaken c 0) + 4 * b2n c.push.en + 8 * min 127 c.leaves.length + 65536 * c.gaps
  | _ => 0

/-- STATE of CORE_STATE (R103). -/
def coreState (s : State) (c : Nat) : Nat :=
  let k := s.core c
  if !s.boot.running then 5
  else if cgBit s.pool.cgFenced (coreCg c) then 4
  else if !s.pow.locked ∨ (s.coreVd c).isNone then 0
  else if k.st = .switching then 3
  else if (coreEngs c).any (fun e => (s.eng e).run.isSome) ∨ k.tq ≠ [] then 2
  else 1

/-- The 32 bytes of a tile entry (R88). -/
def tileBytes (t : Tile) : List Byte :=
  natLe 4 t.launch ++ natLe 2 t.node
    ++ natLe 1 (b2n t.pinned + 2 * b2n t.noKsplit + 4 * b2n t.figures + 8 * b2n t.canon + 16 * b2n t.integer) ++ natLe 1 t.origin
    ++ natLe 2 t.mBlock ++ natLe 2 t.nBlock ++ natLe 4 t.kBegin ++ natLe 4 t.kEnd ++ natLe 2 t.tag.toNat ++ natLe 1 t.slot ++ [0]
    ++ natLe 4 t.cbOff ++ natLe 4 0

def readCore (s : State) (c off : Nat) : Nat :=
  let k := s.core c
  if !cgFused.testBit (coreCg c) then 0
  else if 0x100 ≤ off ∧ off < 0x120 then
    match k.tq[k.peekIdx]? with
    | some t => fieldAt (tileBytes t) (off - 0x100) 4
    | none => 0
  else
    match off with
    | 0x00 => c + 256 * coreCg c + 16384 * coreDie c + 32768 + 65536 * k.engOk.toNat
    | 0x04 => coreState s c + 65536 * k.curTag.toNat
    | 0x08 => k.switchGen.toNat
    | 0x10 => b2n k.engStealEn + 2 * b2n k.ksplitEn + 4 * b2n k.xcoreEn + 256 * k.ksplitMin + 65536 * k.xcoreMax + 2 ^ 24 * k.xcoreKeep
    | 0x18 => min 65535 k.engSteals + 65536 * min 65535 k.ksplits
    | 0x1C => min 65535 k.xcoreOut + 65536 * min 65535 k.xcoreIn
    | 0x20 => k.tq.length + 65536 * k.tqHigh
    | 0x24 => k.peekIdx
    | 0x28 => min 65535 k.drops
    | 0x30 => k.facetErr.toNat + 256 * k.facetCount
    | 0x34 => k.facetInfo0.toNat
    | 0x38 => k.facetInfo1.toNat
    | 0x40 => k.wdogLog2
    | _ => 0

/-- The 32-bit word that a register block of a function reads; reserved bits and offsets not defined read 0 (R7, R8, R403). -/
def readReg (s : State) (f : Nat) : Blk → Nat → Nat
  | .gfe, o => readGfe s f o
  | .int, o => readInt s f o
  | .xlt, o => readXlt s f o
  | .cmp, o => readCmp s f o
  | .pwr, o => readPwr s o
  | .mbx, o => readMbx s f o
  | .tlk, o => readTlk s o
  | .sec, o => readSec s o
  | .core, o => readCore s (o / 65536) (o % 65536)
  | .cap, o => fieldAt (capTable s f) o 4

/- Writes. -/

def modGfe (s : State) (f : Nat) (g : GfeFn → GfeFn) : State := s.modFn f (fun x => { x with gfe := g x.gfe })
def modInt (s : State) (f : Nat) (g : IntFn → IntFn) : State := s.modFn f (fun x => { x with int := g x.int })
def modXltFn (s : State) (f : Nat) (g : XltFn → XltFn) : State := s.modFn f (fun x => { x with xlt := g x.xlt })

/-- A register that must be aligned takes a write of a half, or stays unchanged. -/
def alignedHalf (old : Nat) (hi : Bool) (v align : Nat) : Nat :=
  let x := setHalf old hi v
  if x % align = 0 then x else old

def writeGfe (s : State) (f off v : Nat) : State :=
  match off with
  | 0x00 => modGfe s f (fun g => { g with sqBase := alignedHalf g.sqBase false v 4096 })
  | 0x04 => modGfe s f (fun g => { g with sqBase := alignedHalf g.sqBase true v 4096 })
  | 0x08 => modGfe s f (fun g => { g with cqBase := alignedHalf g.cqBase false v 4096 })
  | 0x0C => modGfe s f (fun g => { g with cqBase := alignedHalf g.cqBase true v 4096 })
  | 0x18 => modGfe s f (fun g => { g with
      overrun := g.overrun && !v.testBit 0, fetchFault := g.fetchFault && !v.testBit 1
      cqFault := g.cqFault && !v.testBit 2, adminErr := g.adminErr && !v.testBit 3 })
  | 0x20 => modGfe s f (fun g => { g with ringSel := v % 4096 })
  | 0x100 => if f = 0 ∧ v ≤ 191 then { s with gfe := { s.gfe with csqSel := v } } else s
  | _ => s

/-- INT_FENCE_CFG with EN = 1 is MIRROR_ENABLE; a 64-bit SIGNAL or ARM is its own command, and a 32-bit one is ignored (R337). -/
def writeInt (s : State) (f off v : Nat) : State :=
  if off = 0x00 then modInt s f (fun x => if x.fenceEn then x else { x with fenceBase := alignedHalf x.fenceBase false v 65536 })
  else if off = 0x04 then modInt s f (fun x => if x.fenceEn then x else { x with fenceBase := alignedHalf x.fenceBase true v 65536 })
  else if off = 0x08 then (if v.testBit 0 then s else modInt s f (fun x => { x with fenceEn := false }))
  else if off = 0x10 then modInt s f (fun x => { x with
      warn := x.warn && !v.testBit 0, spent := x.spent && !v.testBit 1, mirrorFault := x.mirrorFault && !v.testBit 2 })
  else if off = 0x18 then
    (if v % 2048 ≤ vectorMax f then modInt s f (fun x => { x with eventVector := v % 2048, eventEn := v.testBit 31 }) else s)
  else if 0x800 ≤ off ∧ off < 0x1000 ∧ off % 32 = 0 then
    (if fld v 16 11 ≤ vectorMax f then
      modInt s f (fun x => { x with sel := put x.sel ((off - 0x800) / 32) { fence := v % 65536, vector := fld v 16 11 } })
    else s)
  else if 0x1000 ≤ off ∧ off < 0x1000 + 16 * vecCount f then
    let i := (off - 0x1000) / 16
    let s := s.modPf f (fun p =>
      let w := lookD p.vecs i {}
      let w : MsixVec :=
        match off % 16 with
        | 0 => { w with addr := setHalf w.addr false v }
        | 4 => { w with addr := setHalf w.addr true v }
        | 8 => { w with data := BitVec.ofNat 32 v }
        | _ => { w with masked := v.testBit 0 }
      { p with vecs := put p.vecs i w })
    releaseVectors s f
  else s

/-- A fault or notify ring after a write of its CFG. -/
def cfgRing (r : RecRing) (v top : Nat) : RecRing :=
  if 6 ≤ v % 32 ∧ v % 32 ≤ top then { r with log2 := v % 32, vector := fld v 16 6, en := v.testBit 31 } else r

def modDlog (s : State) (f : Nat) (g : Dlog → Dlog) : State :=
  { s with xlt := { s.xlt with dlog := put s.xlt.dlog f (g (lookD s.xlt.dlog f {})) } }

/-- XLT_RESUME by halves is counted as bad; SWAP is a command of its own. -/
def writeXlt (s : State) (f off v : Nat) : State :=
  if f = 0 ∧ 0x8040 ≤ off ∧ off < 0x9000 then
    let g := (off - 0x8000) / 64
    match off % 64 with
    | 0x00 => modDlog s g (fun d => { d with en := v.testBit 0, swapDone := d.swapDone && !v.testBit 2, hostOvf := d.hostOvf && !v.testBit 4 })
    | 0x08 => modDlog s g (fun d => { d with hbase := alignedHalf d.hbase false v 4096 })
    | 0x0C => modDlog s g (fun d => { d with hbase := alignedHalf d.hbase true v 4096 })
    | 0x10 => modDlog s g (fun d => { d with hpages := v })
    | 0x18 => modDlog s g (fun d => { d with set0 := alignedHalf d.set0 false v 65536 })
    | 0x1C => modDlog s g (fun d => { d with set0 := alignedHalf d.set0 true v 65536 })
    | 0x20 => modDlog s g (fun d => { d with set1 := alignedHalf d.set1 false v 65536 })
    | 0x24 => modDlog s g (fun d => { d with set1 := alignedHalf d.set1 true v 65536 })
    | _ => s
  else
    match off with
    | 0x00 => modXltFn s f (fun x => { x with fring := { x.fring with base := alignedHalf x.fring.base false v 4096 } })
    | 0x04 => modXltFn s f (fun x => { x with fring := { x.fring with base := alignedHalf x.fring.base true v 4096 } })
    | 0x08 => modXltFn s f (fun x => { x with fring := cfgRing x.fring v 14 })
    | 0x10 => modXltFn s f (fun x => { x with fring := { x.fring with cons := v % 65536 } })
    | 0x18 =>
      if 1 ≤ v % 65536 ∧ v % 65536 ≤ 60000 ∧ 1 ≤ fld v 16 7 ∧ fld v 16 7 ≤ 100 then
        modXltFn s f (fun x => { x with faultTimeout := v % 65536, invLimit := fld v 16 7 })
      else s
    | 0x28 => modXltFn s f (fun x => { x with nring := { x.nring with base := alignedHalf x.nring.base false v 4096 } })
    | 0x2C => modXltFn s f (fun x => { x with nring := { x.nring with base := alignedHalf x.nring.base true v 4096 } })
    | 0x30 => modXltFn s f (fun x => { x with nring := cfgRing x.nring v 16 })
    | 0x38 => modXltFn s f (fun x => { x with nring := { x.nring with cons := v % 65536 } })
    | 0x3C => modXltFn s f (fun x => { x with hotHost := v % 65536, hotDev := v / 65536 % 65536 })
    | 0x48 => modXltFn s f (fun x => { x with badResume := satAdd 16 x.badResume 1 })
    | 0x4C => modXltFn s f (fun x => { x with badResume := satAdd 16 x.badResume 1 })
    | _ => s

/-- CMP_VD_CTL with MOVE_DONE = 1 is a command of its own. -/
def writeCmp (s : State) (f off v : Nat) : State :=
  match off with
  | 0x08 => s.modVd f (fun x => { x with
      leaving := x.leaving && !v.testBit 0, changed := x.changed && !v.testBit 1
      spareUsed := x.spareUsed && !v.testBit 2, laneChanged := x.laneChanged && !v.testBit 4 })
  | 0x0C => if v.testBit 0 then s else writeVdCtl s f false (fld v 8 6) (v.testBit 31)
  | _ => s

def writePwr (s : State) (off v : Nat) : State :=
  match off with
  | 0x04 => { s with pow := { s.pow with alarm := s.pow.alarm &&& (0x1FF - (v &&& 0x1FF)) } }
  | 0x14 => if v ≤ 10 then { s with pow := { s.pow with railSel := v } } else s
  | 0x20 => if v ≤ 47 then { s with pow := { s.pow with cgSel := v } } else s
  | _ => s

def modMbx (s : State) (f : Nat) (g : Mbx → Mbx) : State :=
  { s with dun := { s.dun with mbx := put s.dun.mbx f (g (lookD s.dun.mbx f {})) } }

/-- MBX_CTRL with GO = 1 is a command of its own. -/
def writeMbx (s : State) (f off v : Nat) : State :=
  if off = 0x00 then
    (if v.testBit 0 ∨ vectorMax f < fld v 16 11 then s else modMbx s f (fun x => { x with vector := fld v 16 11, irqEn := v.testBit 31 }))
  else if off = 0x04 then modMbx s f (fun x => { x with done := x.done && !v.testBit 1 })
  else if 0x1000 ≤ off ∧ off < 0x3010 then
    modMbx s f (fun x => { x with req := (List.range 4).foldl (fun m i => put m (off - 0x1000 + i) (BitVec.ofNat 8 (v / 256 ^ i))) x.req })
  else s

def writeTlk (s : State) (off v : Nat) : State :=
  match off with
  | 0x04 => if v ≤ 23 then { s with talko := { s.talko with portSel := v } } else s
  | 0x10 => s.modPort s.talko.portSel (fun x => { x with
      errLane := x.errLane && !v.testBit 0, errLaser := x.errLaser && !v.testBit 1, errTag := x.errTag && !v.testBit 2
      errNeg := x.errNeg && !v.testBit 3, errLink := x.errLink && !v.testBit 4 })
  | _ => s

/-- A write of SEC_AMBER_SEL above 63 leaves the register unchanged; SEC_AMBER_CONS is a command of its own (R492). -/
def writeSec (s : State) (off v : Nat) : State :=
  match off with
  | 0x0C => s.modSec (fun c => { c with slotValid := c.slotValid && !v.testBit 7 })
  | 0x10 => if v ≤ 63 then s.modSec (fun c => { c with amberSel := v }) else s
  | _ => s

/-- Registers of a core's window; CORE_ENG_RESET is a command of its own (R105, R107, R109, R110). -/
def writeCore (s : State) (c off v : Nat) : State :=
  if !cgFused.testBit (coreCg c) then s
  else
    match off with
    | 0x10 =>
      let m := fld v 8 4
      let x := fld v 16 8
      if 1 ≤ m ∧ 1 ≤ x ∧ x ≤ 64 then
        s.modCore c (fun k => { k with
          engStealEn := v.testBit 0, ksplitEn := v.testBit 1, xcoreEn := v.testBit 2, ksplitMin := m, xcoreMax := x, xcoreKeep := fld v 24 8 })
      else s
    | 0x24 => s.modCore c (fun k => { k with peekIdx := v % 256 })
    | 0x30 => s.modCore c (fun k => { k with facetErr := k.facetErr &&& ~~~ BitVec.ofNat 4 v })
    | 0x40 => if 20 ≤ v % 32 then s.modCore c (fun k => { k with wdogLog2 := v % 32 }) else s
    | _ => s

/-- A 32-bit write to a block (R7). -/
def writeReg (s : State) (f : Nat) (b : Blk) (off v : Nat) : State :=
  match b with
  | .gfe => writeGfe s f off v
  | .int => writeInt s f off v
  | .xlt => writeXlt s f off v
  | .cmp => writeCmp s f off v
  | .pwr => writePwr s off v
  | .mbx => writeMbx s f off v
  | .tlk => writeTlk s off v
  | .sec => writeSec s off v
  | .core => writeCore s (off / 65536) (off % 65536) v
  | .cap => s

/-- A register of 64 bits that is written whole by one 64-bit write. -/
def writeWhole (s : State) (f : Nat) (b : Blk) (off v : Nat) : State :=
  if b = .xlt ∧ off = 0x48 then
    (if v < 2 ^ 33 then s else modXltFn s f (fun x => { x with badResume := satAdd 16 x.badResume 1 }))
  else if b = .int ∧ 0x800 ≤ off ∧ off < 0x1000 ∧ off % 32 ≠ 0 then s
  else writeReg (writeReg s f b off (v % 2 ^ 32)) f b (off + 4) (v / 2 ^ 32)

/-- REGISTER_WRITE: an aligned write of 32 bits, or of 64. Before step 12 the mailbox alone is served (R500). -/
def execRegisterWrite (f : FnId) (off : BitVec 26) (wide : Bool) (v : W64) (s : State) : Host.Outcome State Fault Refusal :=
  let go (s : State) : State :=
    match blockAt f.val off.toNat with
    | none => s
    | some (b, o) =>
      if o % (if wide then 8 else 4) ≠ 0 then s
      else if wide then writeWhole s f.val b o v.toNat
      else writeReg s f.val b o (v.toNat % 2 ^ 32)
  let mbx : Bool := match blockAt f.val off.toNat with | some (.mbx, _) => true | _ => false
  doneKeep s (if mbx ∧ f.val = 0 ∧ s.boot.done.contains 8 then go s else hostGate s f.val go)

end Sys2Proof.Machine
end

