-- ==== Sys2Proof/Machine/Dunir.lean ====
section
/-! DEFINITION. The Dunir object dictionary: objects and their rights, messages, the checks of R528, and what objects read
(R522–R548). -/

namespace Sys2Proof.Machine

/- The dictionary (R526, R527, R540–R546). -/

/-- An object: index and subindex, TYPE code, STORAGE, the rights of Manager, Operator and Tenant (1 read, 2 write), size, rows, limits, and
which rows a Tenant has: 0 all, 1 by VD, 2 by channel, 3 by port, 4 by core group, 5 by VD × 64, 6 by the group's VD, 7 as COUNTERS says,
8 by context, 9 by the sample's VD (R524). -/
structure Obj where
  idx : Nat
  sub : Nat
  type : Nat
  storage : Nat
  mgr : Nat
  op : Nat
  ten : Nat
  size : Nat
  rows : Nat := 0
  lo : Nat := 0
  hi : Nat := 0
  dflt : Nat := 0
  own : Nat := 0
deriving DecidableEq, Repr

/-- STORAGE codes. -/
def stV : Nat := 0
def stP : Nat := 1
def stF : Nat := 2

/-- TYPE codes. -/
def tBool : Nat := 1
def tU8 : Nat := 2
def tU16 : Nat := 3
def tU32 : Nat := 4
def tU64 : Nat := 5
def tF32 : Nat := 8
def tStr : Nat := 9
def tOct : Nat := 10
def tTab : Nat := 11

/-- Bytes of an element of a type. -/
def elemSize (t : Nat) : Nat := [0, 1, 1, 2, 4, 8, 4, 8, 4].getD t 0

/-- An object of one element. -/
def num (idx sub type st m o t lo hi d : Nat) : Obj :=
  { idx := idx, sub := sub, type := type, storage := st, mgr := m, op := o, ten := t, size := elemSize type, lo := lo, hi := hi, dflt := d }

/-- An object of bytes. -/
def oct (idx sub type st m o t n : Nat) : Obj := { idx := idx, sub := sub, type := type, storage := st, mgr := m, op := o, ten := t, size := n }

/-- A TABLE. -/
def tab (idx sub st m o t rows n own : Nat) : Obj :=
  { idx := idx, sub := sub, type := tTab, storage := st, mgr := m, op := o, ten := t, size := n, rows := rows, own := own }

def max16 : Nat := 0xFFFF
def max32 : Nat := 0xFFFFFFFF
def max64 : Nat := 0xFFFFFFFFFFFFFFFF

/-- R540. -/
def objsIdentity : List Obj :=
  [num 0x1000 1 tU16 stF 1 1 1 0 max16 0x1F7C, num 0x1000 2 tU16 stF 1 1 1 160 184 gradeNo, num 0x1000 3 tU16 stF 1 1 1 0 max16 stepping,
   num 0x1000 4 tU64 stF 1 1 1 0 max64 serial, num 0x1000 5 tU64 stF 1 1 1 0 max64 cgFused, oct 0x1000 6 tStr stF 1 1 1 16]
  ++ (List.range 5).map (fun i => num 0x1001 (i + 1) tU32 stV 1 1 1 0 max32 0)
  ++ [oct 0x1002 1 tOct stV 1 1 1 7168]
  ++ (List.range 7).map (fun i => num 0x1003 (i + 1) tU16 stV 1 1 1 0 max16 0)

/-- R541. -/
def objsComposition : List Obj :=
  [oct 0x2000 1 tOct stV 2 0 0 64, tab 0x2001 1 stV 1 1 1 64 16 1, tab 0x2002 1 stP 1 1 0 128 32 0, tab 0x2003 1 stP 3 0 1 64 8 1,
   num 0x2004 1 tU16 stP 3 0 0 16 256 32, num 0x2004 2 tU8 stP 3 0 0 5 50 10, num 0x2004 3 tU32 stP 3 0 0 256 65536 4096,
   num 0x2004 4 tU32 stP 3 0 0 10 100000 1000, num 0x2004 5 tU32 stP 3 0 0 100 100000 2000, num 0x2004 6 tU32 stP 3 0 0 20 10000 1000,
   num 0x2004 7 tU32 stP 3 0 0 1 3600 60, tab 0x2005 1 stP 3 0 0 8 1 0, oct 0x2005 2 tOct stP 3 0 0 16, tab 0x2006 1 stV 3 0 0 32 516 0,
   tab 0x2007 1 stP 3 0 0 128 32 0]

/-- R542. -/
def objsPower : List Obj :=
  [num 0x3000 1 tU16 stP 1 3 0 700 2400 2400, num 0x3000 2 tU16 stP 3 1 0 700 2400 2200, num 0x3000 3 tU8 stP 3 1 0 0 3 1,
   num 0x3000 4 tU16 stP 1 3 0 0 200 0, num 0x3000 5 tU8 stP 3 1 0 0 1 0, num 0x3000 6 tBool stP 3 1 0 0 1 1, num 0x3000 7 tU16 stP 1 3 0 0 0x1FF 0x1FF,
   tab 0x3001 1 stP 3 1 1 64 2 1, tab 0x3002 1 stP 3 1 0 11 2 0, num 0x3003 1 tU8 stP 3 0 0 0 16 14, num 0x3003 2 tU8 stP 3 0 0 0 16 8,
   num 0x3003 3 tU8 stP 3 0 0 0 100 5, num 0x3003 4 tU8 stP 3 0 0 5 100 25, num 0x3003 5 tF32 stP 3 0 0 0x3E99999A 0x3F800000 0x3F19999A,
   oct 0x3004 1 tOct stV 1 1 0 16]

/-- R543. -/
def objsSecurity : List Obj :=
  [num 0x4000 1 tU8 stF 1 1 1 0 5 2, num 0x4000 2 tU32 stV 1 1 0 0 max32 0, oct 0x4001 1 tOct stV 0 2 0 4096, num 0x4001 2 tBool stV 2 0 0 0 1 0,
   oct 0x4001 3 tOct stV 2 0 0 512, tab 0x4002 1 stP 3 1 1 64 4 1, tab 0x4003 1 stP 3 0 0 64 16 0, num 0x4003 2 tU32 stP 3 0 0 10 3600 30,
   num 0x4003 3 tBool stV 2 0 0 0 1 0, tab 0x4004 1 stV 2 0 2 64 1 1, tab 0x4005 1 stV 1 0 3 64 24 1, tab 0x4006 1 stV 1 0 1 4096 8192 5,
   oct 0x4007 1 tOct stV 2 0 2 12, num 0x4007 2 tU64 stV 2 0 2 0 max64 0, oct 0x4008 1 tOct stV 0 0 2 192, oct 0x4008 2 tOct stV 0 0 2 24,
   oct 0x4008 3 tOct stV 0 0 1 16]

/-- R544. -/
def objsFabric : List Obj :=
  [num 0x5000 1 tU16 stP 3 1 0 0 4095 0xFFFF, tab 0x5001 1 stP 3 0 0 4096 4 0, tab 0x5002 1 stP 3 1 1 24 4 3, tab 0x5003 1 stP 3 0 0 24 64 0,
   tab 0x5004 1 stP 3 0 0 64 48 0, tab 0x5005 1 stP 3 0 1 256 40 6, num 0x5006 1 tU32 stP 3 0 0 10 100000 10000, tab 0x6000 1 stP 3 0 0 8 1 0,
   num 0x6000 2 tU16 stP 3 0 0 1 1024 16, tab 0x6001 1 stV 1 1 1 128 16 2, tab 0x6001 2 stV 1 0 0 2 4 0, tab 0x6001 3 stV 1 1 0 256 16 0,
   tab 0x7000 1 stV 1 0 1 200 640 7, tab 0x7001 1 stV 1 0 1 262144 80 8, tab 0x7002 1 stV 1 0 1 64 128 1, tab 0x7003 1 stV 1 1 1 48 8 4,
   tab 0x7003 2 stV 1 0 1 64 16 1, tab 0x7004 1 stV 1 1 1 24 8 3]

/-- R545 and R546. -/
def objsRecovery : List Obj :=
  [tab 0x8000 1 stP 1 1 0 65536 64 0, num 0x8000 2 tU32 stP 1 1 0 0 max32 0, oct 0x8001 1 tOct stV 2 2 0 4, tab 0x8002 1 stP 2 0 0 14336 4096 0,
   num 0x8002 2 tBool stV 2 0 0 0 1 0, tab 0x8003 1 stP 3 1 0 8 2 0, tab 0x8004 1 stP 3 0 0 2 8 0, tab 0x8005 1 stV 1 0 1 16384 8192 9,
   num 0x8006 1 tU32 stV 1 1 0 0 max32 0, tab 0x9000 1 stV 1 1 0 9 8 0, tab 0x9001 1 stP 1 3 0 4 1 0, num 0x9001 2 tU8 stV 1 3 0 0 15 0,
   num 0x9002 1 tU8 stP 1 3 0 0 1 0, num 0x9002 2 tU8 stP 1 3 0 1 62 31, num 0x9003 1 tU16 stP 1 3 0 0 max16 0, oct 0x9004 1 tOct stV 3 0 0 16,
   tab 0x9004 2 stV 1 0 0 2 32 0, tab 0x9004 3 stV 1 0 0 131072 32 0]

def objList : List Obj := objsIdentity ++ objsComposition ++ objsPower ++ objsSecurity ++ objsFabric ++ objsRecovery

/-- The highest subindex in use of an index; 0 where no object has it (R526). -/
def topSub (idx : Nat) : Nat := (objList.filter (fun o => o.idx = idx)).foldl (fun m o => max m o.sub) 0

/-- The object of an index and subindex; subindex 00 is a U8 that every role reads. -/
def objAt (idx sub : Nat) : Option Obj :=
  if sub = 0 then (if topSub idx = 0 then none else some (num idx 0 tU8 stF 1 1 1 0 0xFF (topSub idx)))
  else objList.find? (fun o => o.idx = idx && o.sub = sub)

/- Messages (R522–R525). -/

/-- A request: who sent it (a number for each requester), its role (0 Manager, 1 Operator, 2 Tenant, 3 Vendor) and function, the header's
fields, and the data bytes that came. -/
structure DReq where
  who : Nat := 0
  role : Nat := 0
  fn : Nat := 0
  ver : Nat := 0
  op : Nat := 0
  status : Nat := 0
  flags : Nat := 0
  tag : Nat := 0
  idx : Nat := 0
  sub : Nat := 0
  rsvd : Nat := 0
  len : Nat := 0
  row : Nat := 0
  size : Nat := 0
  data : List Byte := []
deriving DecidableEq, Repr

/-- The requester of a transport. -/
def whoOf : DSrc → Nat
  | .mailbox f => f.val
  | .doe f => 64 + f.val
  | .mctp ep _ _ _ => 128 + ep.val
  | .vendor _ => 512

/-- The role that a path gives, and its function (R522, R523). -/
def roleOf : DSrc → Nat × Nat
  | .mailbox f => (if f.val = 0 then 0 else 2, f.val)
  | .doe f => (if f.val = 0 then 0 else 2, f.val)
  | .mctp _ _ _ _ => (1, 0)
  | .vendor _ => (3, 0)

/-- A request of the bytes of a message. -/
def parseReq (src : DSrc) (m : List Byte) : DReq :=
  let len := fieldAt m 10 2
  { who := whoOf src, role := (roleOf src).1, fn := (roleOf src).2, ver := fieldAt m 0 1, op := fieldAt m 1 1, status := fieldAt m 2 1,
    flags := fieldAt m 3 1, tag := fieldAt m 4 2, idx := fieldAt m 6 2, sub := fieldAt m 8 1, rsvd := fieldAt m 9 1, len := len,
    row := fieldAt m 12 4, size := m.length, data := (m.drop 16).take len }

/-- A response: header, then the data (R525, R529, R536). -/
def rspBytes (q : DReq) (status : Nat) (data : List Byte) : List Byte :=
  natLe 1 (if q.ver / 16 = 1 ∧ 1 < q.ver % 16 then 0x11 else q.ver) ++ natLe 1 (q.op ||| 0x80) ++ natLe 1 status ++ [0] ++ natLe 2 q.tag
    ++ natLe 2 q.idx ++ natLe 1 q.sub ++ [0] ++ natLe 2 data.length ++ natLe 4 q.row ++ data

/- Checks (R528). -/

def opRead : Nat := 1
def opWrite : Nat := 2
def opDescribe : Nat := 3
def opVersion : Nat := 4

/-- Rights of a role in an object, with bit 0 read and bit 1 write; the Vendor has those of Manager and Operator (R523). -/
def rightsOf (o : Obj) : Nat → Nat
  | 0 => o.mgr
  | 1 => o.op
  | 2 => o.ten
  | _ => o.mgr ||| o.op

/-- Whether a role reaches an index at all: SCRAP leaves the identity objects, and so does a VF without its VD (R248, R448). -/
def idxOpen (s : State) (q : DReq) : Bool :=
  let ident : Bool := decide (0x1000 ≤ q.idx ∧ q.idx ≤ 0x1003)
  (ident || s.otp.lc ≠ 5) && (ident || q.role ≠ 2 || (s.vd q.fn).live || (q.idx = 0x2001 && q.sub = 1))

/-- The sample that a slot of a die holds in its dump region. -/
def sampleIn (s : State) (die slot : Nat) : Option Sample := s.dump.slots.find? (fun x => x.die = die && x.seq % 512 = slot)

/-- Whether a row is one of a Tenant's own (R524). -/
def ownRow (s : State) (own v row : Nat) : Bool :=
  match own with
  | 0 => true
  | 1 => row = v
  | 2 => s.pairVd (row / 2) = some v
  | 3 => s.portVd row = some v
  | 4 => s.cgVd row = some v
  | 5 => row / 64 = v
  | 6 => match look s.talko.peers row with
    | some g => g.group ≠ 0 && g.vd = v
    | none => false
  | 7 => if row < 128 then s.pairVd (row / 2) = some v else if 176 ≤ row then s.portVd (row - 176) = some v else false
  | 8 => decide (row < 4096)
  | _ => ((sampleIn s (row / 16 / 512) (row / 16 % 512)).map (fun x => decide (x.vd = v))).getD false

def rowSeen (s : State) (q : DReq) (o : Obj) : Bool :=
  if o.type ≠ tTab then q.row = 0
  else if q.op = opRead ∧ q.row = max32 then true
  else decide (q.row < o.rows) && (q.role ≠ 2 || ownRow s o.own q.fn q.row)

/-- Checks 1 to 5: a failing status, or the object. VERSION needs no object, and DESCRIBE no row. -/
def preCheck (s : State) (q : DReq) : Except Nat (Option Obj) :=
  let short : Bool := decide (q.size < 16 ∨ q.data.length < q.len)
  if short ∨ q.status ≠ 0 ∨ 1 < q.flags ∨ q.rsvd ≠ 0 ∨ q.op < 1 ∨ 4 < q.op ∨ 8192 < q.len then .error duField
  else if q.ver / 16 ≠ 1 ∨ (q.op = opDescribe ∧ q.ver % 16 = 0) then .error duVersion
  else if !s.boot.ready ∧ !(q.op = opRead ∧ q.idx = 0x8000) then .error duNotReady
  else if q.op = opVersion then (if q.len = 0 then .ok none else .error duLength)
  else
    match objAt q.idx q.sub with
    | none => .error duNoObject
    | some o =>
      if !idxOpen s q then .error duNoObject
      else if q.op = opDescribe then (if q.len = 0 then .ok (some o) else .error duLength)
      else if !rowSeen s q o then .error duNoObject
      else if !(rightsOf o q.role).testBit (q.op - 1) then .error duAccess
      else if q.len ≠ (if q.op = opRead then 0 else o.size) then .error duLength
      else .ok (some o)

/- What objects read. -/

def describe (o : Obj) : List Byte :=
  let plain : Bool := decide (o.type < tStr)
  natLe 1 o.type ++ natLe 1 o.storage ++ natLe 1 (o.mgr + 4 * o.op + 16 * o.ten + 64 * (o.mgr ||| o.op)) ++ [0] ++ natLe 2 o.size ++ [0, 0]
    ++ natLe 4 o.rows ++ natLe 4 0 ++ natLe 8 (if plain then o.lo else 0) ++ natLe 8 (if plain then o.hi else 0)
    ++ natLe 8 (if plain then o.dflt else 0)

def asciiBytes (x : String) : List Byte := x.toList.map (fun c => BitVec.ofNat 8 c.toNat)

/-- The order code of the grade (R1). -/
def orderCode : List Byte := asciiBytes "NVB-PKF184-CB1"

def sliceRow (s : State) (k : Nat) : List Byte :=
  match look s.pool.slices k with
  | none => List.replicate 32 0
  | some x =>
    let st : Nat × Nat := match x.st with
      | .carved => (1, 0)
      | .bound v => (2, v)
      | .marked v => (3, v)
      | .releasing => (4, 0)
      | .shared => (5, 0)
    natLe 1 st.1 ++ natLe 1 st.2 ++ natLe 1 (b2n x.isShared) ++ [0] ++ natLe 8 x.cgs.toNat ++ natLe 8 x.pairs.toNat ++ natLe 4 x.ports.toNat
      ++ List.replicate 8 0

def vdParamRow (s : State) (v : Nat) : List Byte :=
  let x := s.vd v
  let t : VdTc := lookD s.net.vdTc v {}
  natLe 2 x.hold ++ natLe 1 t.bulk ++ natLe 1 t.sprint ++ natLe 1 t.move ++ natLe 1 t.allowed ++ natLe 1 (b2n x.telemetry) ++ [0]

/-- A wheel as last written: its shadow while one waits (R222). -/
def wheelRow (s : State) (w : Nat) : List Byte :=
  let x : Wheel := lookD s.net.wheels w {}
  let p := x.shadow.getD (x.len, x.slots)
  natLe 2 p.1 ++ natLe 1 (b2n x.auto) ++ [0] ++ p.2.flatMap (natLe 2)

def shareRow (s : State) (c : Nat) : List Byte :=
  (lookD s.net.shares c defaultShares).flatMap (fun x => natLe 1 x.resvRd ++ natLe 1 x.resvWr ++ natLe 1 x.capRd ++ natLe 1 x.capWr)

def regionRow (s : State) (v : Nat) : List Byte :=
  let c := s.chain v
  if c.sizeLog2 = 0 then List.replicate 16 0 else natLe 8 c.dpa ++ natLe 1 c.sizeLog2 ++ natLe 1 (b2n c.drop) ++ List.replicate 6 0

def pushRow (s : State) (v : Nat) : List Byte :=
  let p := (s.chain v).push
  natLe 8 p.base ++ natLe 1 p.log2 ++ natLe 1 (b2n p.en) ++ natLe 2 p.vector ++ natLe 4 0 ++ natLe 8 p.cons

def unsealRow (s : State) (v : Nat) : List Byte :=
  let u : Unseal := (look s.sec.unseals v).getD {}
  natLe 1 u.st ++ List.replicate 7 0 ++ natLe 8 u.seq

def windowRow (w : Window) : List Byte :=
  if w = {} then List.replicate 48 0
  else natLe 1 w.vd ++ List.replicate 7 0 ++ natLe 8 w.base ++ natLe 8 w.len ++ natLe 8 w.dpa
    ++ (List.range 8).flatMap (fun i => natLe 2 (w.sources.getD i 0xFFFF))

def peerRow (g : PeerGroup) : List Byte :=
  natLe 4 g.group ++ natLe 1 g.vd ++ natLe 1 g.nDev ++ natLe 1 g.rank ++ natLe 1 g.root ++ natLe 1 g.egress ++ [0]
    ++ (List.range 24).flatMap (fun i => natLe 1 (g.counts.getD i 0)) ++ List.replicate 6 0

/-- The degrading rows of every channel, channel by channel: channel, row number and corrections of the last 24 h (R156). -/
def degradingRows (s : State) : List (Nat × Nat × Nat) :=
  s.mem.chans.flatMap (fun p => p.2.degrading.map (fun r => (p.1, r, (lookD p.2.rows r []).length)))

/-- A row of COUNTERS: the cycle count of the resource's domain, and its counters (R229). Slots served and lent at wheels, and bytes at bridge and
photonic ports, follow from traffic that the model does not carry: free values. -/
def counterRow (s : State) (k : Nat) (row : Nat) : List Byte :=
  let bridge (i : Nat) : Nat := if i % 2 = 0 then 49 + i / 8 * 2 else 52 + i / 8 * 2
  let dom := if row < 128 then 56 + row / 8 else if row < 144 then 56 + (row - 128) else if row < 176 then bridge (row % 16) else 72 + (row - 176)
  let free (n : Nat) : List Byte := (List.range n).flatMap (fun i => natLe 8 (Config.trafficCount k i).toNat)
  let cs := if row < 128 then (lookD s.net.chanBytes row (List.replicate 16 0)).flatMap (natLe 8)
    else if row < 160 then free 16 else if row < 176 then free 72 else free 16
  sliceB (natLe 8 (lookD s.pow.cycles dom 0 / 64) ++ cs) 0 640

/-- A counter set (R350). -/
def setBytes (s : State) (k f ctx : Nat) : List Byte :=
  let c : CounterSet := lookD s.obj.sets k {}
  let mine := (s.obj.refs.filter (fun r => r.2.ctx = ctx && r.1 / 2 ^ 32 = f)).filterMap (fun r => look s.obj.objs r.2.obj)
  let sum (host : Bool) : Nat := ((mine.filter (fun o => o.host = host)).map (·.size)).sum
  natLe 2 ctx ++ List.replicate 6 0 ++ natLe 8 c.launches ++ natLe 8 c.tiles ++ natLe 8 (c.enginePs / 1000) ++ natLe 8 c.xferBytes ++ natLe 4 c.faults
    ++ natLe 4 c.failed ++ natLe 8 (sum false) ++ natLe 8 (sum true) ++ natLe 8 c.memPeak ++ natLe 8 s.s0

/-- MPIO users as OWNERSHIP codes them (R546). -/
def mpioUser (f : Nat) : Nat := [5, 6, 3, 4, 7].getD f 0

/-- A row of OWNERSHIP (R538, R546). -/
def ownershipRow (s : State) (r : Nat) : List Byte :=
  let x : Nat × Nat × Nat × Nat :=
    if r < 2 then (1, (if (s.traceDie r).en || (s.traceDie r).recs ≠ [] then 2 else if s.dump.sram.any (fun y => y.die = r) then 1 else 0), 0x02, 1)
    else if r = 2 then (3, mpioUser (s.pins.mpio.getD 0 2), 0, 3)
    else if r < 6 then ((if r = 3 then 4 else 5), mpioUser (s.pins.mpio.getD (r - 2) 0), 0x78, 2)
    else if r < 8 then
      (1, (if s.dump.region.getD (r - 6) 0 ≠ 0 then 1
        else if s.chains.any (fun c => decide (0 < c.2.sizeLog2) && pairDie (dpaPair c.2.dpa) = r - 6) then 8 else 0), 0x80, 2)
    else (9, (if s.obj.sets = [] then 0 else 9), 0, 4)
  natLe 1 r ++ natLe 1 x.1 ++ natLe 1 x.2.1 ++ natLe 1 x.2.2.1 ++ natLe 1 x.2.2.2 ++ [0, 0, 0]

/-- The tags of SEALED VDs. -/
def sealedTags (s : State) : List Nat := ((s.cmp.vds.filter (fun p => p.2.live && p.2.posSealed)).map (fun p => p.2.tag.toNat))

/-- The units of a sample record as (offset, bytes, recorded tag): blocks of the scratchpad, then lines of the LOS (R519). -/
def sampleUnits (b : List Byte) : List (Nat × Nat × Nat) :=
  (List.range 768).map (fun i => (256 + 64 * i, 64, fieldAt b (49408 + 8 * i) 2 % 4096))
    ++ (List.range 256).map (fun i => (55552 + 128 * i, 128, fieldAt b (88320 + 2 * i) 2 % 4096))

/-- A part of a sample record: units of hidden tags read as zeros (R474, R520). -/
def samplePart (b : List Byte) (hide : Nat → Bool) (part : Nat) : List Byte :=
  let lo := 8192 * part
  let us := (sampleUnits b).filter (fun u => hide u.2.2 && decide (lo < u.1 + u.2.1 ∧ u.1 < lo + 8192))
  let b := us.foldl (fun b u => pokeB b u.1 (List.replicate u.2.1 0)) b
  sliceB b lo 8192

/-- Whether a part of a sample beyond its first holds a unit of a SEALED VD (R474, R520). -/
def partSealed (s : State) (b : List Byte) (part : Nat) : Bool :=
  let lo := 8192 * part
  part ≠ 0 && (sampleUnits b).any (fun u => (sealedTags s).contains u.2.2 && decide (lo < u.1 + u.2.1 ∧ u.1 < lo + 8192))

/-- A trace record, or one with KIND 0xFF where a sample took its sixteenth (R547). -/
def traceRow (s : State) (die i : Nat) : List Byte :=
  let t := s.traceDie die
  if t.lost.testBit (i / 4096) then List.replicate 8 0 ++ [0xFF] ++ List.replicate 23 0 else sliceB (lookD t.recs i []) 0 32

/-- What a row that stands in flash or waits to be committed reads. -/
def storedVal (s : State) (idx sub d : Nat) : Nat :=
  ((look s.dun.vals (objKey idx sub 0)).map leNat).getD (objValue s idx sub d)

/-- The bytes of an object or row; none where the row is absent. `k` numbers the free values of this read. -/
def readObj (s : State) (q : DReq) (k : Nat) : Option (List Byte) :=
  let r := q.row
  let key := q.idx * 256 + q.sub
  let w := s.pow.written
  if q.sub = 0 then some (natLe 1 (topSub q.idx))
  else if key = 0x100001 then some (natLe 2 0x1F7C)
  else if key = 0x100002 then some (natLe 2 gradeNo)
  else if key = 0x100003 then some (natLe 2 stepping)
  else if key = 0x100004 then some (natLe 8 serial)
  else if key = 0x100005 then some (natLe 8 cgFused)
  else if key = 0x100006 then some (sliceB orderCode 0 16)
  else if key = 0x100105 then some (natLe 4 (activeSet s).seq)
  else if q.idx = 0x1001 then some (natLe 4 (activeImage s q.sub).version)
  else if key = 0x100201 then some (capTable s (if q.role = 2 then q.fn else 0))
  else if q.idx = 0x1003 then some (natLe 2 (ifVersions.getD (q.sub - 1) 0))
  else if key = 0x200101 then some (natLe 4 (cmpState s r) ++ natLe 4 (s.vd r).gen ++ natLe 8 (s.vd r).leave.toNat)
  else if key = 0x200201 then some (sliceRow s r)
  else if key = 0x200301 then some (vdParamRow s r)
  else if key = 0x200401 then some (natLe 2 s.mem.retryGap)
  else if key = 0x200402 then some (natLe 1 s.mem.convShare)
  else if key = 0x200403 then some (natLe 4 s.net.relayWait)
  else if key = 0x200404 then some (natLe 4 s.net.mcTimeout)
  else if key = 0x200405 then some (natLe 4 s.cmp.residentWait)
  else if key = 0x200406 then some (natLe 4 s.cmp.liftTimeout)
  else if key = 0x200407 then some (natLe 4 s.cmp.meterPeriod)
  else if key = 0x200501 then some (natLe 1 (s.net.kinds.getD r 0))
  else if key = 0x200502 then some ((List.range 16).flatMap (fun i => natLe 1 (s.net.frame.getD i 0)))
  else if key = 0x200601 then some (wheelRow s r)
  else if key = 0x200701 then some (shareRow s r)
  else if key = 0x300001 then some (natLe 2 w.opCap)
  else if key = 0x300002 then some (natLe 2 w.mgrCap)
  else if key = 0x300003 then some (natLe 1 (levelOf w))
  else if key = 0x300004 then some (natLe 2 w.laserAllow)
  else if key = 0x300005 then some (natLe 1 (b2n w.fixed))
  else if key = 0x300006 then some (natLe 1 (b2n w.boostEn))
  else if key = 0x300007 then some (natLe 2 w.alarmMask)
  else if key = 0x300101 then some (natLe 2 (lookD w.budgets r 0))
  else if key = 0x300201 then some (natLe 1 (w.i10.getD r 90) ++ natLe 1 (w.i1ms.getD r 80))
  else if key = 0x300301 then some (natLe 1 w.glideFrac)
  else if key = 0x300302 then some (natLe 1 w.glideLow)
  else if key = 0x300303 then some (natLe 1 w.glideHold)
  else if key = 0x300304 then some (natLe 1 w.glideSlope)
  else if key = 0x300305 then some (natLe 4 w.memFloor.toNat)
  else if key = 0x300401 then some (natLe 4 (pwrStatus s) ++ natLe 4 s.pow.alarm ++ natLe 4 (pwrCap s) ++ natLe 4 (pwrBoard s))
  else if key = 0x400001 then some (natLe 1 s.otp.lc)
  else if key = 0x400002 then some (natLe 4 (secStatus s))
  else if key = 0x400201 then some (natLe 1 (b2n (s.vd r).posSealed) ++ natLe 1 (lookD s.sec.postSt r 0) ++ [0, 0])
  else if key = 0x400301 then some (regionRow s r)
  else if key = 0x400302 then some (natLe 4 s.sec.signPeriod)
  else if key = 0x400501 then some (pushRow s r)
  else if key = 0x400601 then
    let c := s.chain (r / 64)
    if c.sizeLog2 = 0 then none else some (readDpaVd s 0 (c.dpa + 2 ^ c.sizeLog2 + r % 64 * 8192) 8192).1
  else if key = 0x400803 then some (unsealRow s q.fn)
  else if key = 0x500001 then some (natLe 2 s.talko.devId)
  else if key = 0x500101 then
    let x : Route := lookD s.talko.routes r {}
    some (natLe 4 (x.ports + 2 ^ 24 * b2n x.valid + 2 ^ 25 * b2n x.direct))
  else if key = 0x500201 then some (natLe 1 (s.port r).encPolicy ++ natLe 1 (s.port r).fecPolicy ++ [0, 0])
  else if key = 0x500301 then some (sliceB (s.port r).peerPolicy 0 64)
  else if key = 0x500401 then some (windowRow (lookD s.talko.windows r {}))
  else if key = 0x500501 then some (peerRow (lookD s.talko.peers r {}))
  else if key = 0x500601 then some (natLe 4 s.talko.peerWait)
  else if key = 0x600001 then some (natLe 1 (s.stack r).patrolHours)
  else if key = 0x600002 then some (natLe 2 s.mem.degradeAt)
  else if key = 0x600101 then
    let c := s.chan r
    some (natLe 4 c.corr ++ natLe 4 c.uncorr ++ natLe 4 c.ecs ++ natLe 4 c.macFail)
  else if key = 0x600102 then some (natLe 4 (s.mem.llcDrops.getD r 0))
  else if key = 0x600103 then
    match (degradingRows s)[r]? with
    | some (c, x, n) => some (natLe 1 c ++ natLe 1 (x / 2 ^ 32) ++ [0, 0] ++ natLe 4 x ++ natLe 4 n ++ natLe 4 0)
    | none => some (List.replicate 16 0)
  else if key = 0x700001 then some (counterRow s k r)
  else if key = 0x700101 then
    let f := if q.role = 2 then q.fn else r / 4096
    match s.ctx? f (r % 4096) with
    | some x => x.counterSet.map (fun n => setBytes s n f (r % 4096))
    | none => none
  else if key = 0x700201 then (if (s.vd r).live then some (meterBytes s r false false) else none)
  else if key = 0x700301 then some (natLe 4 (cgStat s r) ++ natLe 4 (cgTherm s r))
  else if key = 0x700302 then
    let x : VdPow := lookD s.pow.vds r {}
    some (natLe 2 x.minMhz ++ natLe 2 x.maxMhz ++ natLe 4 x.throttledUs ++ natLe 4 x.hintsReplaced ++ natLe 4 (s.pf r).sealedDrops)
  else if key = 0x700401 then some (natLe 4 (portState s r) ++ natLe 4 (portPeer s r))
  else if key = 0x800001 then look s.flash.journal r
  else if key = 0x800002 then some (natLe 4 s.flash.nextEntry)
  else if key = 0x800301 then
    let x : StackPol := lookD s.flash.stackPol r {}
    some (natLe 1 x.bin ++ natLe 1 (min 255 x.starts))
  else if key = 0x800401 then some (natLe 8 (s.dump.region.getD r 0))
  else if key = 0x800501 then
    (sampleIn s (r / 16 / 512) (r / 16 % 512)).map (fun x => samplePart x.bytes
      (fun t => (sealedTags s).contains t || (q.role = 2 && t ≠ (s.vdTag q.fn).toNat)) (r % 16))
  else if key = 0x800601 then some (natLe 4 (min 65535 s.dun.commits.length + 2 ^ 31 * b2n s.dun.flashFault))
  else if key = 0x900001 then some (ownershipRow s r)
  else if key = 0x900101 then some (natLe 1 (s.pins.mpio.getD r 0))
  else if key = 0x900102 then some (natLe 1 s.pins.level)
  else if key = 0x900201 then some (natLe 1 (storedVal s 0x9002 1 0))
  else if key = 0x900202 then some (natLe 1 (storedVal s 0x9002 2 31))
  else if key = 0x900301 then some (natLe 2 s.pcie.subsystem)
  else if key = 0x900401 then
    some (natLe 1 (b2n (s.traceDie 0).en) ++ natLe 1 (b2n (s.traceDie 1).en) ++ [0, 0] ++ natLe 8 s.trace.cgMask.toNat ++ natLe 4 s.trace.events)
  else if key = 0x900402 then
    let t := s.traceDie r
    some (natLe 4 t.next ++ natLe 1 (b2n t.wrapped) ++ natLe 1 t.stopWhy ++ natLe 2 t.lost ++ natLe 8 t.s0Start ++ natLe 8 t.s0Stop ++ List.replicate 8 0)
  else if key = 0x900403 then some (traceRow s (r / 65536) (r % 65536))
  else none

end Sys2Proof.Machine
end

