-- ==== Sys2Proof/Machine/DunirOps.lean ====
section
/-! DEFINITION. Dunir requests: transports and responses, plain writes, and the objects whose writes are commands of their own
(R242, R251, R252, R413, R449, R459–R461, R472–R489, R495, R505, R522–R547). -/

namespace Sys2Proof.Machine

/- Taking a request and answering it (R522, R531–R536). -/

/-- Key of an MCTP message that is not yet whole. -/
def partKey (ep tag : Nat) : Nat := 8 * ep + tag

/-- The message of a transport: a mailbox that is busy, a DOE object that waits, or an MCTP message whose last packet comes. A packet that is not
the last one is kept. The Vendor acts in MANUFACTURE and RETURN alone. -/
def takeMsg (s : State) : DSrc → State × Option (List Byte)
  | .mailbox f =>
    let x : Mbx := lookD s.dun.mbx f.val {}
    (s, if x.busy then some (bytesOf x.req 0 (16 + min 8192 (leNat (bytesOf x.req 10 2)))) else none)
  | .doe f => (s, (s.pf f.val).doe.dunir)
  | .mctp ep tag bytes last =>
    let k := partKey ep.val tag.val
    let m := lookD s.dun.parts k [] ++ bytes
    if last then ({ s with dun := { s.dun with parts := del s.dun.parts k } }, some m)
    else ({ s with dun := { s.dun with parts := put s.dun.parts k m } }, none)
  | .vendor bytes => (s, if s.otp.lc = 1 ∨ s.otp.lc = 4 then some bytes else none)

/-- Whether a transport is served: Beryl runs, or the start halted and the request came over MCTP (R496, R497). -/
def duServed (s : State) (src : DSrc) : Bool :=
  let mctp : Bool := match src with | .mctp _ _ _ _ => true | _ => false
  s.boot.running && ((s.boot.done.contains 4 && !s.boot.halted) || (s.boot.halted && mctp))

/-- A DOE response: Data Object Ready, and vector 0 where it is enabled; C1 has none (R413). -/
def doeRsp (s : State) (f : Nat) (b : List Byte) : State :=
  let s := s.modPf f (fun p => { p with doe := { p.doe with rsp := p.doe.rsp ++ [b], intStatus := true } })
  if (s.pf f).doe.intEn ∧ f ≠ 64 then raiseVector s f 0 else s

/-- A DOE object: its header of two DW and its bytes padded to a DW (R522). -/
def doeObj (vendor type : Nat) (b : List Byte) : List Byte :=
  let n := roundUp b.length 4
  natLe 2 vendor ++ natLe 1 type ++ [0] ++ natLe 4 (2 + n / 4) ++ sliceB b 0 n

/-- Give a response back on the path that its request came on (R522, R534, R535). -/
def respond (s : State) (src : DSrc) (r : List Byte) : State :=
  match src with
  | .mailbox f =>
    let s := modMbx s f.val (fun x => { x with rsp := r, busy := false, done := true })
    let x : Mbx := lookD s.dun.mbx f.val {}
    if x.irqEn then raiseVector s f.val x.vector else s
  | .doe f => doeRsp (s.modPf f.val (fun p => { p with doe := { p.doe with dunir := none } })) f.val (doeObj 0x1F7C 1 r)
  | _ => { s with dun := { s.dun with out := s.dun.out ++ [(whoOf src, r)] } }

/-- S0 cycles of the second for which responses are kept. -/
def s0Second : Nat := 800000000

/-- The response that a RETRY returns (R532). -/
def keptRsp (s : State) (q : DReq) : Option (List Byte) :=
  if q.flags.testBit 0 then (s.dun.kept.find? (fun k => k.who = q.who && k.tag = q.tag && decide (s.s0 ≤ k.at_ + s0Second))).map (·.rsp) else none

/-- Keep a response: the last 8 TAGs of each requester (R532). -/
def keepRsp (s : State) (q : DReq) (r : List Byte) : State :=
  let rest := s.dun.kept.filter (fun k => !(k.who = q.who && k.tag = q.tag))
  let mine := rest.filter (fun k => k.who = q.who)
  let rest := match mine with
    | k :: _ => if 8 ≤ mine.length then rest.erase k else rest
    | [] => rest
  { s with dun := { s.dun with kept := rest ++ [{ who := q.who, tag := q.tag, at_ := s.s0, rsp := r }] } }

/-- The objects whose writes are rows of their own. -/
def actionKeys : List Nat :=
  [0x400101, 0x400102, 0x400103, 0x400201, 0x400301, 0x400303, 0x400401, 0x400501, 0x400701, 0x400702, 0x400801, 0x400802, 0x500001, 0x800202, 0x900401]

/-- The row of the opcode table that a request belongs to: an operation code, or an object's key, with the OP of a composition request or the KIND of a
reset request behind it. -/
def rowOf (q : DReq) : Nat :=
  if q.op = opRead ∨ q.op = opDescribe ∨ q.op = opVersion then q.op
  else if q.op ≠ opWrite then opWrite
  else
    let key := q.idx * 256 + q.sub
    let b := fieldAt q.data 0 1
    if actionKeys.contains key then key
    else if key = 0x200001 ∧ 1 ≤ b ∧ b ≤ 10 then key * 256 + b
    else if key = 0x800101 ∧ 1 ≤ b ∧ b ≤ 3 then key * 256 + b
    else if key = 0x500201 ∧ fieldAt q.data 2 1 = 1 then key
    else opWrite

/-- Serve a request: the checks of R528 up to check 5, then `act`, then the response. -/
def duAnswer (s : State) (q : DReq) (act : State → DReq → DRes) : DRes :=
  match preCheck s q with
  | .error st => dErr s st 0xFFFF
  | .ok none => { st := s, data := [0x10, 0x11, 0, 0] }
  | .ok (some o) => if q.op = opDescribe then { st := s, data := describe o } else act s q

/-- The message of a transport is served if it belongs to a row; `true` says that it was executed with status OK. -/
def serveRun (s : State) (src : DSrc) (row : Nat) (act : State → DReq → DRes) : State × Bool :=
  match takeMsg s src with
  | (t, none) => (t, false)
  | (t, some m) =>
    let q := parseReq src m
    if rowOf q ≠ row ∨ !duServed s src then (s, false)
    else
      match keptRsp t q with
      | some r => (respond t src r, false)
      | none =>
        let x := duAnswer t q act
        let r := rspBytes q x.status (if x.status = duOk then x.data else natLe 2 x.detail)
        (respond (keepRsp x.st q r) src r, x.status = duOk)

def serve (s : State) (src : DSrc) (row : Nat) (act : State → DReq → DRes) : State := (serveRun s src row act).1

/-- Serve a request whose action follows its response. -/
def serveThen (s : State) (src : DSrc) (row : Nat) (act : State → DReq → DRes) (k : State → State) : State :=
  let x := serveRun s src row act
  if x.2 then k x.1 else x.1

/- Reads, descriptions and versions. -/

/-- READ of an object that passed checks 1 to 5 (R474, R526). -/
def readAct (s : State) (q : DReq) : DRes :=
  let key := q.idx * 256 + q.sub
  let rows := ((objAt q.idx q.sub).map (fun o => if o.type = tTab then o.rows else 0)).getD 0
  if q.row = max32 ∧ rows ≠ 0 then { st := s, data := natLe 4 rows }
  else
    let bad : Bool := key = 0x800501 && ((sampleIn s (q.row / 16 / 512) (q.row / 16 % 512)).map (fun x => partSealed s x.bytes (q.row % 16))).getD false
    let c := s.chain (q.row / 64)
    let lost : Bool := key = 0x400601 && (readDpaVd s 0 (c.dpa + 2 ^ c.sizeLog2 + q.row % 64 * 8192) 8192).2.isSome
    let (k, t) := if key = 0x700001 then takeFree s else (0, s)
    match readObj s q k with
    | none => dErr s duNoObject 0xFFFF
    | some b => if bad then dErr s duPosture 0xFFFF else if lost then dErr s duInternal 0xFFFF else { st := t, data := b }

def execDunirRead (src : DSrc) (s : State) : Host.Outcome State Fault Refusal := doneKeep s (serve s src opRead readAct)

def execDunirDescribe (src : DSrc) (s : State) : Host.Outcome State Fault Refusal := doneKeep s (serve s src opDescribe (fun s _ => dOk s))

def execDunirVersion (src : DSrc) (s : State) : Host.Outcome State Fault Refusal := doneKeep s (serve s src opVersion (fun s _ => dOk s))

/- Plain writes (R527, R528, R541–R546). -/

/-- The offset of the first field that is bad. -/
def badField (fs : List (Nat × Bool)) : Option Nat := (fs.find? (fun f => f.2)).map (·.1)

/-- An entry of a wheel that R222 refuses. -/
def wheelBad (s : State) (e : Nat) : Bool :=
  if 0x8000 ≤ e then decide (e ≠ 0x8000)
  else decide (511 < e) || !(s.vd (e % 64)).live || !(lookD s.net.vdTc (e % 64) ({} : VdTc)).allowed.testBit (e / 64 % 8)

/-- Whether a range of device memory lies in the channel pairs of a VD. -/
def inVdPairs (s : State) (v a n : Nat) : Bool :=
  decide (0 < n) && decide (a + n ≤ dpaLimit)
    && ((List.range 64).filter (fun p => decide (p * pairBytes < a + n ∧ a < (p + 1) * pairBytes))).all (fun p => s.pairVd p = some v)

/-- Check 7 for a plain write: the offset of the first field outside its range, or that breaks a rule of its chapter. -/
def writeRange (s : State) (q : DReq) (o : Obj) : Option Nat :=
  let b := q.data
  let n := leNat b
  let f (i k : Nat) : Nat := fieldAt b i k
  let key := q.idx * 256 + q.sub
  if key = 0x300003 then badField [(0, decide (2 < n))]
  else if o.type < tStr then badField [(0, decide (n < o.lo ∨ o.hi < n))]
  else if key = 0x200301 then
    badField [(0, decide (f 0 2 < 32 ∨ 512 < f 0 2)), (2, decide (7 < f 2 1)), (3, decide (7 < f 3 1)), (4, decide (7 < f 4 1)),
      (5, !(List.all [f 2 1, f 3 1, f 4 1] (f 5 1).testBit)), (6, decide (1 < f 6 1)), (7, decide (f 7 1 ≠ 0))]
  else if key = 0x200501 then badField [(0, decide (2 < n))]
  else if key = 0x200502 then badField ((List.range 16).map (fun i => (i, decide (7 < f i 1))))
  else if key = 0x200601 then
    let l := f 0 2
    badField ([(0, if q.row < 16 then decide (l < 4 ∨ 64 < l) else decide (l < 8 ∨ 128 < l)), (3, decide (f 3 1 ≠ 0))]
      ++ (List.range 256).map (fun i => (4 + 2 * i, wheelBad s (f (4 + 2 * i) 2))))
  else if key = 0x200701 then
    let xs := shareOf b
    badField ((xs.zipIdx).flatMap (fun p => [(4 * p.2, decide (p.1.capRd < p.1.resvRd)), (4 * p.2 + 1, decide (p.1.capWr < p.1.resvWr)),
        (4 * p.2 + 2, decide (p.1.capRd = 0)), (4 * p.2 + 3, decide (p.1.capWr = 0))])
      ++ [(0, decide (64 < (xs.map (·.resvRd)).sum)), (1, decide (32 < (xs.map (·.resvWr)).sum))])
  else if key = 0x300101 then
    badField [(0, decide (2400 < n) || !budgetsOk s (putD s.pow.written.budgets q.row n 0) (effCap s.pow.written))]
  else if key = 0x300201 then badField [(0, decide (f 0 1 < 50 ∨ 100 < f 0 1)), (1, decide (f 1 1 < 50 ∨ 100 < f 1 1))]
  else if key = 0x500101 then badField [(0, decide (2 ^ 26 ≤ n))]
  else if key = 0x500201 then badField [(0, decide (2 < f 0 1)), (1, decide (1 < f 1 1)), (2, decide (1 < f 2 1)), (3, decide (f 3 1 ≠ 0))]
  else if key = 0x500301 then badField [(52, !allZero (sliceB b 52 12))]
  else if key = 0x500401 then
    if allZero b then none
    else badField ([(0, decide (63 < f 0 1)), (1, !allZero (sliceB b 1 7)), (16, decide (f 16 8 = 0)), (24, !inVdPairs s (f 0 1) (f 24 8) (f 16 8))]
      ++ (List.range 8).map (fun i => (32 + 2 * i, decide (4095 < f (32 + 2 * i) 2 ∧ f (32 + 2 * i) 2 ≠ 0xFFFF))))
  else if key = 0x500501 then
    if allZero b then none
    else badField [(0, decide (f 0 4 = 0)), (4, decide (63 < f 4 1)), (5, decide (f 5 1 < 2 ∨ 64 < f 5 1)), (6, decide (f 5 1 ≤ f 6 1)),
      (7, decide (f 5 1 ≤ f 7 1)), (8, decide (f 6 1 ≠ f 7 1 ∧ 23 < f 8 1)), (9, decide (f 9 1 ≠ 0)), (34, !allZero (sliceB b 34 6))]
  else if key = 0x600001 then badField [(0, decide (n ≠ 0 ∧ (n < 4 ∨ 168 < n)))]
  else if key = 0x800301 then badField [(0, decide (f 0 1 ≠ 0)), (1, decide (f 1 1 ≠ 0))]
  else if key = 0x800401 then
    badField [(0, decide (n ≠ 0) && (decide (n % 65536 ≠ 0) || !inVdPairs s 0 n dumpBytes
      || decide (pairDie (dpaPair n) ≠ q.row ∨ pairDie (dpaPair (n + dumpBytes - 1)) ≠ q.row)))]
  else if key = 0x900101 then badField [(0, decide (4 < n))]
  else if key = 0x800101 then some 0
  else none

/-- Check 9 for a plain write (R538). -/
def writeClash (s : State) (q : DReq) : Bool :=
  let key := q.idx * 256 + q.sub
  let n := leNat q.data
  if key = 0x800401 then decide (n ≠ 0) && regionClash s 64 q.row n dumpBytes
  else if key = 0x900101 then decide (2 ≤ n) && (s.pins.mpio.zipIdx).any (fun p => p.2 ≠ q.row && p.1 = n)
  else false

/-- The pins that drive a level written to MPIO_LEVEL. -/
def outPins (s : State) : Nat := maskOf ((s.pins.mpio.zipIdx).filterMap (fun p => if p.1 = 1 then some p.2 else none))

/-- The effect of a plain write that passed every check; persistent objects are committed behind it (R531). -/
def writePlain (s : State) (q : DReq) (o : Obj) : State :=
  let key := q.idx * 256 + q.sub
  let b := q.data
  let n := leNat b
  if key = 0x200601 then
    let new : Nat × List Nat := (fieldAt b 0 2, (List.range 256).map (fun i => fieldAt b (4 + 2 * i) 2))
    { s with net := { s.net with wheels := adjust s.net.wheels q.row (fun w => { w with shadow := some new, auto := false }) } }
  else if key = 0x800201 then
    -- a row of the inactive region: the set that stood there is no longer whole
    let s := { s with flash := { s.flash with raw := put s.flash.raw q.row b } }
    modImgSet s (1 - s.boot.active) (fun x => { x with valid := false })
  else if key = 0x800301 then { s with flash := { s.flash with stackPol := del s.flash.stackPol q.row } }
  else if key = 0x900102 then
    let m := outPins s
    { s with pins := { s.pins with level := (s.pins.level &&& (15 - m)) ||| (n &&& m) } }
  else
    let b := if key = 0x500201 then sliceB b 0 2 ++ [0, 0] else b
    let fec : Bool := key = 0x500201 && (s.port q.row).fecPolicy ≠ fieldAt b 1 1 && (s.port q.row).st = .up
    let s := setObj s q.idx q.sub q.row b
    let s := if fec then renegPort s q.row else s
    if o.storage = stP then commitObj s q.idx q.sub q.row b else s

/-- WRITE of an object without an action of its own: checks 6 to 9, then the write. A composition record with no operation of R251 answers FIELD. -/
def writeAct (s : State) (q : DReq) : DRes :=
  match objAt q.idx q.sub with
  | none => dErr s duNoObject 0xFFFF
  | some o =>
    let key := q.idx * 256 + q.sub
    let v := fieldAt q.data 0 1
    if key = 0x200001 then { st := s, data := natLe 1 coField }
    else if key = 0x500401 ∧ !allZero q.data ∧ ((s.vd v).posSealed ∨ (s.vd v).posture = some true) then dErr s duPosture 0
    else
      match writeRange s q o with
      | some i => dErr s duRange i
      | none =>
        if key = 0x900101 ∧ q.row = 0 then dErr s duState 0
        else if writeClash s q then dErr s duConflict 0
        else dOk (writePlain s q o)

def execDunirWrite (src : DSrc) (s : State) : Host.Outcome State Fault Refusal := doneKeep s (serve s src opWrite writeAct)

/- Composition requests (R251, R252). -/

/-- Whether the fields of a composition record that its operation does not use are 0; `used` are (offset, size). -/
def unusedZero (b : List Byte) (used : List (Nat × Nat)) : Bool :=
  allZero (((0, 1) :: used).foldl (fun b u => pokeB b u.1 (List.replicate u.2 0)) b)

/-- Serve a composition request: the response carries the status of R252. -/
def compAct (used : List (Nat × Nat)) (go : State → List Byte → State × Nat) (s : State) (q : DReq) : DRes :=
  let x : State × Nat := if !unusedZero q.data used then (s, coField) else if s.net.unroutable then (s, coFault) else go s q.data
  { st := x.1, data := natLe 1 x.2 }

def compRow (op : Nat) : Nat := 0x200001 * 256 + op

def execCreateSlice (src : DSrc) (s : State) : Host.Outcome State Fault Refusal :=
  done s (serve s src (compRow 1) (compAct [(1, 1), (8, 8), (16, 8), (24, 4)] (fun s b =>
    createSlice s (fieldAt b 1 1) (fieldAt b 8 8) (fieldAt b 16 8) (fieldAt b 24 4))))

def execDestroySlice (src : DSrc) (s : State) : Host.Outcome State Fault Refusal :=
  done s (serve s src (compRow 2) (compAct [(3, 1)] (fun s b => destroySlice s (fieldAt b 3 1))))

def execCreateVd (src : DSrc) (s : State) : Host.Outcome State Fault Refusal :=
  done s (serve s src (compRow 3) (compAct [(1, 1), (2, 1)] (fun s b =>
    let fl := fieldAt b 1 1
    if fl = 0 ∨ fl = 2 then createVdReq s (fieldAt b 2 1) (fl = 2) else (s, coField))))

def execDestroyVd (src : DSrc) (s : State) : Host.Outcome State Fault Refusal :=
  done s (serve s src (compRow 4) (compAct [(2, 1)] (fun s b => destroyVd s (fieldAt b 2 1))))

def execBindSlice (src : DSrc) (s : State) : Host.Outcome State Fault Refusal :=
  done s (serve s src (compRow 5) (compAct [(2, 2), (28, 4)] (fun s b =>
    bindReq s (fieldAt b 2 1) (fieldAt b 3 1) (fieldAt b 28 2) (fieldAt b 30 2))))

def execUnbind (src : DSrc) (s : State) : Host.Outcome State Fault Refusal :=
  done s (serve s src (compRow 6) (compAct [(2, 2), (28, 8)] (fun s b =>
    unbindReq s (fieldAt b 2 1) (fieldAt b 3 1) (fieldAt b 28 2) (fieldAt b 30 2) (fieldAt b 32 4))))

def execAbortUnbind (src : DSrc) (s : State) : Host.Outcome State Fault Refusal :=
  done s (serve s src (compRow 7) (compAct [(2, 1)] (fun s b => abortUnbind s (fieldAt b 2 1))))

def execSetLane (src : DSrc) (s : State) : Host.Outcome State Fault Refusal :=
  done s (serve s src (compRow 8) (compAct [(2, 1), (6, 1), (8, 8)] (fun s b => setLane s (fieldAt b 2 1) (fieldAt b 6 1) (fieldAt b 8 8))))

def execSetQpLane (src : DSrc) (s : State) : Host.Outcome State Fault Refusal :=
  done s (serve s src (compRow 9) (compAct [(4, 3)] (fun s b => setQpLane s (fieldAt b 4 2) (fieldAt b 6 1))))

def execSetShare (src : DSrc) (s : State) : Host.Outcome State Fault Refusal :=
  done s (serve s src (compRow 10) (compAct [(3, 1), (40, 24)] (fun s b =>
    setShare s (fieldAt b 3 1) ((List.range 8).map (fun i => (fieldAt b (40 + 3 * i) 1, fieldAt b (41 + 3 * i) 2))))))

/- Security objects (R449, R450, R461, R471, R475, R477, R483, R486, R487, R489). -/

/-- LC_REQUEST: `target` is the state that the authorisation names, `good` whether it verifies. The Vendor has the Operator's transitions too, and SCRAP
needs no authorisation. -/
def lcAct (target : Nat) (good : Bool) (s : State) (q : DReq) : DRes :=
  let ok : Bool := lcAllowed s .operator target || (q.role = 3 && lcAllowed s .vendor target)
  if !good ∧ target ≠ 5 then dErr s duRange 0
  else if !ok ∨ (s.cmp.vds.any (fun p => p.1 ≠ 0 && p.2.live)) then dErr s duState 0
  else dOk (lcTransit s target q.data)

def execLcRequest (src : DSrc) (target : Fin 6) (good : Bool) (s : State) : Host.Outcome State Fault Refusal :=
  done s (serveThen s src 0x400101 (lcAct target.val good) (fun s => coldReset s 5))

/-- A BOOL object whose write of 1 starts an action. -/
def boolAct (go : State → DRes) (s : State) (q : DReq) : DRes :=
  let n := leNat q.data
  if 1 < n then dErr s duRange 0 else if n = 0 then dOk s else go s

def execSvnCommit (src : DSrc) (s : State) : Host.Outcome State Fault Refusal :=
  doneKeep s (serve s src 0x400102 (boolAct (fun s => dOk (raiseSvn s))))

/-- REVOCATION: `key` is the image key that the object names where its signature verifies. -/
def execRevocation (src : DSrc) (key : Option (Fin 4)) (s : State) : Host.Outcome State Fault Refusal :=
  doneKeep s (serve s src 0x400103 (fun s _ => match key with
    | some k => revokeKey s k.val
    | none => dErr s duRange 0))

/-- POSTURE_WRITE: the row's STATE byte is read only and not looked at; `good` is the check of the security tables. -/
def execPostureWrite (src : DSrc) (good : Bool) (s : State) : Host.Outcome State Fault Refusal :=
  doneKeep s (serve s src 0x400201 (fun s q =>
    match badField [(0, decide (1 < fieldAt q.data 0 1)), (2, decide (fieldAt q.data 2 2 ≠ 0))] with
    | some i => dErr s duRange i
    | none => postureWrite s q.row (fieldAt q.data 0 1) good))

def execAmberRegionWrite (src : DSrc) (s : State) : Host.Outcome State Fault Refusal :=
  done s (settleVds (poolKept (fun s => serve s src 0x400301 (fun s q =>
    let b := q.data
    let x := writeRegion s q.row (fieldAt b 0 8) (fieldAt b 8 1) (fieldAt b 9 1) (allZero (sliceB b 10 6))
    if x.status = duOk then { x with st := commitObj x.st q.idx q.sub q.row b } else x)) s))

def execCloseBatch (src : DSrc) (s : State) : Host.Outcome State Fault Refusal :=
  doneKeep s (serve s src 0x400303 (boolAct closeBatchNow))

def execCheckpointNow (src : DSrc) (s : State) : Host.Outcome State Fault Refusal :=
  doneKeep s (serve s src 0x400401 (fun s q =>
    boolAct (fun s => if (s.chain q.row).opened ∧ !(s.chain q.row).closed then dOk (formLeaf s q.row 1) else dErr s duState 0) s q))

def execPushWrite (src : DSrc) (s : State) : Host.Outcome State Fault Refusal :=
  done s (settleVds (poolKept (fun s => serve s src 0x400501 (fun s q =>
    let b := q.data
    writePush s q.row (fieldAt b 0 8) (fieldAt b 8 1) (fieldAt b 9 1) (fieldAt b 10 2) (fieldAt b 16 8) (decide (fieldAt b 12 4 = 0)))) s))

/-- The VD whose chain HOSTCOR writes act on (R543). -/
def ownVd (q : DReq) : Nat := if q.role = 2 then q.fn else 0

def execHostcorT1 (src : DSrc) (s : State) : Host.Outcome State Fault Refusal :=
  doneKeep s (serve s src 0x400701 (fun s q => hostcorT1 s (ownVd q) (fieldAt q.data 0 8) (fieldAt q.data 8 4)))

def execHostcorT2 (src : DSrc) (s : State) : Host.Outcome State Fault Refusal :=
  doneKeep s (serve s src 0x400702 (fun s q => hostcorT2 s (ownVd q) (leNat q.data)))

def execKeyBlob (src : DSrc) (good : Bool) (mk : Option (List Byte)) (s : State) : Host.Outcome State Fault Refusal :=
  doneKeep s (serve s src 0x400801 (fun s q => keyBlob s q.fn q.data good mk))

def execUnsealStart (src : DSrc) (good : Bool) (s : State) : Host.Outcome State Fault Refusal :=
  doneKeep s (serve s src 0x400802 (fun s q =>
    let b := q.data
    match badField [(3, decide (fieldAt b 3 1 ≠ 0)), (4, decide (fieldAt b 4 4 ≠ 0))] with
    | some i => dErr s duRange i
    | none => unsealStart s q.fn (fieldAt b 0 2) (fieldAt b 2 1) (fieldAt b 8 8) (fieldAt b 16 8) good))

/- Fabric (R373, R382). -/

/-- DEV_ID_WRITE: 0 to 4,095, or 0xFFFF for unset. -/
def execDevIdWrite (src : DSrc) (s : State) : Host.Outcome State Fault Refusal :=
  done s (serve s src 0x500001 (fun s q =>
    let n := leNat q.data
    if 4095 < n ∧ n ≠ 0xFFFF then dErr s duRange 0 else dOk (commitObj (writeDevId s n) q.idx q.sub 0 q.data)))

/-- PORT_RENEG: a row of PORT_POLICY with RENEG set; its policy is taken first. -/
def execPortReneg (src : DSrc) (s : State) : Host.Outcome State Fault Refusal :=
  done s (serve s src 0x500201 (fun s q =>
    match objAt 0x5002 1 with
    | none => dErr s duNoObject 0xFFFF
    | some o =>
      match writeRange s q o with
      | some i => dErr s duRange i
      | none =>
        let b := sliceB q.data 0 2 ++ [0, 0]
        dOk (asidePort (manualReneg (commitObj (setObj s q.idx q.sub q.row b) q.idx q.sub q.row b) q.row) q.row)))

/- Resets, image sets and tracing (R495, R505, R547). -/

/-- Check 7 of a reset request. -/
def resetAct (kind : Nat) (s : State) (q : DReq) : DRes :=
  let u := fieldAt q.data 2 2
  match badField [(1, decide (fieldAt q.data 1 1 ≠ 0)), (2, decide (kind = 1) && (decide (191 < u) || !cgFused.testBit (coreCg u)))] with
  | some i => dErr s duRange i
  | none => dOk s

def resetRow (kind : Nat) : Nat := 0x800101 * 256 + kind

/-- RESET_REQUEST_CORE: the UNIT's core is reset; `late` says that it does not complete within 5 ms (R507). -/
def execResetRequestCore (src : DSrc) (late : Bool) (s : State) : Host.Outcome State Fault Refusal :=
  done s (serve s src (resetRow 1) (fun s q =>
    let x := resetAct 1 s q
    let c := fieldAt q.data 2 2
    if x.status ≠ duOk then x
    else if s.coreOn c ∧ !cgBit s.pool.cgFenced (coreCg c) then dOk (coreResetNow s c late)
    else dErr s duState 2))

def execResetRequestWarm (src : DSrc) (s : State) : Host.Outcome State Fault Refusal :=
  done s (serveThen s src (resetRow 2) (resetAct 2) (fun s => warmReset s 2))

def execResetRequestCold (src : DSrc) (s : State) : Host.Outcome State Fault Refusal :=
  done s (serveThen s src (resetRow 3) (resetAct 3) (fun s => coldReset s 2))

/-- Bytes of the inactive image-set region as written. -/
def rawBytes (s : State) (o n : Nat) : List Byte :=
  (List.range n).map (fun i => (lookD s.flash.raw ((o + i) / 4096) []).getD ((o + i) % 4096) 0)

/-- An image of the inactive region (R459); `good` are the checks of its public keys and its two signatures (R460). -/
def rawImage (s : State) (o : Nat) (good : Bool × Bool × Bool) : Image :=
  let h := rawBytes s o 128
  let form : Bool := fieldAt h 0 4 = 0x4D494B50 && fieldAt h 4 2 = 1
  { cls := fieldAt h 6 1, version := fieldAt h 8 4, svn := fieldAt h 12 2, keyId := fieldAt h 14 1, digest := sliceB h 32 48
    keyHash := good.1, ecdsa := good.2.1, hss := good.2.2, body := form && sha384 (rawBytes s (o + 16384) (fieldAt h 16 4)) = sliceB h 32 48 }

/-- The set of the inactive region: valid if its header is, one above the set in use, and on trial (R495). -/
def rawSet (s : State) (good : List (Bool × Bool × Bool)) : ImageSet :=
  let h := rawBytes s 0 45
  { valid := fieldAt h 0 4 = 0x54455350 && fieldAt h 41 4 = crc32c (sliceB h 0 41), seq := (activeSet s).seq + 1, trial := true
    images := (List.range 4).map (fun i => rawImage s (fieldAt h (9 + 8 * i) 4) (good.getD i (true, true, true))) }

def execSetCommit (src : DSrc) (good : List (Bool × Bool × Bool)) (s : State) : Host.Outcome State Fault Refusal :=
  doneKeep s (serve s src 0x800202 (boolAct (fun s => dOk (modImgSet s (1 - s.boot.active) (fun _ => rawSet s good)))))

/-- TRACE_CTL_WRITE: a CG of a SEALED VD is refused first (R474); then the ranges, and each die starts or stops (R547). -/
def traceCtl (s : State) (q : DReq) : DRes :=
  let b := q.data
  let m := fieldAt b 4 8
  if (bitsOf 48 m).any (fun g => match s.cgVd g with | some v => (s.vd v).posSealed | none => false) then dErr s duPosture 4
  else
    match badField [(0, decide (1 < fieldAt b 0 1)), (1, decide (1 < fieldAt b 1 1)), (2, decide (fieldAt b 2 2 ≠ 0)), (4, decide (2 ^ 48 ≤ m)),
        (12, decide (2 ^ 13 ≤ fieldAt b 12 4))] with
    | some i => dErr s duRange i
    | none =>
      let s := { s with trace := { s.trace with cgMask := BitVec.ofNat 48 m, events := fieldAt b 12 4 } }
      dOk ((List.range 2).foldl (fun s d => if fieldAt b d 1 = 1 then traceStart s d else traceStop s d 1) s)

def execTraceCtlWrite (src : DSrc) (s : State) : Host.Outcome State Fault Refusal := doneKeep s (serve s src 0x900401 traceCtl)

/- Transports (R413, R532, R535). -/

/-- MBX_GO: a write of MBX_CTRL with GO. A VECTOR above the function's range leaves MBX_CTRL unchanged; a GO while busy is counted. -/
def mbxGo (s : State) (f vector : Nat) (en : Bool) : State :=
  if vectorMax f < vector then s
  else
    let s := modMbx s f (fun x => { x with vector := vector, irqEn := en })
    modMbx s f (fun x => if x.busy then { x with ignored := satAdd 8 x.ignored 1 } else { x with busy := true })

def execMbxGo (f : FnId) (vector : Fin 2048) (en : Bool) (s : State) : Host.Outcome State Fault Refusal :=
  doneKeep s (if f.val = 0 ∧ s.boot.done.contains 8 then mbxGo s 0 vector.val en else hostGate s f.val (fun s => mbxGo s f.val vector.val en))

def execMctpPacketTimeout (ep : Fin 256) (tag : Fin 8) (s : State) : Host.Outcome State Fault Refusal :=
  doneKeep s { s with dun := { s.dun with parts := del s.dun.parts (partKey ep.val tag.val) } }

/-- The protocols of a function's DOE mailbox as (vendor, type) (R413). -/
def doeProtocols (f : Nat) : List (Nat × Nat) :=
  [(1, 0), (1, 1)] ++ (if f = 0 ∨ f = 64 then [(1, 2)] else []) ++ (if f ≠ 64 then [(0x1F7C, 1)] else [])

/-- DOE Discovery: the protocol at an index and the next index. -/
def doeDiscover (f idx : Nat) : List Byte :=
  let ps := doeProtocols f
  let p := ps.getD idx (0xFFFF, 0xFF)
  natLe 2 p.1 ++ natLe 1 p.2 ++ natLe 1 (if idx + 1 < ps.length then idx + 1 else 0)

/-- DOE_OBJECT: discovery is answered; SPDM messages go to the commands of their own; a Dunir message waits to be served, one at a time; anything else gets an
empty response and is counted (R413, R532). -/
def doeObject (s : State) (f : Nat) (o : DoeKind) : State :=
  let refuse (s : State) : State := doeRsp (s.modPf f (fun p => { p with doe := { p.doe with refused := p.doe.refused + 1 } })) f []
  match o with
  | .discovery i => doeRsp s f (doeObj 1 0 (doeDiscover f i.val))
  | .spdm => s
  | .secured => if f = 0 ∨ f = 64 then s else refuse s
  | .dunir m =>
    if f = 64 then refuse s
    else if (s.pf f).doe.dunir.isSome then s
    else s.modPf f (fun p => { p with doe := { p.doe with dunir := some m } })
  | .other => refuse s
  | .tooLong => refuse s

def execDoeObject (f : LinkFn) (o : DoeKind) (s : State) : Host.Outcome State Fault Refusal :=
  doneKeep s (match f with
    | .c1 => if s.pcie.split ∧ s.boot.ready then doeObject s 64 o else s
    | .fn f => hostGate s f.val (fun s => doeObject s f.val o))

end Sys2Proof.Machine
end

