-- ==== Sys2Proof/Machine/Scratch.lean ====
section
/-! DEFINITION. Scratchpad atomics, barriers and the SWGEN special register (R76, R81, R84). -/

namespace Sys2Proof.Machine

/-- An indivisible read-modify-write of a scratchpad word under the core's tag (R76, R81). -/
def spAtomic (s : State) (e : EngId) (w : SpWord) (f : W32 → W32) : State :=
  let c := engCore e.val
  let tag := s.coreTag c
  s.modCore c (fun k =>
    spWrite k tag (4 * w.val) (natLe 4 (f (BitVec.ofNat 32 (leNat (spRead k tag (4 * w.val) 4)))).toNat))

def execSpAtomicAdd (e : EngId) (w : SpWord) (v : W32) (s : State) : Host.Outcome State Fault Refusal :=
  doneKeep s (spAtomic s e w (fun x => x + v))

def execSpAtomicAnd (e : EngId) (w : SpWord) (v : W32) (s : State) : Host.Outcome State Fault Refusal :=
  doneKeep s (spAtomic s e w (fun x => x &&& v))

def execSpAtomicOr (e : EngId) (w : SpWord) (v : W32) (s : State) : Host.Outcome State Fault Refusal :=
  doneKeep s (spAtomic s e w (fun x => x ||| v))

/-- The integer MAX and MIN compare as two's-complement numbers (R41; DESIGN CHOICE, log 3). -/
def execSpAtomicMax (e : EngId) (w : SpWord) (v : W32) (s : State) : Host.Outcome State Fault Refusal :=
  doneKeep s (spAtomic s e w (fun x => if x.toInt < v.toInt then v else x))

def execSpAtomicMin (e : EngId) (w : SpWord) (v : W32) (s : State) : Host.Outcome State Fault Refusal :=
  doneKeep s (spAtomic s e w (fun x => if v.toInt < x.toInt then v else x))

/-- FP32 add in the order the bank receives the atomics, which is the order of the commands; rounded by RNE, the
default everywhere (R52, R76). -/
def execSpAtomicFadd (e : EngId) (w : SpWord) (v : W32) (s : State) : Host.Outcome State Fault Refusal :=
  doneKeep s (spAtomic s e w (fun x => fadd .rne x v))

/-- Whether an engine takes part in its core's barrier: it runs a tile (DESIGN CHOICE, log 3). -/
def inBarrier (s : State) (e : Nat) : Bool := (s.eng e).run.isSome

/-- An ordering point of an engine (R76). -/
def orderPoint (x : Eng) : Eng := { x with ordPoints := x.ordPoints + 1, atBarrier := false, glide := none }

/-- CBAR: the engine arrives; when every engine of the core that runs a tile has arrived, each passes the barrier and
its earlier scratchpad writes are ordered before the others' later ones (R76). -/
def execCbar (e : EngId) (s : State) : Host.Outcome State Fault Refusal :=
  let s1 := onEng s e (fun x => { x with atBarrier := true })
  let es := coreEngs (engCore e.val)
  if es.all (fun i => (s1.eng i).atBarrier || !inBarrier s1 i) then
    doneKeep s (es.foldl (fun t i =>
      if (t.eng i).atBarrier then
        let u := if (t.eng i).glide.isSome then traceEng t i 5 0 0 0 else t
        u.modEng i orderPoint
      else t) s1)
  else doneKeep s s1

/-- SPFENCE: the engine's own ordering point; in this model every scratchpad write has taken effect when its command
ends, so the fence orders at once (R76). -/
def execSpfence (e : EngId) (s : State) : Host.Outcome State Fault Refusal :=
  doneKeep s (onEng s e (fun x => { x with ordPoints := x.ordPoints + 1 }))

/-- SWGEN mirrors CORE_SWITCH_GEN (R84). -/
def execSwgenRead (e : EngId) (d : Nat) (s : State) : Host.Outcome State Fault Refusal :=
  doneKeep s (onEng s e (fun x => setSreg x d ((s.core (engCore e.val)).switchGen.setWidth 64)))

end Sys2Proof.Machine
end

