-- ==== Sys2Proof/Machine/Vector.lean ====
section
/-! DEFINITION. The vector unit and the special-function unit (R52–R57, R66–R69). -/

namespace Sys2Proof.Machine

def execVadd (e : EngId) (r : VRound) (d a b : Nat) (s : State) : Host.Outcome State Fault Refusal :=
  doneKeep s (onEng s e (fun x => vmap2 x d a b (fadd (vround r))))

def execVsub (e : EngId) (r : VRound) (d a b : Nat) (s : State) : Host.Outcome State Fault Refusal :=
  doneKeep s (onEng s e (fun x => vmap2 x d a b (fsub (vround r))))

def execVmul (e : EngId) (r : VRound) (d a b : Nat) (s : State) : Host.Outcome State Fault Refusal :=
  doneKeep s (onEng s e (fun x => vmap2 x d a b (fmul (vround r))))

/-- d := a × b + c with one rounding (R66). -/
def execVfma (e : EngId) (r : VRound) (d a b c : Nat) (s : State) : Host.Outcome State Fault Refusal :=
  doneKeep s (onEng s e (fun x =>
    setVreg x d ((List.range 64).map (fun i => ffma (vround r) (vlane x a i) (vlane x b i) (vlane x c i)))))

def execVmin (e : EngId) (d a b : Nat) (s : State) : Host.Outcome State Fault Refusal :=
  doneKeep s (onEng s e (fun x => vmap2 x d a b (fminmax false)))

def execVmax (e : EngId) (d a b : Nat) (s : State) : Host.Outcome State Fault Refusal :=
  doneKeep s (onEng s e (fun x => vmap2 x d a b (fminmax true)))

def execVcmpEq (e : EngId) (m a b : Nat) (s : State) : Host.Outcome State Fault Refusal :=
  doneKeep s (onEng s e (fun x => vmaskOf x m a b (fcmp .eq)))

def execVcmpNe (e : EngId) (m a b : Nat) (s : State) : Host.Outcome State Fault Refusal :=
  doneKeep s (onEng s e (fun x => vmaskOf x m a b (fcmp .ne)))

def execVcmpLt (e : EngId) (m a b : Nat) (s : State) : Host.Outcome State Fault Refusal :=
  doneKeep s (onEng s e (fun x => vmaskOf x m a b (fcmp .lt)))

def execVcmpLe (e : EngId) (m a b : Nat) (s : State) : Host.Outcome State Fault Refusal :=
  doneKeep s (onEng s e (fun x => vmaskOf x m a b (fcmp .le)))

def execVcmpGt (e : EngId) (m a b : Nat) (s : State) : Host.Outcome State Fault Refusal :=
  doneKeep s (onEng s e (fun x => vmaskOf x m a b (fcmp .gt)))

def execVcmpGe (e : EngId) (m a b : Nat) (s : State) : Host.Outcome State Fault Refusal :=
  doneKeep s (onEng s e (fun x => vmaskOf x m a b (fcmp .ge)))

/-- Lane i takes a where the mask bit is 1, else b (R66). -/
def execVsel (e : EngId) (d m a b : Nat) (s : State) : Host.Outcome State Fault Refusal :=
  doneKeep s (onEng s e (fun x =>
    setVreg x d ((List.range 64).map (fun i => if (maskReg x m).toNat.testBit i then vlane x a i else vlane x b i))))

def execViadd (e : EngId) (d a b : Nat) (s : State) : Host.Outcome State Fault Refusal :=
  doneKeep s (onEng s e (fun x => vmap2 x d a b (fun p q => p + q)))

def execVisub (e : EngId) (d a b : Nat) (s : State) : Host.Outcome State Fault Refusal :=
  doneKeep s (onEng s e (fun x => vmap2 x d a b (fun p q => p - q)))

def execVimul (e : EngId) (d a b : Nat) (s : State) : Host.Outcome State Fault Refusal :=
  doneKeep s (onEng s e (fun x => vmap2 x d a b (fun p q => p * q)))

def execVand (e : EngId) (d a b : Nat) (s : State) : Host.Outcome State Fault Refusal :=
  doneKeep s (onEng s e (fun x => vmap2 x d a b (fun p q => p &&& q)))

def execVor (e : EngId) (d a b : Nat) (s : State) : Host.Outcome State Fault Refusal :=
  doneKeep s (onEng s e (fun x => vmap2 x d a b (fun p q => p ||| q)))

def execVxor (e : EngId) (d a b : Nat) (s : State) : Host.Outcome State Fault Refusal :=
  doneKeep s (onEng s e (fun x => vmap2 x d a b (fun p q => p ^^^ q)))

/-- One lane of a shift: an amount of 32 or more has no stated result (DESIGN CHOICE, log 4). -/
def shiftLane (op : Nat) (f : W32 → Nat → W32) (p q : W32) : W32 :=
  if q.toNat < 32 then f p q.toNat else Config.shiftOver op p q

def execVshl (e : EngId) (d a b : Nat) (s : State) : Host.Outcome State Fault Refusal :=
  doneKeep s (onEng s e (fun x => vmap2 x d a b (shiftLane 0 (fun p n => p <<< n))))

def execVshra (e : EngId) (d a b : Nat) (s : State) : Host.Outcome State Fault Refusal :=
  doneKeep s (onEng s e (fun x => vmap2 x d a b (shiftLane 1 (fun p n => p.sshiftRight n))))

def execVshrl (e : EngId) (d a b : Nat) (s : State) : Host.Outcome State Fault Refusal :=
  doneKeep s (onEng s e (fun x => vmap2 x d a b (shiftLane 2 (fun p n => p >>> n))))

/-- Whether a LOS offset is usable by a gather or scatter lane (R67). -/
def losLaneOk (o : W32) : Bool := o.toNat % 4 = 0 && decide (o.toNat < 262144)

/-- Gather from LOS offsets: a bad lane receives 0 and sets LOS_OOB (R67, R81). -/
def gather (tag : BitVec 12) (x : Eng) (d o : Nat) : Eng :=
  let offs := vlanes x o
  let x' := setVreg x d (offs.map (fun w => if losLaneOk w then BitVec.ofNat 32 (leNat (losRead x tag w.toNat 4)) else 0))
  if offs.all losLaneOk then x' else raiseNsw x' nswLosOob

/-- Scatter to LOS offsets in lane order, so that the highest of equal lanes stays; a bad lane stores nothing (R67). -/
def scatter (tag : BitVec 12) (x : Eng) (o a : Nat) : Eng :=
  let x' := (List.range 64).foldl (fun y i =>
    let w := vlane x o i
    if losLaneOk w then losWrite y tag w.toNat (natLe 4 (vlane x a i).toNat) else y) x
  if (vlanes x o).all losLaneOk then x' else raiseNsw x' nswLosOob

def execVgather (e : EngId) (d o : Nat) (s : State) : Host.Outcome State Fault Refusal :=
  doneKeep s (onEng s e (fun x => gather (s.coreTag (engCore e.val)) x d o))

def execVscatter (e : EngId) (o a : Nat) (s : State) : Host.Outcome State Fault Refusal :=
  doneKeep s (onEng s e (fun x => scatter (s.coreTag (engCore e.val)) x o a))

/-- The value of source lane i; an MX source takes its scale from lane i / 32 of the scale register (R39, R55). -/
def cvtSource (x : Eng) (f : Fmt) (a sa i : Nat) : FVal :=
  let v := elemVal f (vlane x a i).toNat
  if isMx f then scaledVal ((vlane x sa (i / 32)).toNat % 256) v else v

/-- The SR random value of lane i (R53). -/
def cvtRandom (x : Eng) (rm : RMode) (seed tensor il ih i : Nat) : Nat :=
  if rm = .sr then srRandom seed ((vlane x il i).toNat + 2 ^ 32 * (vlane x ih i).toNat) tensor else 0

/-- VCVT: 64 lanes, as two blocks of 32 for an MX target, whose scales go to lanes 0 and 1 of `sd` (R55–R57). -/
def vcvt (x : Eng) (d sd a sa : Nat) (fs fd : Fmt) (rm : RMode) (ov : Ovf) (seed tensor il ih : Nat) : Eng :=
  let vs := (List.range 64).map (cvtSource x fs a sa)
  let rs := (List.range 64).map (cvtRandom x rm seed tensor il ih)
  if isMx fd then
    let (x0, c0, f0) := convertMx fd rm (rs.take 32) (vs.take 32)
    let (x1, c1, f1) := convertMx fd rm (rs.drop 32) (vs.drop 32)
    let y := setVreg x d ((c0 ++ c1).map (BitVec.ofNat 32 ·))
    let y := setVreg y sd (BitVec.ofNat 32 x0 :: BitVec.ofNat 32 x1 :: List.replicate 62 0)
    raiseNsw y (f0 ||| f1 ||| srFlag rm)
  else
    let rsl := (vs.zip rs).map (fun p => convertTo fd rm ov p.2 p.1)
    let y := setVreg x d (rsl.map (fun p => BitVec.ofNat 32 p.1))
    raiseNsw y (orAll (rsl.map (·.2)) ||| srFlag rm)

def execVcvt (e : EngId) (d sd a sa : Nat) (src dst : CvtFmt) (rm : RMode) (ov : Ovf) (seed : W64) (tensor : W32) (il ih : Nat)
    (s : State) : Host.Outcome State Fault Refusal :=
  doneKeep s (onEng s e (fun x =>
    vcvt { x with cvt := { round := rm, ovf := ov, seed := seed, tensor := tensor } } d sd a sa (cvtFmt src) (cvtFmt dst) rm ov
      seed.toNat tensor.toNat il ih))

/-- Reduce the 64 lanes along the canonical tree into scalar register d (R68; DESIGN CHOICE, log 3). -/
def vreduce (x : Eng) (d a : Nat) (f : W32 → W32 → W32) : Eng :=
  setSreg x d (((treeFold f 64 (vlanes x a)).getD 0).setWidth 64)

def execVredSum (e : EngId) (d a : Nat) (s : State) : Host.Outcome State Fault Refusal :=
  doneKeep s (onEng s e (fun x => vreduce x d a (fadd .rne)))

def execVredMax (e : EngId) (d a : Nat) (s : State) : Host.Outcome State Fault Refusal :=
  doneKeep s (onEng s e (fun x => vreduce x d a (fminmax true)))

def execVredMin (e : EngId) (d a : Nat) (s : State) : Host.Outcome State Fault Refusal :=
  doneKeep s (onEng s e (fun x => vreduce x d a (fminmax false)))

def execVrcp (e : EngId) (d a : Nat) (s : State) : Host.Outcome State Fault Refusal :=
  doneKeep s (onEng s e (fun x => vmap1 x d a (sfu .rcp)))

def execVrsqrt (e : EngId) (d a : Nat) (s : State) : Host.Outcome State Fault Refusal :=
  doneKeep s (onEng s e (fun x => vmap1 x d a (sfu .rsqrt)))

def execVsqrt (e : EngId) (d a : Nat) (s : State) : Host.Outcome State Fault Refusal :=
  doneKeep s (onEng s e (fun x => vmap1 x d a (sfu .sqrt)))

def execVexp2 (e : EngId) (d a : Nat) (s : State) : Host.Outcome State Fault Refusal :=
  doneKeep s (onEng s e (fun x => vmap1 x d a (sfu .exp2)))

def execVlog2 (e : EngId) (d a : Nat) (s : State) : Host.Outcome State Fault Refusal :=
  doneKeep s (onEng s e (fun x => vmap1 x d a (sfu .log2)))

def execVsin (e : EngId) (d a : Nat) (s : State) : Host.Outcome State Fault Refusal :=
  doneKeep s (onEng s e (fun x => vmap1 x d a (sfu .sin)))

def execVcos (e : EngId) (d a : Nat) (s : State) : Host.Outcome State Fault Refusal :=
  doneKeep s (onEng s e (fun x => vmap1 x d a (sfu .cos)))

def execVtanh (e : EngId) (d a : Nat) (s : State) : Host.Outcome State Fault Refusal :=
  doneKeep s (onEng s e (fun x => vmap1 x d a (sfu .tanh)))

def execVsigm (e : EngId) (d a : Nat) (s : State) : Host.Outcome State Fault Refusal :=
  doneKeep s (onEng s e (fun x => vmap1 x d a (sfu .sigm)))

end Sys2Proof.Machine
end

