-- ==== Sys2Proof/Machine/Dispatch.lean ====
section
/-! DEFINITION. The dispatch: one arm per command, each a direct call of that command's own meaning. -/

namespace Sys2Proof.Machine

/-- The effect of one command on everything but the queue of waiting commands. -/
def exec (i : Instr) (s : State) : Host.Outcome State Fault Refusal :=
  match i with
  | .vadd e r d a b => Sys2Proof.Machine.execVadd e r d a b s
  | .vsub e r d a b => Sys2Proof.Machine.execVsub e r d a b s
  | .vmul e r d a b => Sys2Proof.Machine.execVmul e r d a b s
  | .vfma e r d a b c => Sys2Proof.Machine.execVfma e r d a b c s
  | .vmin e d a b => Sys2Proof.Machine.execVmin e d a b s
  | .vmax e d a b => Sys2Proof.Machine.execVmax e d a b s
  | .vcmpEq e m a b => Sys2Proof.Machine.execVcmpEq e m a b s
  | .vcmpNe e m a b => Sys2Proof.Machine.execVcmpNe e m a b s
  | .vcmpLt e m a b => Sys2Proof.Machine.execVcmpLt e m a b s
  | .vcmpLe e m a b => Sys2Proof.Machine.execVcmpLe e m a b s
  | .vcmpGt e m a b => Sys2Proof.Machine.execVcmpGt e m a b s
  | .vcmpGe e m a b => Sys2Proof.Machine.execVcmpGe e m a b s
  | .vsel e d m a b => Sys2Proof.Machine.execVsel e d m a b s
  | .viadd e d a b => Sys2Proof.Machine.execViadd e d a b s
  | .visub e d a b => Sys2Proof.Machine.execVisub e d a b s
  | .vimul e d a b => Sys2Proof.Machine.execVimul e d a b s
  | .vand e d a b => Sys2Proof.Machine.execVand e d a b s
  | .vor e d a b => Sys2Proof.Machine.execVor e d a b s
  | .vxor e d a b => Sys2Proof.Machine.execVxor e d a b s
  | .vshl e d a b => Sys2Proof.Machine.execVshl e d a b s
  | .vshra e d a b => Sys2Proof.Machine.execVshra e d a b s
  | .vshrl e d a b => Sys2Proof.Machine.execVshrl e d a b s
  | .vgather e d o => Sys2Proof.Machine.execVgather e d o s
  | .vscatter e o a => Sys2Proof.Machine.execVscatter e o a s
  | .vcvt e d sd a sa src dst rm ov seed tensor il ih => Sys2Proof.Machine.execVcvt e d sd a sa src dst rm ov seed tensor il ih s
  | .vredSum e d a => Sys2Proof.Machine.execVredSum e d a s
  | .vredMax e d a => Sys2Proof.Machine.execVredMax e d a s
  | .vredMin e d a => Sys2Proof.Machine.execVredMin e d a s
  | .vrcp e d a => Sys2Proof.Machine.execVrcp e d a s
  | .vrsqrt e d a => Sys2Proof.Machine.execVrsqrt e d a s
  | .vsqrt e d a => Sys2Proof.Machine.execVsqrt e d a s
  | .vexp2 e d a => Sys2Proof.Machine.execVexp2 e d a s
  | .vlog2 e d a => Sys2Proof.Machine.execVlog2 e d a s
  | .vsin e d a => Sys2Proof.Machine.execVsin e d a s
  | .vcos e d a => Sys2Proof.Machine.execVcos e d a s
  | .vtanh e d a => Sys2Proof.Machine.execVtanh e d a s
  | .vsigm e d a => Sys2Proof.Machine.execVsigm e d a s
  | .scalarLoad e d ctx va size uncached => Sys2Proof.Machine.execScalarLoad e d ctx va size uncached s
  | .scalarStore e ctx va size value uncached => Sys2Proof.Machine.execScalarStore e ctx va size value uncached s
  | .spAtomicAdd e w v => Sys2Proof.Machine.execSpAtomicAdd e w v s
  | .spAtomicAnd e w v => Sys2Proof.Machine.execSpAtomicAnd e w v s
  | .spAtomicOr e w v => Sys2Proof.Machine.execSpAtomicOr e w v s
  | .spAtomicMax e w v => Sys2Proof.Machine.execSpAtomicMax e w v s
  | .spAtomicMin e w v => Sys2Proof.Machine.execSpAtomicMin e w v s
  | .spAtomicFadd e w v => Sys2Proof.Machine.execSpAtomicFadd e w v s
  | .cbar e => Sys2Proof.Machine.execCbar e s
  | .spfence e => Sys2Proof.Machine.execSpfence e s
  | .swgenRead e d => Sys2Proof.Machine.execSwgenRead e d s
  | .wqSignal e w tail => Sys2Proof.Machine.execWqSignal e w tail s
  | .multicastIssue e targets dst payload => Sys2Proof.Machine.execMulticastIssue e targets dst payload s
  | .enginePull c wants => Sys2Proof.Machine.execEnginePull c wants s
  | .idleClaim e => Sys2Proof.Machine.execIdleClaim e s
  | .claimRetryExpiry e => Sys2Proof.Machine.execClaimRetryExpiry e s
  | .chunkBoundary e => Sys2Proof.Machine.execChunkBoundary e s
  | .tileComplete e => Sys2Proof.Machine.execTileComplete e s
  | .partialCombine e => Sys2Proof.Machine.execPartialCombine e s
  | .xcoreRequest c => Sys2Proof.Machine.execXcoreRequest c s
  | .xcoreRequestReceived victim thief => Sys2Proof.Machine.execXcoreRequestReceived victim thief s
  | .xcoreGrantReceived thief victim => Sys2Proof.Machine.execXcoreGrantReceived thief victim s
  | .xcoreDenyReceived thief victim => Sys2Proof.Machine.execXcoreDenyReceived thief victim s
  | .xcoreTimeout c => Sys2Proof.Machine.execXcoreTimeout c s
  | .xcoreBackoffExpiry c => Sys2Proof.Machine.execXcoreBackoffExpiry c s
  | .tileDone origin => Sys2Proof.Machine.execTileDone origin s
  | .resetNotice origin thief => Sys2Proof.Machine.execResetNotice origin thief s
  | .coreSwitch g => Sys2Proof.Machine.execCoreSwitch g s
  | .tagSweepStart => Sys2Proof.Machine.execTagSweepStart s
  | .tagSweepComplete => Sys2Proof.Machine.execTagSweepComplete s
  | .facetFrameDecode c launch node frame => Sys2Proof.Machine.execFacetFrameDecode c launch node frame s
  | .coreEngReset c engs => Sys2Proof.Machine.execCoreEngReset c engs s
  | .generate q => Sys2Proof.Machine.execGenerate q s
  | .score q => Sys2Proof.Machine.execScore q s
  | .cancel q => Sys2Proof.Machine.execCancel q s
  | .stepPlan svc c => Sys2Proof.Machine.execStepPlan svc c s
  | .stepLaunchDone svc => Sys2Proof.Machine.execStepLaunchDone svc s
  | .stepLaunchFailed svc => Sys2Proof.Machine.execStepLaunchFailed svc s
  | .sampleComplete svc => Sys2Proof.Machine.execSampleComplete svc s
  | .stepCommit svc => Sys2Proof.Machine.execStepCommit svc s
  | .microBatchLaunch svc inputs outputs => Sys2Proof.Machine.execMicroBatchLaunch svc inputs outputs s
  | .scoreWindowExpiry svc => Sys2Proof.Machine.execScoreWindowExpiry svc s
  | .scoreDeadlineExpiry svc q req => Sys2Proof.Machine.execScoreDeadlineExpiry svc q req s
  | .parkGrant p => Sys2Proof.Machine.execParkGrant p s
  | .parkCloseAck p => Sys2Proof.Machine.execParkCloseAck p s
  | .parkRestoreRsp p => Sys2Proof.Machine.execParkRestoreRsp p s
  | .parkXferPropose p => Sys2Proof.Machine.execParkXferPropose p s
  | .parkXferConfirm p => Sys2Proof.Machine.execParkXferConfirm p s
  | .parkClaim p => Sys2Proof.Machine.execParkClaim p s
  | .hbmRead line err pc row tc => Sys2Proof.Machine.execHbmRead line err pc row tc s
  | .hbmWrite line off data poison tc => Sys2Proof.Machine.execHbmWrite line off data poison tc s
  | .eccConversionDone c => Sys2Proof.Machine.execEccConversionDone c s
  | .patrolScrubStart n => Sys2Proof.Machine.execPatrolScrubStart n s
  | .patrolLate n => Sys2Proof.Machine.execPatrolLate n s
  | .zeroFillComplete f failed => Sys2Proof.Machine.execZeroFillComplete f failed s
  | .readShared c line => Sys2Proof.Machine.execReadShared c line s
  | .readUnique c line => Sys2Proof.Machine.execReadUnique c line s
  | .upgrade c line => Sys2Proof.Machine.execUpgrade c line s
  | .writeBack c line => Sys2Proof.Machine.execWriteBack c line s
  | .evict c line => Sys2Proof.Machine.execEvict c line s
  | .fwdS c line crossed => Sys2Proof.Machine.execFwdS c line crossed s
  | .fwdM c line crossed => Sys2Proof.Machine.execFwdM c line crossed s
  | .cohInv c line => Sys2Proof.Machine.execCohInv c line s
  | .binv c line => Sys2Proof.Machine.execBinv c line s
  | .invAck c line => Sys2Proof.Machine.execInvAck c line s
  | .fwdDone c line => Sys2Proof.Machine.execFwdDone c line s
  | .snoopMiss c line => Sys2Proof.Machine.execSnoopMiss c line s
  | .compAck c line => Sys2Proof.Machine.execCompAck c line s
  | .dataReceived c line => Sys2Proof.Machine.execDataReceived c line s
  | .grantM c line => Sys2Proof.Machine.execGrantM c line s
  | .cohNack c line => Sys2Proof.Machine.execCohNack c line s
  | .wbAck c line => Sys2Proof.Machine.execWbAck c line s
  | .holdExpiry c line => Sys2Proof.Machine.execHoldExpiry c line s
  | .nackRetryExpiry c line => Sys2Proof.Machine.execNackRetryExpiry c line s
  | .flushDone c d => Sys2Proof.Machine.execFlushDone c d s
  | .faultRecordPost id => Sys2Proof.Machine.execFaultRecordPost id s
  | .xltResumeRetry fn id => Sys2Proof.Machine.execXltResumeRetry fn id s
  | .xltResumeAbort fn id => Sys2Proof.Machine.execXltResumeAbort fn id s
  | .faultTimeout id => Sys2Proof.Machine.execFaultTimeout id s
  | .invRange fn n r => Sys2Proof.Machine.execInvRange fn n r s
  | .invContext fn n r => Sys2Proof.Machine.execInvContext fn n r s
  | .invFunction fn n r => Sys2Proof.Machine.execInvFunction fn n r s
  | .invComplete id => Sys2Proof.Machine.execInvComplete id s
  | .invLimitExpiry id => Sys2Proof.Machine.execInvLimitExpiry id s
  | .descriptorChunkBoundary d => Sys2Proof.Machine.execDescriptorChunkBoundary d s
  | .atsTranslationCompletion fn page ans => Sys2Proof.Machine.execAtsTranslationCompletion fn page ans s
  | .pageRequestResponse fn page ok => Sys2Proof.Machine.execPageRequestResponse fn page ok s
  | .atsInvalidateRequest fn addr size tag => Sys2Proof.Machine.execAtsInvalidateRequest fn addr size tag s
  | .moveEntryStart m k => Sys2Proof.Machine.execMoveEntryStart m k s
  | .moveEntryFinish m n => Sys2Proof.Machine.execMoveEntryFinish m n s
  | .dlogSwap fn => Sys2Proof.Machine.execDlogSwap fn s
  | .dlogSwapDone fn => Sys2Proof.Machine.execDlogSwapDone fn s
  | .urgencyChange m level => Sys2Proof.Machine.execUrgencyChange m level s
  | .wheelActivate w => Sys2Proof.Machine.execWheelActivate w s
  | .linkFrameActivate r => Sys2Proof.Machine.execLinkFrameActivate r s
  | .netTxnTimeout w => Sys2Proof.Machine.execNetTxnTimeout w s
  | .routerFault r => Sys2Proof.Machine.execRouterFault r s
  | .routerDrainDone r => Sys2Proof.Machine.execRouterDrainDone r s
  | .relayArrival r g block seg => Sys2Proof.Machine.execRelayArrival r g block seg s
  | .relayWaitExpiry r g block seg => Sys2Proof.Machine.execRelayWaitExpiry r g block seg s
  | .mcCopyReceive m t room => Sys2Proof.Machine.execMcCopyReceive m t room s
  | .mcAck m t => Sys2Proof.Machine.execMcAck m t s
  | .mcNack m t => Sys2Proof.Machine.execMcNack m t s
  | .mcGrant m t => Sys2Proof.Machine.execMcGrant m t s
  | .mcRetryReceive m t => Sys2Proof.Machine.execMcRetryReceive m t s
  | .mcTimeout m => Sys2Proof.Machine.execMcTimeout m s
  | .createSlice src => Sys2Proof.Machine.execCreateSlice src s
  | .destroySlice src => Sys2Proof.Machine.execDestroySlice src s
  | .createVd src => Sys2Proof.Machine.execCreateVd src s
  | .destroyVd src => Sys2Proof.Machine.execDestroyVd src s
  | .bindSlice src => Sys2Proof.Machine.execBindSlice src s
  | .bindHoldReached v seedOk => Sys2Proof.Machine.execBindHoldReached v seedOk s
  | .unbind src => Sys2Proof.Machine.execUnbind src s
  | .moveDone v vector en => Sys2Proof.Machine.execMoveDone v vector en s
  | .unbindDeadline v => Sys2Proof.Machine.execUnbindDeadline v s
  | .unbindHoldReached v => Sys2Proof.Machine.execUnbindHoldReached v s
  | .residentWaitExpiry v => Sys2Proof.Machine.execResidentWaitExpiry v s
  | .unbindRelease v => Sys2Proof.Machine.execUnbindRelease v s
  | .abortUnbind src => Sys2Proof.Machine.execAbortUnbind src s
  | .setLane src => Sys2Proof.Machine.execSetLane src s
  | .setQpLane src => Sys2Proof.Machine.execSetQpLane src s
  | .setShare src => Sys2Proof.Machine.execSetShare src s
  | .cgFailure g lost => Sys2Proof.Machine.execCgFailure g lost s
  | .quantumExpiry k => Sys2Proof.Machine.execQuantumExpiry k s
  | .meterPeriodExpiry => Sys2Proof.Machine.execMeterPeriodExpiry s
  | .lread q => Sys2Proof.Machine.execLread q s
  | .liftUnitsAvailable p => Sys2Proof.Machine.execLiftUnitsAvailable p s
  | .lwrite q => Sys2Proof.Machine.execLwrite q s
  | .lflush q => Sys2Proof.Machine.execLflush q s
  | .liftTimeout p write tag => Sys2Proof.Machine.execLiftTimeout p write tag s
  | .doorbellWrite f page off v => Sys2Proof.Machine.execDoorbellWrite f page off v s
  | .ringFetchComplete r => Sys2Proof.Machine.execRingFetchComplete r s
  | .ringAgingPromote r => Sys2Proof.Machine.execRingAgingPromote r s
  | .completionPost r => Sys2Proof.Machine.execCompletionPost r s
  | .adminRingEnable f sq cq vector => Sys2Proof.Machine.execAdminRingEnable f sq cq vector s
  | .adminRingDisable f sq cq vector => Sys2Proof.Machine.execAdminRingDisable f sq cq vector s
  | .nop r => Sys2Proof.Machine.execNop r s
  | .launchRoutine r => Sys2Proof.Machine.execLaunchRoutine r s
  | .launchKernel r => Sys2Proof.Machine.execLaunchKernel r s
  | .transfer r => Sys2Proof.Machine.execTransfer r s
  | .patch r => Sys2Proof.Machine.execPatch r s
  | .phaseHint r => Sys2Proof.Machine.execPhaseHint r s
  | .moveList r => Sys2Proof.Machine.execMoveList r s
  | .createContext r => Sys2Proof.Machine.execCreateContext r s
  | .destroyContext r => Sys2Proof.Machine.execDestroyContext r s
  | .createRing r => Sys2Proof.Machine.execCreateRing r s
  | .destroyRing r => Sys2Proof.Machine.execDestroyRing r s
  | .registerRoutine r => Sys2Proof.Machine.execRegisterRoutine r s
  | .newGeneration r => Sys2Proof.Machine.execNewGeneration r s
  | .retireRoutine r => Sys2Proof.Machine.execRetireRoutine r s
  | .registerProgram r => Sys2Proof.Machine.execRegisterProgram r s
  | .releaseProgram r => Sys2Proof.Machine.execReleaseProgram r s
  | .startResident r => Sys2Proof.Machine.execStartResident r s
  | .stopResident r => Sys2Proof.Machine.execStopResident r s
  | .createWq r => Sys2Proof.Machine.execCreateWq r s
  | .destroyWq r => Sys2Proof.Machine.execDestroyWq r s
  | .registerService r => Sys2Proof.Machine.execRegisterService r s
  | .deregisterService r => Sys2Proof.Machine.execDeregisterService r s
  | .createQp r => Sys2Proof.Machine.execCreateQp r s
  | .destroyQp r => Sys2Proof.Machine.execDestroyQp r s
  | .createLiftq r => Sys2Proof.Machine.execCreateLiftq r s
  | .destroyLiftq r => Sys2Proof.Machine.execDestroyLiftq r s
  | .setNumerics r => Sys2Proof.Machine.execSetNumerics r s
  | .memobjCreate r => Sys2Proof.Machine.execMemobjCreate r s
  | .memobjDrop r => Sys2Proof.Machine.execMemobjDrop r s
  | .residentTaskWake t => Sys2Proof.Machine.execResidentTaskWake t s
  | .signalSlotSignal f n v => Sys2Proof.Machine.execSignalSlotSignal f n v s
  | .signalSlotArm f n v => Sys2Proof.Machine.execSignalSlotArm f n v s
  | .mirrorEnable f => Sys2Proof.Machine.execMirrorEnable f s
  | .abortDrainEnd f c => Sys2Proof.Machine.execAbortDrainEnd f c s
  | .abortSquashDone f c => Sys2Proof.Machine.execAbortSquashDone f c s
  | .functionReset f => Sys2Proof.Machine.execFunctionReset f s
  | .functionResetClear f => Sys2Proof.Machine.execFunctionResetClear f s
  | .laserLockTimeout t locked => Sys2Proof.Machine.execLaserLockTimeout t locked s
  | .laserPoll t fault lines => Sys2Proof.Machine.execLaserPoll t fault lines s
  | .laserReadTimeout t => Sys2Proof.Machine.execLaserReadTimeout t s
  | .dataBlockReceive p seq good frames => Sys2Proof.Machine.execDataBlockReceive p seq good frames s
  | .dataBlockSend p => Sys2Proof.Machine.execDataBlockSend p s
  | .linkBlockDue p => Sys2Proof.Machine.execLinkBlockDue p s
  | .linkAck p seq => Sys2Proof.Machine.execLinkAck p seq s
  | .linkNak p seq => Sys2Proof.Machine.execLinkNak p seq s
  | .nakRepeatExpiry p => Sys2Proof.Machine.execNakRepeatExpiry p s
  | .linkCredit p req rsp relay ctrl => Sys2Proof.Machine.execLinkCredit p req rsp relay ctrl s
  | .linkLaneRequest p lane seq => Sys2Proof.Machine.execLinkLaneRequest p lane seq s
  | .linkLaneConfirm p lane seq => Sys2Proof.Machine.execLinkLaneConfirm p lane seq s
  | .linkEchoRequest p cycle turn => Sys2Proof.Machine.execLinkEchoRequest p cycle turn s
  | .linkEchoReply p cycle turn now => Sys2Proof.Machine.execLinkEchoReply p cycle turn now s
  | .linkCaps p c => Sys2Proof.Machine.execLinkCaps p c s
  | .linkCommit p record => Sys2Proof.Machine.execLinkCommit p record s
  | .linkSpdm p last bytes => Sys2Proof.Machine.execLinkSpdm p last bytes s
  | .linkDown p reason => Sys2Proof.Machine.execLinkDown p reason s
  | .laneFailure p lane => Sys2Proof.Machine.execLaneFailure p lane s
  | .portTrainingDone p lanes => Sys2Proof.Machine.execPortTrainingDone p lanes s
  | .portSessionDone p root => Sys2Proof.Machine.execPortSessionDone p root s
  | .keyUpdateDue p => Sys2Proof.Machine.execKeyUpdateDue p s
  | .rdReq p => Sys2Proof.Machine.execRdReq p s
  | .rdData p => Sys2Proof.Machine.execRdData p s
  | .wrReq p => Sys2Proof.Machine.execWrReq p s
  | .wrAck p => Sys2Proof.Machine.execWrAck p s
  | .flush p => Sys2Proof.Machine.execFlush p s
  | .flushAck p => Sys2Proof.Machine.execFlushAck p s
  | .relayFrame p => Sys2Proof.Machine.execRelayFrame p s
  | .relayDone p => Sys2Proof.Machine.execRelayDone p s
  | .relayAbort p => Sys2Proof.Machine.execRelayAbort p s
  | .peerWaitExpiry g => Sys2Proof.Machine.execPeerWaitExpiry g s
  | .relayDoneTimeout g => Sys2Proof.Machine.execRelayDoneTimeout g s
  | .devIdWrite src => Sys2Proof.Machine.execDevIdWrite src s
  | .portReneg src => Sys2Proof.Machine.execPortReneg src s
  | .flrVf f => Sys2Proof.Machine.execFlrVf f s
  | .flrPf0 => Sys2Proof.Machine.execFlrPf0 s
  | .vfEnableClear p => Sys2Proof.Machine.execVfEnableClear p s
  | .vfEnableSet p n => Sys2Proof.Machine.execVfEnableSet p n s
  | .hotReset h => Sys2Proof.Machine.execHotReset h s
  | .d3hotToD0 p => Sys2Proof.Machine.execD3hotToD0 p s
  | .configRequest f op => Sys2Proof.Machine.execConfigRequest f op s
  | .bar4Read f off n => Sys2Proof.Machine.execBar4Read f off n s
  | .bar4Write f off data ep => Sys2Proof.Machine.execBar4Write f off data ep s
  | .bar4Atomic f bar off op size => Sys2Proof.Machine.execBar4Atomic f bar off op size s
  | .bar4Resize p vf n => Sys2Proof.Machine.execBar4Resize p vf n s
  | .deviceReqCompletion a c => Sys2Proof.Machine.execDeviceReqCompletion a c s
  | .completionTimeout a => Sys2Proof.Machine.execCompletionTimeout a s
  | .doeObject f o => Sys2Proof.Machine.execDoeObject f o s
  | .priDisable f reset => Sys2Proof.Machine.execPriDisable f reset s
  | .powerWindowStart w => Sys2Proof.Machine.execPowerWindowStart w s
  | .opPointChangeDone g => Sys2Proof.Machine.execOpPointChangeDone g s
  | .railControlTick t => Sys2Proof.Machine.execRailControlTick t s
  | .refclkAlarm stood => Sys2Proof.Machine.execRefclkAlarm stood s
  | .refclkHoldExpiry => Sys2Proof.Machine.execRefclkHoldExpiry s
  | .glideEntry e prior => Sys2Proof.Machine.execGlideEntry e prior s
  | .glideHoldExpiry g => Sys2Proof.Machine.execGlideHoldExpiry g s
  | .hintPhaseStart v n => Sys2Proof.Machine.execHintPhaseStart v n s
  | .hintWindowEnd v n => Sys2Proof.Machine.execHintWindowEnd v n s
  | .sensorSample d0 d1 temps => Sys2Proof.Machine.execSensorSample d0 d1 temps s
  | .avsSample r x => Sys2Proof.Machine.execAvsSample r x s
  | .pmbusPoll r x => Sys2Proof.Machine.execPmbusPoll r x s
  | .thermalTrip d c => Sys2Proof.Machine.execThermalTrip d c s
  | .throttleNAssert => Sys2Proof.Machine.execThrottleNAssert s
  | .throttleNDeassert => Sys2Proof.Machine.execThrottleNDeassert s
  | .lcRequest src target good => Sys2Proof.Machine.execLcRequest src target good s
  | .svnCommit src => Sys2Proof.Machine.execSvnCommit src s
  | .revocation src key => Sys2Proof.Machine.execRevocation src key s
  | .rngHealthFail => Sys2Proof.Machine.execRngHealthFail s
  | .spdmGetVersion w => Sys2Proof.Machine.execSpdmGetVersion w s
  | .spdmGetCapabilities w minor => Sys2Proof.Machine.execSpdmGetCapabilities w minor s
  | .spdmNegotiateAlgorithms w suite => Sys2Proof.Machine.execSpdmNegotiateAlgorithms w suite s
  | .spdmGetDigests w => Sys2Proof.Machine.execSpdmGetDigests w s
  | .spdmGetCertificate w slot off len => Sys2Proof.Machine.execSpdmGetCertificate w slot off len s
  | .spdmChallenge w slot nonce => Sys2Proof.Machine.execSpdmChallenge w slot nonce s
  | .spdmGetMeasurements w ask signed nonce => Sys2Proof.Machine.execSpdmGetMeasurements w ask signed nonce s
  | .spdmKeyExchange w nonce => Sys2Proof.Machine.execSpdmKeyExchange w nonce s
  | .spdmFinish w session good => Sys2Proof.Machine.execSpdmFinish w session good s
  | .spdmKeyUpdate w session => Sys2Proof.Machine.execSpdmKeyUpdate w session s
  | .spdmHeartbeat w session => Sys2Proof.Machine.execSpdmHeartbeat w session s
  | .spdmEndSession w session => Sys2Proof.Machine.execSpdmEndSession w session s
  | .spdmChunk w k => Sys2Proof.Machine.execSpdmChunk w k s
  | .tokenRefill v => Sys2Proof.Machine.execTokenRefill v s
  | .postureWrite src good => Sys2Proof.Machine.execPostureWrite src good s
  | .keyBlob src good mk => Sys2Proof.Machine.execKeyBlob src good mk s
  | .unsealStart src good => Sys2Proof.Machine.execUnsealStart src good s
  | .unsealComplete v bad => Sys2Proof.Machine.execUnsealComplete v bad s
  | .amberConsWrite seq => Sys2Proof.Machine.execAmberConsWrite seq s
  | .amberRegionWrite src => Sys2Proof.Machine.execAmberRegionWrite src s
  | .pushWrite src => Sys2Proof.Machine.execPushWrite src s
  | .batchClose => Sys2Proof.Machine.execBatchClose s
  | .closeBatch src => Sys2Proof.Machine.execCloseBatch src s
  | .checkpointNow src => Sys2Proof.Machine.execCheckpointNow src s
  | .hostcorT1 src => Sys2Proof.Machine.execHostcorT1 src s
  | .hostcorT2 src => Sys2Proof.Machine.execHostcorT2 src s
  | .hostcorTimeout v => Sys2Proof.Machine.execHostcorTimeout v s
  | .bootRom ok us => Sys2Proof.Machine.execBootRom ok us s
  | .bootPufKeys fails badSlots us => Sys2Proof.Machine.execBootPufKeys fails badSlots us s
  | .bootImageVerify us => Sys2Proof.Machine.execBootImageVerify us s
  | .bootMgmtFirmware fails other tagsOk us => Sys2Proof.Machine.execBootMgmtFirmware fails other tagsOk us s
  | .bootPlls cgBad stackBad halt us => Sys2Proof.Machine.execBootPlls cgBad stackBad halt us s
  | .bootHbmTraining runs unrepaired us => Sys2Proof.Machine.execBootHbmTraining runs unrepaired us s
  | .bootCoreBist cgBad routers engBad us => Sys2Proof.Machine.execBootCoreBist cgBad routers engBad us s
  | .bootPcie h0 h1 attempts us => Sys2Proof.Machine.execBootPcie h0 h1 attempts us s
  | .bootPhotonics tiles lanesBad us => Sys2Proof.Machine.execBootPhotonics tiles lanesBad us s
  | .bootTalko us => Sys2Proof.Machine.execBootTalko us s
  | .bootCompositionRestore badSeeds badFill us => Sys2Proof.Machine.execBootCompositionRestore badSeeds badFill us s
  | .bootReady us => Sys2Proof.Machine.execBootReady us s
  | .engineReset e cause => Sys2Proof.Machine.execEngineReset e cause s
  | .coreReset c cause late => Sys2Proof.Machine.execCoreReset c cause late s
  | .warmReset cause => Sys2Proof.Machine.execWarmReset cause s
  | .perstAssert half => Sys2Proof.Machine.execPerstAssert half s
  | .coldReset cause => Sys2Proof.Machine.execColdReset cause s
  | .resetRelease pin => Sys2Proof.Machine.execResetRelease pin s
  | .pwrOkAssert => Sys2Proof.Machine.execPwrOkAssert s
  | .pwrOkDeassert => Sys2Proof.Machine.execPwrOkDeassert s
  | .berylHeartbeatTimeout core => Sys2Proof.Machine.execBerylHeartbeatTimeout core s
  | .crossWatchdogTimeout => Sys2Proof.Machine.execCrossWatchdogTimeout s
  | .controlStateEccError garnet => Sys2Proof.Machine.execControlStateEccError garnet s
  | .loopProcessorSilence svcs => Sys2Proof.Machine.execLoopProcessorSilence svcs s
  | .watchdogFire e => Sys2Proof.Machine.execWatchdogFire e s
  | .stepBudgetOverrun c launch => Sys2Proof.Machine.execStepBudgetOverrun c launch s
  | .replayTileDone e => Sys2Proof.Machine.execReplayTileDone e s
  | .replayWatchdogFire e => Sys2Proof.Machine.execReplayWatchdogFire e s
  | .dunirRead src => Sys2Proof.Machine.execDunirRead src s
  | .dunirWrite src => Sys2Proof.Machine.execDunirWrite src s
  | .dunirDescribe src => Sys2Proof.Machine.execDunirDescribe src s
  | .dunirVersion src => Sys2Proof.Machine.execDunirVersion src s
  | .mbxGo f vector en => Sys2Proof.Machine.execMbxGo f vector en s
  | .mctpPacketTimeout ep tag => Sys2Proof.Machine.execMctpPacketTimeout ep tag s
  | .persistCommitDone ok => Sys2Proof.Machine.execPersistCommitDone ok s
  | .resetRequestCore src late => Sys2Proof.Machine.execResetRequestCore src late s
  | .resetRequestWarm src => Sys2Proof.Machine.execResetRequestWarm src s
  | .resetRequestCold src => Sys2Proof.Machine.execResetRequestCold src s
  | .setCommit src good => Sys2Proof.Machine.execSetCommit src good s
  | .traceCtlWrite src => Sys2Proof.Machine.execTraceCtlWrite src s
  | .registerWrite f off wide v => Sys2Proof.Machine.execRegisterWrite f off wide v s
  | .refclkValidAgain => Sys2Proof.Machine.execRefclkValidAgain s
  | .patrolPassComplete n ecs => Sys2Proof.Machine.execPatrolPassComplete n ecs s
  | .deadlineHalfUsed svc => Sys2Proof.Machine.execDeadlineHalfUsed svc s
  | .talkoKeyingTimeout p => Sys2Proof.Machine.execTalkoKeyingTimeout p s
  | .wqWait t n => Sys2Proof.Machine.execWqWait t n s
  | .residentTaskExit t => Sys2Proof.Machine.execResidentTaskExit t s
  | .transferComplete d => Sys2Proof.Machine.execTransferComplete d s
  | .pcieLinkUp h rate width flit => Sys2Proof.Machine.execPcieLinkUp h rate width flit s
  | .parkRestoreTimeout key => Sys2Proof.Machine.execParkRestoreTimeout key s

end Sys2Proof.Machine
end

