-- ==== Sys2Proof/Machine/Tick.lean ====
section
/-! DEFINITION. What one cycle of domain S0 does while no command waits: domain counters and meters (R269, R270, R350, R417,
R418). -/

namespace Sys2Proof.Machine

/- Domains (R417): 0–47 A, 48–55 N, 56–71 M, 72–95 O, 96 and 97 H, 98 and 99 S. -/

/-- 64ths of a cycle that a domain runs in one cycle of S0 at 800 MHz; 0 for a clock that is stopped (R151, R356, R394, R417,
R442). -/
def domainRate (s : State) (d : Nat) : Nat :=
  if d < 48 then cgStep s d
  else if d < 56 then (if s.pow.tripped then 0 else 160)
  else if d < 72 then
    let x := s.stack ((d - 56) / 2)
    if !x.trained then 0 else if x.bin = 0 then 96 else if x.bin = 1 then 80 else 64
  else if d < 96 then 125
  else if d < 98 then
    let r := (s.half (d - 96)).rate
    if r = 0 then 0 else if 256 ≤ r then 80 else if 128 ≤ r then 40 else 20
  else if d = 98 then 64
  else 32

/-- Picoseconds of one cycle of S0. -/
def tickPs : Nat := 1250

/-- Whether an engine runs a tile and is not in Glide (R269). -/
def engRuns (s : State) (e : Nat) : Bool := (s.eng e).run.isSome && (s.eng e).glide.isNone

/-- Engines of a VD that run a tile. -/
def vdRuns (s : State) (v : Nat) : Nat :=
  (((s.vdCgs v).flatMap cgCores).flatMap (fun c => (coreEngs c).filter (engRuns s))).length

/-- The meter of a VD goes on by one cycle of S0 (R269, R270). -/
def tickMeter (s : State) (v : Nat) (m : Meter) : Meter :=
  { m with
    cgPs := m.cgPs + tickPs * (s.vdCgs v).length
    sparePs := m.sparePs + tickPs * (s.vd v).spares.length
    enginePs := m.enginePs + tickPs * vdRuns s v
    pairPs := m.pairPs + tickPs * (s.vdPairs v).length
    portPs := m.portPs + tickPs * (s.vdPorts v).length }

/-- Engines that run a tile of a context. -/
def ctxRuns (s : State) (fn ctx : Nat) : Nat :=
  (s.engs.filter (fun p => p.2.glide.isNone && (match p.2.run with
    | some r => (match s.launch? r.tile.launch with | some l => l.fn = fn && l.ctx = ctx | none => false)
    | none => false))).length

/-- One cycle of S0: it counts once its PLL is locked (R418, R497). -/
def tick (s : State) : State :=
  if !s.boot.running ∨ !s.pow.locked then s
  else
    let cyc : Map Nat := (List.range 100).foldl (fun m d => putD m d (lookD m d 0 + domainRate s d) 0) s.pow.cycles
    let vds := mapVals s.cmp.vds (fun v (x : Vd) => if x.live then { x with meter := tickMeter s v x.meter } else x)
    let sets := mapVals s.obj.sets (fun _ (c : CounterSet) => { c with enginePs := c.enginePs + tickPs * ctxRuns s c.fn c.ctx })
    { s with
      s0 := s.s0 + 1
      pow := { s.pow with cycles := cyc }
      cmp := { s.cmp with vds := vds }
      obj := { s.obj with sets := sets } }

end Sys2Proof.Machine
end

