-- ==== Sys2Proof/Safety.lean ====
section
/-! DEFINITION. What counts as a safe step, and the terms that the statements share. -/

namespace Sys2Proof.Safety

open Machine

/-- A step that answers a next state: neither a fault nor a refusal. -/
def completes (s : State) : Prop := ∃ t, step s = .next t

/-- The command's meaning answers a next state, and that state has a property. -/
def gives (c : Instr) (s : State) (P : State → Prop) : Prop := ∃ t, exec c s = .next t ∧ P t

/-- Two states differ in one engine at most. -/
def onlyEng (s t : State) (e : Nat) : Prop := t = { s with engs := t.engs } ∧ ∀ k, k ≠ e → t.eng k = s.eng k

/-- Two states differ in one core at most. -/
def onlyCore (s t : State) (c : Nat) : Prop := t = { s with cores := t.cores } ∧ ∀ k, k ≠ c → t.core k = s.core k

end Sys2Proof.Safety
end

