-- ==== Sys2Proof/WellFormed.lean ====
section
/-! DEFINITION. Structural checks on a command's operands. -/

namespace Sys2Proof

/-- Whether a command's operands have the shape the spec gives them: the lengths of byte strings and of per-unit lists. -/
def Instr.wellFormed : Instr → Bool
  | .vadd .. => true
  | .vsub .. => true
  | .vmul .. => true
  | .vfma .. => true
  | .vmin .. => true
  | .vmax .. => true
  | .vcmpEq .. => true
  | .vcmpNe .. => true
  | .vcmpLt .. => true
  | .vcmpLe .. => true
  | .vcmpGt .. => true
  | .vcmpGe .. => true
  | .vsel .. => true
  | .viadd .. => true
  | .visub .. => true
  | .vimul .. => true
  | .vand .. => true
  | .vor .. => true
  | .vxor .. => true
  | .vshl .. => true
  | .vshra .. => true
  | .vshrl .. => true
  | .vgather .. => true
  | .vscatter .. => true
  | .vcvt .. => true
  | .vredSum .. => true
  | .vredMax .. => true
  | .vredMin .. => true
  | .vrcp .. => true
  | .vrsqrt .. => true
  | .vsqrt .. => true
  | .vexp2 .. => true
  | .vlog2 .. => true
  | .vsin .. => true
  | .vcos .. => true
  | .vtanh .. => true
  | .vsigm .. => true
  | .scalarLoad .. => true
  | .scalarStore .. => true
  | .spAtomicAdd .. => true
  | .spAtomicAnd .. => true
  | .spAtomicOr .. => true
  | .spAtomicMax .. => true
  | .spAtomicMin .. => true
  | .spAtomicFadd .. => true
  | .cbar .. => true
  | .spfence .. => true
  | .swgenRead .. => true
  | .wqSignal .. => true
  -- a multicast payload is at most 2,048 bytes (R234)
  | .multicastIssue _ _ _ payload => decide (payload.length ≤ 2048)
  | .enginePull .. => true
  | .idleClaim .. => true
  | .claimRetryExpiry .. => true
  | .chunkBoundary .. => true
  | .tileComplete .. => true
  | .partialCombine .. => true
  | .xcoreRequest .. => true
  | .xcoreRequestReceived .. => true
  | .xcoreGrantReceived .. => true
  | .xcoreDenyReceived .. => true
  | .xcoreTimeout .. => true
  | .xcoreBackoffExpiry .. => true
  | .tileDone .. => true
  | .resetNotice .. => true
  | .coreSwitch .. => true
  | .tagSweepStart => true
  | .tagSweepComplete => true
  | .facetFrameDecode .. => true
  | .coreEngReset .. => true
  | .generate .. => true
  | .score .. => true
  | .cancel .. => true
  | .stepPlan .. => true
  | .stepLaunchDone .. => true
  | .stepLaunchFailed .. => true
  | .sampleComplete .. => true
  | .stepCommit .. => true
  | .microBatchLaunch .. => true
  | .scoreWindowExpiry .. => true
  | .scoreDeadlineExpiry .. => true
  | .parkGrant .. => true
  | .parkCloseAck .. => true
  | .parkRestoreRsp .. => true
  | .parkXferPropose .. => true
  | .parkXferConfirm .. => true
  | .parkClaim .. => true
  | .hbmRead .. => true
  -- a write lies within one line (R152)
  | .hbmWrite _ off data _ _ => decide (data ≠ [] ∧ off.val + data.length ≤ 128)
  | .eccConversionDone .. => true
  | .patrolScrubStart .. => true
  | .patrolLate .. => true
  | .zeroFillComplete .. => true
  | .readShared .. => true
  | .readUnique .. => true
  | .upgrade .. => true
  | .writeBack .. => true
  | .evict .. => true
  | .fwdS .. => true
  | .fwdM .. => true
  | .cohInv .. => true
  | .binv .. => true
  | .invAck .. => true
  | .fwdDone .. => true
  | .snoopMiss .. => true
  | .compAck .. => true
  | .dataReceived .. => true
  | .grantM .. => true
  | .cohNack .. => true
  | .wbAck .. => true
  | .holdExpiry .. => true
  | .nackRetryExpiry .. => true
  | .flushDone .. => true
  | .faultRecordPost .. => true
  | .xltResumeRetry .. => true
  | .xltResumeAbort .. => true
  | .faultTimeout .. => true
  | .invRange .. => true
  | .invContext .. => true
  | .invFunction .. => true
  | .invComplete .. => true
  | .invLimitExpiry .. => true
  | .descriptorChunkBoundary .. => true
  | .atsTranslationCompletion .. => true
  | .pageRequestResponse .. => true
  | .atsInvalidateRequest .. => true
  | .moveEntryStart .. => true
  | .moveEntryFinish .. => true
  | .dlogSwap .. => true
  | .dlogSwapDone .. => true
  | .urgencyChange .. => true
  | .wheelActivate .. => true
  | .linkFrameActivate .. => true
  | .netTxnTimeout .. => true
  | .routerFault .. => true
  | .routerDrainDone .. => true
  | .relayArrival .. => true
  | .relayWaitExpiry .. => true
  | .mcCopyReceive .. => true
  | .mcAck .. => true
  | .mcNack .. => true
  | .mcGrant .. => true
  | .mcRetryReceive .. => true
  | .mcTimeout .. => true
  | .createSlice .. => true
  | .destroySlice .. => true
  | .createVd .. => true
  | .destroyVd .. => true
  | .bindSlice .. => true
  | .bindHoldReached .. => true
  | .unbind .. => true
  | .moveDone .. => true
  | .unbindDeadline .. => true
  | .unbindHoldReached .. => true
  | .residentWaitExpiry .. => true
  | .unbindRelease .. => true
  | .abortUnbind .. => true
  | .setLane .. => true
  | .setQpLane .. => true
  | .setShare .. => true
  | .cgFailure .. => true
  | .quantumExpiry .. => true
  | .meterPeriodExpiry => true
  | .lread .. => true
  | .liftUnitsAvailable .. => true
  | .lwrite .. => true
  | .lflush .. => true
  | .liftTimeout .. => true
  | .doorbellWrite .. => true
  | .ringFetchComplete .. => true
  | .ringAgingPromote .. => true
  | .completionPost .. => true
  | .adminRingEnable .. => true
  | .adminRingDisable .. => true
  | .nop .. => true
  | .launchRoutine .. => true
  | .launchKernel .. => true
  | .transfer .. => true
  | .patch .. => true
  | .phaseHint .. => true
  | .moveList .. => true
  | .createContext .. => true
  | .destroyContext .. => true
  | .createRing .. => true
  | .destroyRing .. => true
  | .registerRoutine .. => true
  | .newGeneration .. => true
  | .retireRoutine .. => true
  | .registerProgram .. => true
  | .releaseProgram .. => true
  | .startResident .. => true
  | .stopResident .. => true
  | .createWq .. => true
  | .destroyWq .. => true
  | .registerService .. => true
  | .deregisterService .. => true
  | .createQp .. => true
  | .destroyQp .. => true
  | .createLiftq .. => true
  | .destroyLiftq .. => true
  | .setNumerics .. => true
  | .memobjCreate .. => true
  | .memobjDrop .. => true
  | .residentTaskWake .. => true
  | .signalSlotSignal .. => true
  | .signalSlotArm .. => true
  | .mirrorEnable .. => true
  | .abortDrainEnd .. => true
  | .abortSquashDone .. => true
  | .functionReset .. => true
  | .functionResetClear .. => true
  | .laserLockTimeout .. => true
  -- a module has 9 lines (R358)
  | .laserPoll _ _ lines => decide (lines.length = 9)
  | .laserReadTimeout .. => true
  | .dataBlockReceive .. => true
  | .dataBlockSend .. => true
  | .linkBlockDue .. => true
  | .linkAck .. => true
  | .linkNak .. => true
  | .nakRepeatExpiry .. => true
  | .linkCredit .. => true
  | .linkLaneRequest .. => true
  | .linkLaneConfirm .. => true
  | .linkEchoRequest .. => true
  | .linkEchoReply .. => true
  | .linkCaps .. => true
  -- a mode record has 16 bytes (R372)
  | .linkCommit _ record => decide (record.length = 16)
  | .linkSpdm .. => true
  | .linkDown .. => true
  | .laneFailure .. => true
  | .portTrainingDone .. => true
  -- a root digest is a SHA-384 (R374)
  | .portSessionDone _ root => decide (root.length = 48)
  | .keyUpdateDue .. => true
  | .rdReq .. => true
  | .rdData .. => true
  | .wrReq .. => true
  | .wrAck .. => true
  | .flush .. => true
  | .flushAck .. => true
  | .relayFrame .. => true
  | .relayDone .. => true
  | .relayAbort .. => true
  | .peerWaitExpiry .. => true
  | .relayDoneTimeout .. => true
  | .devIdWrite .. => true
  | .portReneg .. => true
  | .flrVf .. => true
  | .flrPf0 => true
  | .vfEnableClear .. => true
  | .vfEnableSet .. => true
  | .hotReset .. => true
  | .d3hotToD0 .. => true
  | .configRequest .. => true
  | .bar4Read .. => true
  | .bar4Write .. => true
  | .bar4Atomic .. => true
  | .bar4Resize .. => true
  | .deviceReqCompletion .. => true
  | .completionTimeout .. => true
  | .doeObject .. => true
  | .priDisable .. => true
  | .powerWindowStart .. => true
  | .opPointChangeDone .. => true
  | .railControlTick .. => true
  | .refclkAlarm .. => true
  | .refclkHoldExpiry => true
  | .glideEntry .. => true
  | .glideHoldExpiry .. => true
  | .hintPhaseStart .. => true
  | .hintWindowEnd .. => true
  -- 64 sensors a die and one a stack (R438)
  | .sensorSample d0 d1 temps => decide (d0.length = 64 ∧ d1.length = 64 ∧ temps.length = 8)
  | .avsSample .. => true
  | .pmbusPoll .. => true
  | .thermalTrip .. => true
  | .throttleNAssert => true
  | .throttleNDeassert => true
  | .lcRequest .. => true
  | .svnCommit .. => true
  | .revocation .. => true
  | .rngHealthFail => true
  | .spdmGetVersion .. => true
  | .spdmGetCapabilities .. => true
  | .spdmNegotiateAlgorithms .. => true
  | .spdmGetDigests .. => true
  | .spdmGetCertificate .. => true
  -- an SPDM nonce has 32 bytes (R467)
  | .spdmChallenge _ _ nonce => decide (nonce.length = 32)
  -- a signed request carries a nonce (R467)
  | .spdmGetMeasurements _ _ signed nonce => decide (signed = true → nonce.length = 32)
  -- an SPDM nonce has 32 bytes (R467)
  | .spdmKeyExchange _ nonce => decide (nonce.length = 32)
  | .spdmFinish .. => true
  | .spdmKeyUpdate .. => true
  | .spdmHeartbeat .. => true
  | .spdmEndSession .. => true
  | .spdmChunk .. => true
  | .tokenRefill .. => true
  | .postureWrite .. => true
  -- a model key has 32 bytes (R475)
  | .keyBlob _ _ mk => decide (∀ k ∈ mk, k.length = 32)
  | .unsealStart .. => true
  | .unsealComplete .. => true
  | .amberConsWrite .. => true
  | .amberRegionWrite .. => true
  | .pushWrite .. => true
  | .batchClose => true
  | .closeBatch .. => true
  | .checkpointNow .. => true
  | .hostcorT1 .. => true
  | .hostcorT2 .. => true
  | .hostcorTimeout .. => true
  | .bootRom .. => true
  | .bootPufKeys .. => true
  | .bootImageVerify .. => true
  | .bootMgmtFirmware .. => true
  | .bootPlls .. => true
  -- the device has 8 stacks (R149)
  | .bootHbmTraining runs _ _ => decide (runs.length = 8)
  | .bootCoreBist .. => true
  | .bootPcie .. => true
  -- the device has 4 photonic tiles (R355)
  | .bootPhotonics tiles _ _ => decide (tiles.length = 4)
  | .bootTalko .. => true
  | .bootCompositionRestore .. => true
  | .bootReady .. => true
  | .engineReset .. => true
  | .coreReset .. => true
  | .warmReset .. => true
  | .perstAssert .. => true
  | .coldReset .. => true
  | .resetRelease .. => true
  | .pwrOkAssert => true
  | .pwrOkDeassert => true
  | .berylHeartbeatTimeout .. => true
  | .crossWatchdogTimeout => true
  | .controlStateEccError .. => true
  | .loopProcessorSilence .. => true
  | .watchdogFire .. => true
  | .stepBudgetOverrun .. => true
  | .replayTileDone .. => true
  | .replayWatchdogFire .. => true
  | .dunirRead .. => true
  | .dunirWrite .. => true
  | .dunirDescribe .. => true
  | .dunirVersion .. => true
  | .mbxGo .. => true
  | .mctpPacketTimeout .. => true
  | .persistCommitDone .. => true
  | .resetRequestCore .. => true
  | .resetRequestWarm .. => true
  | .resetRequestCold .. => true
  -- a set holds at most four images (R495)
  | .setCommit _ good => decide (good.length ≤ 4)
  | .traceCtlWrite .. => true
  | .registerWrite .. => true
  | .refclkValidAgain => true
  -- a stack has 16 channels (R149)
  | .patrolPassComplete _ ecs => decide (ecs.length = 16)
  | .deadlineHalfUsed .. => true
  | .talkoKeyingTimeout .. => true
  | .wqWait .. => true
  | .residentTaskExit .. => true
  | .transferComplete .. => true
  | .pcieLinkUp .. => true
  | .parkRestoreTimeout .. => true

end Sys2Proof
end

