-- ==== Sys2Proof/Certificates/Slice0/Obligations.lean ====
section
/-! DEFINITION. The statements for the provers, from the spec's rules. -/

open Sys2Proof Sys2Proof.Machine Sys2Proof.Safety

namespace Sys2Proof.Claims

def laneOp (c : Instr) (e : EngId) (d : Nat) (f : Eng → Nat → W32) : Prop :=
  ∀ s, gives c s (fun t => onlyEng s t e.val ∧ (∀ i < 64, vlane (t.eng e.val) d i = f (s.eng e.val) i) ∧
    (∀ r i, r ≠ d → vlane (t.eng e.val) r i = vlane (s.eng e.val) r i) ∧
    { t.eng e.val with vregs := (s.eng e.val).vregs } = s.eng e.val)

end Sys2Proof.Claims

open Sys2Proof.Claims in
/-- Lane-wise vector instructions write each lane of their destination and nothing else. VADD, VSUB, VMUL, VFMA, VMIN,
VMAX, VSEL, the integer and shift instructions and the nine special functions complete in every state and give each of
the 64 lanes of the destination register the operation of the same lanes of the sources, an NSW-free effect: every
other vector register, every other field of the engine, every other engine and all other state is unchanged. A shift by
32 or more has the model's free value (log 4) and a special function the value of sfu (log 5), so for those the
statement names the model's functions. -/
def Obligations.VectorLanes : Prop :=
  ∀ (e : EngId) (d a b : Nat),
    (∀ r, laneOp (.vadd e r d a b) e d (fun x i => fadd (vround r) (vlane x a i) (vlane x b i))) ∧
    (∀ r, laneOp (.vsub e r d a b) e d (fun x i => fsub (vround r) (vlane x a i) (vlane x b i))) ∧
    (∀ r, laneOp (.vmul e r d a b) e d (fun x i => fmul (vround r) (vlane x a i) (vlane x b i))) ∧
    (∀ r c, laneOp (.vfma e r d a b c) e d (fun x i => ffma (vround r) (vlane x a i) (vlane x b i) (vlane x c i))) ∧
    laneOp (.vmin e d a b) e d (fun x i => fminmax false (vlane x a i) (vlane x b i)) ∧
    laneOp (.vmax e d a b) e d (fun x i => fminmax true (vlane x a i) (vlane x b i)) ∧
    (∀ m, laneOp (.vsel e d m a b) e d (fun x i => if (maskReg x m).getLsbD i then vlane x a i else vlane x b i)) ∧
    laneOp (.viadd e d a b) e d (fun x i => vlane x a i + vlane x b i) ∧
    laneOp (.visub e d a b) e d (fun x i => vlane x a i - vlane x b i) ∧
    laneOp (.vimul e d a b) e d (fun x i => vlane x a i * vlane x b i) ∧
    laneOp (.vand e d a b) e d (fun x i => vlane x a i &&& vlane x b i) ∧
    laneOp (.vor e d a b) e d (fun x i => vlane x a i ||| vlane x b i) ∧
    laneOp (.vxor e d a b) e d (fun x i => vlane x a i ^^^ vlane x b i) ∧
    laneOp (.vshl e d a b) e d (fun x i => if (vlane x b i).toNat < 32 then vlane x a i <<< (vlane x b i).toNat
      else Config.shiftOver 0 (vlane x a i) (vlane x b i)) ∧
    laneOp (.vshra e d a b) e d (fun x i => if (vlane x b i).toNat < 32 then (vlane x a i).sshiftRight (vlane x b i).toNat
      else Config.shiftOver 1 (vlane x a i) (vlane x b i)) ∧
    laneOp (.vshrl e d a b) e d (fun x i => if (vlane x b i).toNat < 32 then vlane x a i >>> (vlane x b i).toNat
      else Config.shiftOver 2 (vlane x a i) (vlane x b i)) ∧
    laneOp (.vrcp e d a) e d (fun x i => sfu .rcp (vlane x a i)) ∧
    laneOp (.vrsqrt e d a) e d (fun x i => sfu .rsqrt (vlane x a i)) ∧
    laneOp (.vsqrt e d a) e d (fun x i => sfu .sqrt (vlane x a i)) ∧
    laneOp (.vexp2 e d a) e d (fun x i => sfu .exp2 (vlane x a i)) ∧
    laneOp (.vlog2 e d a) e d (fun x i => sfu .log2 (vlane x a i)) ∧
    laneOp (.vsin e d a) e d (fun x i => sfu .sin (vlane x a i)) ∧
    laneOp (.vcos e d a) e d (fun x i => sfu .cos (vlane x a i)) ∧
    laneOp (.vtanh e d a) e d (fun x i => sfu .tanh (vlane x a i)) ∧
    laneOp (.vsigm e d a) e d (fun x i => sfu .sigm (vlane x a i))

namespace Sys2Proof.Claims

def cmpOp (c : Instr) (e : EngId) (m a b : Nat) (p : VCmp) : Prop :=
  ∀ s, gives c s (fun t => onlyEng s t e.val ∧
    (∀ i < 64, (maskReg (t.eng e.val) m).getLsbD i = fcmp p (vlane (s.eng e.val) a i) (vlane (s.eng e.val) b i)) ∧
    (∀ q, q ≠ m → maskReg (t.eng e.val) q = maskReg (s.eng e.val) q) ∧
    { t.eng e.val with masks := (s.eng e.val).masks } = s.eng e.val)

end Sys2Proof.Claims

open Sys2Proof.Claims in
/-- The six compares write one mask bit per lane, with -0 equal to +0 and NaN comparing as R66 says. Each of VCMP.EQ, NE,
LT, LE, GT and GE completes in every state, gives bit i of the mask register m, for i below 64, the comparison of lane
i of its two sources, and leaves every other mask register, every other field of the engine, every other engine and all
other state unchanged. The comparison of a NaN with anything is false except under NE, where it is true; -0 and +0
compare equal. -/
def Obligations.VectorCompares : Prop :=
  (∀ (e : EngId) (m a b : Nat),
    cmpOp (.vcmpEq e m a b) e m a b .eq ∧ cmpOp (.vcmpNe e m a b) e m a b .ne ∧ cmpOp (.vcmpLt e m a b) e m a b .lt ∧
    cmpOp (.vcmpLe e m a b) e m a b .le ∧ cmpOp (.vcmpGt e m a b) e m a b .gt ∧ cmpOp (.vcmpGe e m a b) e m a b .ge) ∧
  (∀ (p : VCmp) (x y : W32), isNan32 x = true ∨ isNan32 y = true → fcmp p x y = decide (p = .ne)) ∧
  (∀ p : VCmp, fcmp p 0x80000000#32 0#32 = decide (p = .eq ∨ p = .le ∨ p = .ge) ∧
    fcmp p 0#32 0x80000000#32 = decide (p = .eq ∨ p = .le ∨ p = .ge))

open Sys2Proof.Claims in
/-- Minimum and maximum: -0 below +0, a NaN loses to a number, two NaNs give the canonical NaN. For every pair of FP32
codes: when both are NaN, VMIN and VMAX give 0x7FC00000; when exactly one is NaN they give the other code; otherwise
the result is one of the two codes. For the two zeros VMIN gives -0 and VMAX gives +0, in both operand orders. -/
def Obligations.VectorMinMaxRules : Prop :=
  (∀ (mx : Bool) (x y : W32), isNan32 x = true → isNan32 y = true → fminmax mx x y = 0x7FC00000#32) ∧
  (∀ (mx : Bool) (x y : W32), isNan32 x = true → isNan32 y = false → fminmax mx x y = y ∧ fminmax mx y x = y) ∧
  (∀ (mx : Bool) (x y : W32), isNan32 x = false → isNan32 y = false → fminmax mx x y = x ∨ fminmax mx x y = y) ∧
  fminmax false 0#32 0x80000000#32 = 0x80000000#32 ∧ fminmax false 0x80000000#32 0#32 = 0x80000000#32 ∧
  fminmax true 0#32 0x80000000#32 = 0#32 ∧ fminmax true 0x80000000#32 0#32 = 0#32

namespace Sys2Proof.Claims

/-- The pairwise tree of 2^k values (R64). -/
def pairTree (f : W32 → W32 → W32) (v : Nat → W32) : Nat → Nat → W32
  | 0, i => v i
  | k + 1, i => f (pairTree f v k (2 * i)) (pairTree f v k (2 * i + 1))
def redOp (c : Instr) (e : EngId) (d a : Nat) (f : W32 → W32 → W32) : Prop :=
  ∀ s, gives c s (fun t => onlyEng s t e.val ∧
    sreg (t.eng e.val) d = (pairTree f (vlane (s.eng e.val) a) 6 0).setWidth 64 ∧
    (∀ q, q ≠ d → sreg (t.eng e.val) q = sreg (s.eng e.val) q) ∧
    { t.eng e.val with sregs := (s.eng e.val).sregs } = s.eng e.val)

end Sys2Proof.Claims

open Sys2Proof.Claims in
/-- The lane reductions fold the 64 lanes along the canonical tree, in every mode. VRED.SUM, VRED.MAX and VRED.MIN complete
in every state, whatever the numerics mode of any context or launch. They write scalar register d with the root of the
tree of R64 over lanes 0 to 63 (64 leaves pair up as 32, 16, 8, 4, 2, 1 in index order) under RNE FP32 addition, and
under the rules of VMAX and VMIN; they change nothing else. -/
def Obligations.VectorReductions : Prop :=
  ∀ (e : EngId) (d a : Nat), redOp (.vredSum e d a) e d a (fadd .rne) ∧ redOp (.vredMax e d a) e d a (fminmax true) ∧
    redOp (.vredMin e d a) e d a (fminmax false)

namespace Sys2Proof.Claims

/-- The block conversion of half h of a VCVT with an MX target (R55, R57). -/
def mxBlock (x : Eng) (a sa : Nat) (src dst : CvtFmt) (rm : RMode) (seed : W64) (tensor : W32) (il ih h : Nat) : Nat × List Nat × W16 :=
  convertMx (cvtFmt dst) rm ((List.range 32).map (fun i => cvtRandom x rm seed.toNat tensor.toNat il ih (32 * h + i)))
    ((List.range 32).map (fun i => cvtSource x (cvtFmt src) a sa (32 * h + i)))

end Sys2Proof.Claims

open Sys2Proof.Claims in
/-- Gather, scatter and VCVT: each lane's value, LOS_OOB for bad lanes, and the status word. VGATHER gives each usable lane
the little-endian LOS word at its offset under the core's tag and a bad lane 0; VSCATTER makes the LOS word at each
usable lane's offset the value of the highest usable lane with that offset; either sets LOS_OOB exactly when some
lane's offset is not a multiple of 4 or is 262,144 or above (bits already set stay). VCVT to a format that is no MX
format gives each lane the code of its converted value and ORs every lane's status bits, and SR_USED under SR, into the
status word; VCVT to an MX format converts lanes 0 to 31 and 32 to 63 as two blocks, whose scales go to lanes 0 and 1
of sd and whose codes to d. It leaves the conversion parameters it was given in the engine. Each completes in every
state and changes no other engine and nothing outside the engines. -/
def Obligations.GatherScatterConvert : Prop :=
  (∀ (e : EngId) (d o : Nat) (s : State), gives (.vgather e d o) s (fun t => onlyEng s t e.val ∧
    (∀ i < 64, vlane (t.eng e.val) d i = if losLaneOk (vlane (s.eng e.val) o i) then
      BitVec.ofNat 32 (leNat (losRead (s.eng e.val) (s.coreTag (engCore e.val)) (vlane (s.eng e.val) o i).toNat 4)) else 0) ∧
    (t.eng e.val).nsw = (s.eng e.val).nsw ||| (if (vlanes (s.eng e.val) o).all losLaneOk then 0 else nswLosOob) ∧
    { t.eng e.val with vregs := (s.eng e.val).vregs, nsw := (s.eng e.val).nsw } = s.eng e.val)) ∧
  (∀ (e : EngId) (o a : Nat) (s : State), gives (.vscatter e o a) s (fun t => onlyEng s t e.val ∧
    (∀ i < 64, losLaneOk (vlane (s.eng e.val) o i) = true →
      (∀ j < 64, i < j → vlane (s.eng e.val) o j ≠ vlane (s.eng e.val) o i) →
      losRead (t.eng e.val) (s.coreTag (engCore e.val)) (vlane (s.eng e.val) o i).toNat 4 = natLe 4 (vlane (s.eng e.val) a i).toNat) ∧
    (t.eng e.val).nsw = (s.eng e.val).nsw ||| (if (vlanes (s.eng e.val) o).all losLaneOk then 0 else nswLosOob) ∧
    { t.eng e.val with los := (s.eng e.val).los, nsw := (s.eng e.val).nsw } = s.eng e.val)) ∧
  (∀ (e : EngId) (d sd a sa : Nat) (src dst : CvtFmt) (rm : RMode) (ov : Ovf) (seed : W64) (tensor : W32) (il ih : Nat) (s : State),
    isMx (cvtFmt dst) = false →
    gives (.vcvt e d sd a sa src dst rm ov seed tensor il ih) s (fun t => onlyEng s t e.val ∧
      (t.eng e.val).cvt = { round := rm, ovf := ov, seed := seed, tensor := tensor } ∧
      (∀ i < 64, vlane (t.eng e.val) d i = BitVec.ofNat 32 (convertTo (cvtFmt dst) rm ov
        (cvtRandom (s.eng e.val) rm seed.toNat tensor.toNat il ih i) (cvtSource (s.eng e.val) (cvtFmt src) a sa i)).1) ∧
      (t.eng e.val).nsw = (s.eng e.val).nsw ||| (orAll ((List.range 64).map (fun i => (convertTo (cvtFmt dst) rm ov
        (cvtRandom (s.eng e.val) rm seed.toNat tensor.toNat il ih i) (cvtSource (s.eng e.val) (cvtFmt src) a sa i)).2)) |||
        srFlag rm) ∧
      (∀ r i, r ≠ d → vlane (t.eng e.val) r i = vlane (s.eng e.val) r i))) ∧
  (∀ (e : EngId) (d sd a sa : Nat) (src dst : CvtFmt) (rm : RMode) (ov : Ovf) (seed : W64) (tensor : W32) (il ih : Nat) (s : State),
    isMx (cvtFmt dst) = true →
    gives (.vcvt e d sd a sa src dst rm ov seed tensor il ih) s (fun t => onlyEng s t e.val ∧
      (t.eng e.val).cvt = { round := rm, ovf := ov, seed := seed, tensor := tensor } ∧
      (∀ h < 2, vlane (t.eng e.val) sd h = BitVec.ofNat 32 (mxBlock (s.eng e.val) a sa src dst rm seed tensor il ih h).1 ∧
        (sd ≠ d → ∀ i < 32, vlane (t.eng e.val) d (32 * h + i) =
          BitVec.ofNat 32 ((mxBlock (s.eng e.val) a sa src dst rm seed tensor il ih h).2.1.getD i 0))) ∧
      (t.eng e.val).nsw = (s.eng e.val).nsw ||| ((mxBlock (s.eng e.val) a sa src dst rm seed tensor il ih 0).2.2 |||
        (mxBlock (s.eng e.val) a sa src dst rm seed tensor il ih 1).2.2 ||| srFlag rm) ∧
      (∀ r i, r ≠ d → r ≠ sd → vlane (t.eng e.val) r i = vlane (s.eng e.val) r i)))

namespace Sys2Proof.Claims

def atomOp (c : Instr) (e : EngId) (w : SpWord) (f : W32 → W32) : Prop :=
  ∀ s, gives c s (fun t => onlyCore s t (engCore e.val) ∧
    (∀ q < 688128, spRead (t.core (engCore e.val)) (s.coreTag (engCore e.val)) (4 * q) 4 =
      if q = w.val then natLe 4 (f (BitVec.ofNat 32 (leNat (spRead (s.core (engCore e.val)) (s.coreTag (engCore e.val)) (4 * q) 4)))).toNat
      else spRead (s.core (engCore e.val)) (s.coreTag (engCore e.val)) (4 * q) 4) ∧
    { t.core (engCore e.val) with sp := (s.core (engCore e.val)).sp } = s.core (engCore e.val))

end Sys2Proof.Claims

open Sys2Proof.Claims in
/-- A scratchpad atomic updates its own word under the core's tag and leaves every other word alone. Each of the six
scratchpad atomics completes in every state. Read under the core's tag, its word afterwards holds the operation of its
value before (0 for storage of another tag or not written) and the operand; every other word of the tagged part reads
as before under that tag; every field of the core but the scratchpad, every other core and all other state is
unchanged. -/
def Obligations.ScratchpadAtomics : Prop :=
  ∀ (e : EngId) (w : SpWord) (v : W32),
    atomOp (.spAtomicAdd e w v) e w (fun x => x + v) ∧ atomOp (.spAtomicAnd e w v) e w (fun x => x &&& v) ∧
    atomOp (.spAtomicOr e w v) e w (fun x => x ||| v) ∧
    atomOp (.spAtomicMax e w v) e w (fun x => if x.toInt < v.toInt then v else x) ∧
    atomOp (.spAtomicMin e w v) e w (fun x => if v.toInt < x.toInt then v else x) ∧
    atomOp (.spAtomicFadd e w v) e w (fun x => fadd .rne x v)

open Sys2Proof.Claims in
/-- CBAR waits for the core's other running engines, SPFENCE orders at once, SWGEN reads the switch count. CBAR, SPFENCE
and the read of SWGEN complete in every state and change no state outside the engines and, for the end of Glide, the
trace. CBAR: while another engine of the core runs a tile and has not arrived, the engine is marked as arrived and
nothing else changes; otherwise no engine of the core stays at the barrier and the arriving engine has one ordering
point more. SPFENCE gives the engine one ordering point more and changes nothing else. SWGEN_READ puts the core's GEN,
zero-extended, in scalar register d and changes nothing else. -/
def Obligations.BarrierFenceSwgen : Prop :=
  (∀ (e : EngId) (s : State),
    (∃ i ∈ coreEngs (engCore e.val), i ≠ e.val ∧ (s.eng i).atBarrier = false ∧ (s.eng i).run.isSome = true) →
    gives (.cbar e) s (fun t => onlyEng s t e.val ∧ t.eng e.val = { s.eng e.val with atBarrier := true })) ∧
  (∀ (e : EngId) (s : State),
    (∀ i ∈ coreEngs (engCore e.val), i ≠ e.val → (s.eng i).atBarrier = true ∨ (s.eng i).run.isNone = true) →
    gives (.cbar e) s (fun t => t = { s with engs := t.engs, trace := t.trace } ∧ (∀ i ∈ coreEngs (engCore e.val), (t.eng i).atBarrier = false) ∧
      (t.eng e.val).ordPoints = (s.eng e.val).ordPoints + 1 ∧ (∀ k, k ∉ coreEngs (engCore e.val) → t.eng k = s.eng k))) ∧
  (∀ (e : EngId) (s : State),
    gives (.spfence e) s (fun t => onlyEng s t e.val ∧ t.eng e.val = { s.eng e.val with ordPoints := (s.eng e.val).ordPoints + 1 })) ∧
  (∀ (e : EngId) (d : Nat) (s : State), gives (.swgenRead e d) s (fun t => onlyEng s t e.val ∧
    sreg (t.eng e.val) d = ((s.core (engCore e.val)).switchGen).setWidth 64 ∧
    (∀ q, q ≠ d → sreg (t.eng e.val) q = sreg (s.eng e.val) q) ∧
    { t.eng e.val with sregs := (s.eng e.val).sregs } = s.eng e.val))

namespace Sys2Proof.Claims

abbrev hitLine (s : State) (c va n line off : Nat) (ctx : Nat) (write : Bool) : Prop :=
  ∃ v len ac, s.coreVd c = some v ∧ (∃ x, s.ctx? v ctx = some x ∧ x.acEn = false) ∧
    xlateWith s (s.core c).xtlb v ctx va write = (.dev (128 * line + off) len ac, []) ∧ n ≤ len ∧ off + n ≤ 128 ∧
    (s.core c).xtlb.length ≤ 256 ∧ (s.dcLine c line).tag = s.coreTag c ∧ (s.dcLine c line).poison = false

end Sys2Proof.Claims

open Sys2Proof.Claims in
/-- A scalar load reads, and a scalar store writes, the cached line its address translates to. For an engine whose core is
bound to a VD, an access of 1, 2, 4 or 8 bytes that its core's cached translation maps into one line of device memory,
held there under the core's tag and not poisoned, completes: the load puts the little-endian bytes, zero-extended, in
its scalar register; the store, on a line in E or M, makes those bytes of the line the operand's low bytes and the line
M. Access counting is off for the context, and the translation meets no entry that it does not already cache. Nothing
but the engine's scalar register, or the line, changes. -/
def Obligations.ScalarAccessHits : Prop :=
  (∀ (e : EngId) (d : Nat) (ctx : Fin 4096) (va : W64) (z : AccSize) (u : Bool) (line off : Nat) (s : State),
    hitLine s (engCore e.val) va.toNat (accBytes z) line off ctx.val false → (s.dcLine (engCore e.val) line).st ≠ .i →
    gives (.scalarLoad e d ctx va z u) s (fun t => t = { s with engs := t.engs, cores := t.cores } ∧ (∀ k, t.core k = s.core k) ∧
      (∀ k, k ≠ e.val → t.eng k = s.eng k) ∧ t.eng e.val = setSreg (s.eng e.val) d (BitVec.ofNat 64 (leNat ((List.range (accBytes z)).map
        (fun i => lineByte (s.dcLine (engCore e.val) line).data (off + i))))))) ∧
  (∀ (e : EngId) (ctx : Fin 4096) (va : W64) (z : AccSize) (v : W64) (u : Bool) (line off : Nat) (s : State),
    hitLine s (engCore e.val) va.toNat (accBytes z) line off ctx.val true →
    (s.dcLine (engCore e.val) line).st = .e ∨ (s.dcLine (engCore e.val) line).st = .m →
    gives (.scalarStore e ctx va z v u) s (fun t => onlyCore s t (engCore e.val) ∧
      t.dcLine (engCore e.val) line = { s.dcLine (engCore e.val) line with
        st := .m, data := lineSet (s.dcLine (engCore e.val) line).data off (natLe (accBytes z) v.toNat) } ∧
      { t.core (engCore e.val) with dcache := (s.core (engCore e.val)).dcache } = s.core (engCore e.val)))

namespace Sys2Proof.Claims

abbrev idleEng (s : State) (e : Nat) : Prop :=
  (s.eng e).queue = [] ∧ (s.eng e).run = none ∧ canPull s e = true ∧ (s.core (engCore e)).tq = []

end Sys2Proof.Claims

open Sys2Proof.Claims in
/-- A pull hands over the oldest queued tile, an idle claim steals the newest or splits a running tile. ENGINE_PULL: with a
tile at the head of the core's queue and i the first engine in rotation after the one served last that wants a tile,
may pull and has fewer than four, i becomes the one served last, and the head tile either joins the end of the private
queue of an engine that runs a tile or starts on an engine with nothing queued or running whose launch lives.
IDLE_CLAIM by an engine with no work while the tile queue is empty: where a sibling holds an unpinned unstarted tile,
the newest such tile of the sibling chosen leaves its queue, starts on the claimer and is counted; otherwise, with
K-splits enabled, a victim and a free partial slot i, the victim's tile ends at the split point and the claimer runs
the rest in slot i, counted; otherwise the engine waits for its retry. CLAIM_RETRY_EXPIRY of an engine that waits is
such a claim. -/
def Obligations.TilesReachEngines : Prop :=
  (∀ (c : CoreId) (wants : BitVec 8) (s : State) (t : Tile) (q : List Tile) (i : Nat), (s.core c.val).tq = t :: q →
    ((List.range 8).map (fun j => ((s.core c.val).lastPull + 1 + j) % 8)).find? (fun j => wants.toNat.testBit j &&
      canPull s (8 * c.val + j) && decide ((s.eng (8 * c.val + j)).queue.length < 4)) = some i →
    ((s.eng (8 * c.val + i)).run.isSome = true →
      gives (.enginePull c wants) s (fun u => (u.core c.val).lastPull = i ∧ (u.core c.val).tq = q ++ (s.core c.val).backlog.take (256 - q.length) ∧
        (u.eng (8 * c.val + i)).queue = (s.eng (8 * c.val + i)).queue ++ [t])) ∧
    ((s.eng (8 * c.val + i)).run = none → (s.eng (8 * c.val + i)).queue = [] → (s.launch? t.launch).isSome = true →
      gives (.enginePull c wants) s (fun u => (u.core c.val).lastPull = i ∧ (u.eng (8 * c.val + i)).queue = [] ∧
        (u.eng (8 * c.val + i)).run.map (fun r => (r.tile, r.done, r.chunk)) = some (t, t.kBegin, min t.kEnd (t.kBegin + 256))))) ∧
  (∀ (e : EngId) (s : State), idleEng s e.val →
    (∀ v t q, (s.core (engCore e.val)).engStealEn = true → stealFrom s e.val = some v → v ≠ e.val → takeNewest (s.eng v).queue = some (t, q) →
      (s.launch? t.launch).isSome = true →
      gives (.idleClaim e) s (fun u => (u.eng v).queue = q ∧ (u.eng e.val).run.map (·.tile) = some t ∧
        (u.core (engCore e.val)).engSteals = satAdd 16 (s.core (engCore e.val)).engSteals 1)) ∧
    (∀ v r i, (s.core (engCore e.val)).engStealEn = false → (s.core (engCore e.val)).ksplitEn = true →
      splitVictim s (engCore e.val) e.val = some v → v ≠ e.val → (s.eng v).run = some r → (s.launch? r.tile.launch).isSome = true →
      (List.range 8).find? (fun i => !(lookD (s.core (engCore e.val)).slots i {}).used) = some i →
      gives (.idleClaim e) s (fun u => (u.eng v).run.map (·.tile.kEnd) = some (splitPoint r.chunk r.tile.kEnd) ∧
        (u.eng e.val).run.map (·.tile) = some { r.tile with kBegin := splitPoint r.chunk r.tile.kEnd, slot := i } ∧
        (u.core (engCore e.val)).ksplits = satAdd 16 (s.core (engCore e.val)).ksplits 1)) ∧
    ((s.core (engCore e.val)).engStealEn = false → (s.core (engCore e.val)).ksplitEn = false →
      gives (.idleClaim e) s (fun u => onlyEng s u e.val ∧ u.eng e.val = { s.eng e.val with claimWait := true }))) ∧
  (∀ (e : EngId) (s : State), (s.eng e.val).claimWait = true →
    gives (.claimRetryExpiry e) s (fun u => exec (.idleClaim e) (s.modEng e.val (fun x => { x with claimWait := false })) = .next u))

open Sys2Proof.Claims in
/-- A chunk boundary extends the accumulators, partials combine once, and a finished tile counts at its origin.
CHUNK_BOUNDARY of a matrix tile that is not stalled, has not reached its chunk's end and is not under the canonical
reduction: where the operands of the chunk can be read, the accumulators become those of the longer range, the chunk's
end moves on by 256 up to K_END and the status word collects the flags. PARTIAL_COMBINE at K_END with every thief's
slot ready, of a tile that is itself a thief: the accumulators are joined with the slots' in ascending order of split
point and no thief stays. TILE_COMPLETE of a thief tile at its K_END puts its accumulators in its slot, ready, and
frees the engine; of a stolen tile that has no output left to write it sends TILE_DONE to the origin and frees the
engine; of a tile on its own core it takes one off the node's count; a matrix tile that writes its output does so
first. TILE_DONE for a tile the origin granted takes it off the granted list and one off the node's count. -/
def Obligations.TilesRunAndComplete : Prop :=
  (∀ (e : EngId) (s : State) (r : RunTile) (l : Launch) (accs : List Acc) (fl : W16),
    (s.eng e.val).run = some r → s.launch? r.tile.launch = some l → r.tile.matrix = true → r.stalled = none → r.done < r.chunk →
    accModeOf (l.nodes.getD r.tile.node {}) l.figures ≠ .canon →
    tileAccs s l (l.nodes.getD r.tile.node {}) r.tile r.accs r.done r.chunk = .ok (accs, fl) →
    gives (.chunkBoundary e) s (fun t => (t.eng e.val).nsw = (s.eng e.val).nsw ||| fl ∧
      (t.eng e.val).run = some { r with done := r.chunk, accs := accs, chunk := min r.tile.kEnd (r.chunk + 256) })) ∧
  (∀ (e : EngId) (s : State) (r : RunTile), (s.eng e.val).run = some r → (s.launch? r.tile.launch).isSome = true →
    r.tile.kEnd ≤ r.done → r.thieves ≠ [] → r.stalled = none → r.tile.slot ≠ 0xFF →
    (∀ th ∈ r.thieves, th.slot ≠ 0xFF ∧ (lookD (s.core (engCore e.val)).slots th.slot {}).ready = true) →
    gives (.partialCombine e) s (fun t => (t.eng e.val).run = some { r with
      thieves := []
      accs := (r.thieves.mergeSort (fun a b => a.split ≤ b.split)).foldl
        (fun a th => a.zipWith accJoin (lookD (s.core (engCore e.val)).slots th.slot {}).accs) r.accs })) ∧
  (∀ (e : EngId) (s : State) (r : RunTile) (l : Launch), (s.eng e.val).run = some r → (s.eng e.val).replaying = false →
    (s.eng e.val).queue = [] → s.launch? r.tile.launch = some l → l.failed = none → r.stalled = none → r.thieves = [] →
    (r.tile.matrix = true → r.tile.kEnd ≤ r.done) →
    (r.tile.slot ≠ 0xFF →
      gives (.tileComplete e) s (fun t => (t.eng e.val).run = none ∧
        lookD (t.core (engCore e.val)).slots r.tile.slot {} = { used := true, ready := true, launch := r.tile.launch, accs := r.accs })) ∧
    (r.tile.slot = 0xFF → r.tile.matrix = false ∨ r.combined = true → r.tile.origin ≠ engCore e.val →
      gives (.tileComplete e) s (fun t => (t.eng e.val).run = none ∧
        t.xmsgs = s.xmsgs ++ [.done (engCore e.val) r.tile.origin r.tile])) ∧
    (r.tile.slot = 0xFF → r.tile.matrix = false ∨ r.combined = true → r.tile.origin = engCore e.val → 1 < lookD l.left r.tile.node 1 →
      gives (.tileComplete e) s (fun t => (t.eng e.val).run = none ∧
        (t.launch? r.tile.launch).map (fun x => lookD x.left r.tile.node 1) = some (lookD l.left r.tile.node 1 - 1))) ∧
    (∀ u, r.tile.slot = 0xFF → r.tile.matrix = true → r.combined = false →
      finishBlock s e.val l (l.nodes.getD r.tile.node {}) r = .ok u →
      gives (.tileComplete e) s (fun t => t = { settleLaunch (countTile (engineFree u e.val) (engCore e.val) l r.tile) r.tile.launch with
        pending := s.pending, pool := s.pool }))) ∧
  (∀ (o : CoreId) (s : State) (th : Nat) (t : Tile) (l : Launch), XMsg.done th o.val t ∈ s.xmsgs →
    (∀ th' t', XMsg.done th' o.val t' ∈ s.xmsgs → (th', t') = (th, t)) → (th, t) ∈ (s.core o.val).granted →
    s.launch? t.launch = some l → l.failed = none → 1 < lookD l.left t.node 1 →
    gives (.tileDone o) s (fun u => u.xmsgs = s.xmsgs.erase (.done th o.val t) ∧
      (u.core o.val).granted = (s.core o.val).granted.erase (th, t) ∧
      (u.launch? t.launch).map (fun x => lookD x.left t.node 1) = some (lookD l.left t.node 1 - 1)))

open Sys2Proof.Claims in
/-- A fully idle core asks a neighbour, which grants or denies; a reset thief's tiles come back. XCORE_REQUEST: a fully
idle core that is no hot spare (log 16), with the register bit set, no request open, not switching or in reset, sends a
request to the next neighbour and records it. The victim answers a request with a grant of its newest tiles that may
leave, takes them off its queue and counts them, where it grants at least one, and otherwise with a deny. A grant ends
the thief's request and its list of denials, remembers the direction, counts the tiles and puts them behind the thief's
waiting tiles. A deny, or a timeout, of the neighbour asked ends the request and adds it to the denials. The backoff's
end lets the core ask again. A reset notice puts every tile granted to that thief back behind the origin's tiles and
forgets the grants. -/
def Obligations.CrossCoreStealing : Prop :=
  (∀ (c : CoreId) (s : State) (v : Nat), (s.core c.val).xcoreEn = true → heldIdle s c.val = false →
    fullyIdle s c.val = true → (s.core c.val).xreq = .none →
    (s.core c.val).st ≠ .switching → (s.core c.val).st ≠ .reset → nextVictim s c.val = some v →
    gives (.xcoreRequest c) s (fun t => t.core c.val = { s.core c.val with xreq := .asked v } ∧ t.xmsgs = s.xmsgs ++ [.request c.val v] ∧
      t = { s with cores := t.cores, xmsgs := t.xmsgs })) ∧
  (∀ (v th : CoreId) (s : State), XMsg.request th.val v.val ∈ s.xmsgs →
    ((s.core v.val).xcoreEn = true → (s.core v.val).st ≠ .switching → (s.core v.val).st ≠ .reset → 1 ≤ grantCount (s.core v.val) →
      takeGrant (grantCount (s.core v.val)) (s.core v.val).tq ≠ [] →
      gives (.xcoreRequestReceived v th) s (fun t =>
        t.xmsgs = s.xmsgs.erase (.request th.val v.val) ++ [.grant th.val v.val (takeGrant (grantCount (s.core v.val)) (s.core v.val).tq)] ∧
        (t.core v.val).xcoreIn = satAdd 16 (s.core v.val).xcoreIn (takeGrant (grantCount (s.core v.val)) (s.core v.val).tq).length)) ∧
    ((s.core v.val).xcoreEn = false ∨ grantCount (s.core v.val) = 0 →
      gives (.xcoreRequestReceived v th) s (fun t => t = { s with
        xmsgs := s.xmsgs.erase (.request th.val v.val) ++ [.deny th.val v.val] }))) ∧
  (∀ (th v : CoreId) (s : State) (ts : List Tile), XMsg.grant th.val v.val ts ∈ s.xmsgs →
    (∀ us, XMsg.grant th.val v.val us ∈ s.xmsgs → us = ts) →
    gives (.xcoreGrantReceived th v) s (fun t => t.xmsgs = s.xmsgs.erase (.grant th.val v.val ts) ∧
      (t.core th.val).xreq = .none ∧ (t.core th.val).xdenied = [] ∧ (t.core th.val).xlast = dirOf th.val v.val ∧
      (t.core th.val).xcoreOut = satAdd 16 (s.core th.val).xcoreOut ts.length ∧
      (t.core th.val).tq ++ (t.core th.val).backlog = (s.core th.val).tq ++ (s.core th.val).backlog ++ ts)) ∧
  (∀ (th v : CoreId) (s : State), XMsg.deny th.val v.val ∈ s.xmsgs → (s.core th.val).xreq = .asked v.val →
    gives (.xcoreDenyReceived th v) s (fun t => t.xmsgs = s.xmsgs.erase (.deny th.val v.val) ∧
      t.core th.val = { s.core th.val with xreq := .none, xdenied := (s.core th.val).xdenied ++ [v.val] })) ∧
  (∀ (c : CoreId) (s : State) (v : Nat), (s.core c.val).xreq = .asked v →
    gives (.xcoreTimeout c) s (fun t => onlyCore s t c.val ∧
      t.core c.val = { s.core c.val with xreq := .none, xdenied := (s.core c.val).xdenied ++ [v] })) ∧
  (∀ (c : CoreId) (s : State), (s.core c.val).xreq = .backoff →
    gives (.xcoreBackoffExpiry c) s (fun t => onlyCore s t c.val ∧ t.core c.val = { s.core c.val with xreq := .none, xdenied := [] })) ∧
  (∀ (o th : CoreId) (s : State), XMsg.resetNotice th.val o.val ∈ s.xmsgs →
    gives (.resetNotice o th) s (fun t => t.xmsgs = s.xmsgs.erase (.resetNotice th.val o.val) ∧
      (∀ p ∈ (t.core o.val).granted, p.1 ≠ th.val) ∧
      (t.core o.val).tq ++ (t.core o.val).backlog = (s.core o.val).tq ++ (s.core o.val).backlog ++
        (((s.core o.val).granted.filter (fun p => p.1 = th.val)).map (·.2))))

namespace Sys2Proof.Claims

/-- The request k of core c for a line is in flight, not escalated, and the home is free of it. -/
abbrev asked (s : State) (c line : Nat) (k : CohReq) : Prop :=
  (CohMsg.request k line c true) ∉ s.mem.msgs ∧ (CohMsg.request k line c false) ∈ s.mem.msgs
abbrev idleLine (s : State) (c line : Nat) : Prop :=
  (s.llcLine line).valid = true ∧ (s.llcLine line).tag = s.coreTag c ∧ (s.llcLine line).txn = none ∧ (s.llcLine line).binvLeft = [] ∧
    (s.llcLine line).rsv = none
/-- The messages change as given, and nothing else outside the home's entry of the line. -/
def homeSends (s t : State) (line : Nat) (m : CohMsg) (out : List CohMsg) : Prop :=
  t = { s with mem := { s.mem with msgs := s.mem.msgs.erase m ++ out, llc := t.mem.llc } } ∧
    ∀ q, q ≠ line → t.llcLine q = s.llcLine q
def missData (s : State) (line : Nat) : LineData × Bool :=
  if (s.llcLine line).valid then ((s.llcLine line).data, (s.llcLine line).poison) else (hbmLine s line, hbmPoison s line)

end Sys2Proof.Claims

open Sys2Proof.Claims in
/-- A home with no open transaction on the line serves ReadShared, ReadUnique and Upgrade by its directory state. The
request of a core is in flight (and not as an escalated one), and the home has no transaction or back-invalidation open
on the line: it holds the line under the core's tag, or (only for the I rows) does not hold it. The command takes the
request from the network and completes. ReadShared: in I the core becomes the owner in E and Data(E) is sent; in S
without overflow, the core not yet a pointer and fewer than four in use, it becomes one and Data(S) is sent; in E, M
and O FwdS goes to the owner. ReadUnique: in I the state is M with the core as the one pointer and Data(M) is sent; in
S without overflow Inv goes to every other pointer, and with none Data(M) is sent at once; in E and M FwdM goes to the
owner. Upgrade in S without overflow by a pointer: Inv goes to the others, and with none GrantM is sent at once.
Nothing changes but the messages and this line's entry. -/
def Obligations.HomeServesRequests : Prop :=
  ∀ (c : CoreId) (line : LineId) (s : State),
    (asked s c.val line.val .readShared →
      ((s.llcLine line.val).valid = false ∨ (idleLine s c.val line.val ∧ (s.llcLine line.val).dst = .i) →
        gives (.readShared c line) s (fun t =>
          homeSends s t line.val (.request .readShared line.val c.val false)
            [.data line.val c.val .e (missData s line.val).1 (missData s line.val).2] ∧
          (t.llcLine line.val).dst = .e ∧ (t.llcLine line.val).ptrs = [c.val] ∧ (t.llcLine line.val).tag = s.coreTag c.val)) ∧
      (idleLine s c.val line.val → (s.llcLine line.val).dst = .s → (s.llcLine line.val).ptrs.length < 4 → c.val ∉ (s.llcLine line.val).ptrs →
        gives (.readShared c line) s (fun t =>
          homeSends s t line.val (.request .readShared line.val c.val false)
            [.data line.val c.val .s (s.llcLine line.val).data (s.llcLine line.val).poison] ∧
          (t.llcLine line.val).dst = .s ∧ (t.llcLine line.val).ptrs = (s.llcLine line.val).ptrs ++ [c.val])) ∧
      (∀ o rest, idleLine s c.val line.val → (s.llcLine line.val).dst ∈ [.e, .m, .o] → (s.llcLine line.val).ptrs = o :: rest →
        gives (.readShared c line) s (fun t =>
          homeSends s t line.val (.request .readShared line.val c.val false) [.snoop .fwdS line.val o c.val] ∧
          (t.llcLine line.val).dst = (s.llcLine line.val).dst ∧ (t.llcLine line.val).txn.map (·.fwd) = some (some o)))) ∧
    (asked s c.val line.val .readUnique →
      ((s.llcLine line.val).valid = false ∨ (idleLine s c.val line.val ∧ (s.llcLine line.val).dst = .i) →
        gives (.readUnique c line) s (fun t =>
          homeSends s t line.val (.request .readUnique line.val c.val false)
            [.data line.val c.val .m (missData s line.val).1 (missData s line.val).2] ∧
          (t.llcLine line.val).dst = .m ∧ (t.llcLine line.val).ptrs = [c.val])) ∧
      (idleLine s c.val line.val → (s.llcLine line.val).dst = .s → (s.llcLine line.val).ovf = false →
        gives (.readUnique c line) s (fun t =>
          homeSends s t line.val (.request .readUnique line.val c.val false)
            (if (s.llcLine line.val).ptrs.filter (· ≠ c.val) = []
              then [.data line.val c.val .m (s.llcLine line.val).data (s.llcLine line.val).poison]
              else ((s.llcLine line.val).ptrs.filter (· ≠ c.val)).map (fun k => .snoop .inv line.val k c.val)))) ∧
      (∀ o rest, idleLine s c.val line.val → (s.llcLine line.val).dst ∈ [.e, .m] → (s.llcLine line.val).ptrs = o :: rest →
        gives (.readUnique c line) s (fun t =>
          homeSends s t line.val (.request .readUnique line.val c.val false) [.snoop .fwdM line.val o c.val] ∧
          (t.llcLine line.val).txn.map (·.fwd) = some (some o)))) ∧
    (asked s c.val line.val .upgrade → idleLine s c.val line.val → (s.llcLine line.val).dst = .s → (s.llcLine line.val).ovf = false →
      c.val ∈ (s.llcLine line.val).ptrs →
        gives (.upgrade c line) s (fun t =>
          homeSends s t line.val (.request .upgrade line.val c.val false)
            (if (s.llcLine line.val).ptrs.filter (· ≠ c.val) = [] then [.grantM line.val c.val]
              else ((s.llcLine line.val).ptrs.filter (· ≠ c.val)).map (fun k => .snoop .inv line.val k c.val))))

namespace Sys2Proof.Claims

/-- The one snoop of a kind in flight to a core for a line, and the core is neither in reset nor of another tag. -/
abbrev snooped (s : State) (c line r : Nat) (k : SnoopKind) : Prop :=
  CohMsg.snoop k line c r ∈ s.mem.msgs ∧ (∀ q, CohMsg.snoop k line c q ∈ s.mem.msgs → q = r) ∧ (s.core c).st ≠ .reset ∧
    (s.llcLine line).tag = s.coreTag c
def holderSends (s t : State) (c : Nat) (m : CohMsg) (out : List CohMsg) : Prop :=
  t = { s with cores := t.cores, mem := { s.mem with msgs := s.mem.msgs.erase m ++ out } } ∧ ∀ q, q ≠ c → t.core q = s.core q
def isDirty (l : CacheLine) : Bool := decide (l.st = .m) || decide (l.st = .o)

end Sys2Proof.Claims

open Sys2Proof.Claims in
/-- A holder answers FwdS, FwdM, Inv and BInv from its copy, a held line first waits, and a copy just given up misses. A
snoop for a line is in flight to a core that is not in reset and carries the home line's tag. With its line in E, M or
O and no hold, FwdS leaves the core S (from E) or O (from M and O) and sends Data(S) to the requester and FwdDone,
dirty exactly from M and O; FwdM drops the line and sends Data(M) and FwdDone. Inv and BInv drop the line and send
InvAck, with the data exactly where the copy was dirty. While the line is held the snoop waits in the core's buffer and
nothing else happens. A forward that crosses the core's giving the line up, with its write-back buffer empty, moves the
line to that buffer and answers SnoopMiss. Nothing changes but the messages and that core. -/
def Obligations.HoldersAnswerSnoops : Prop :=
  ∀ (c : CoreId) (line : LineId) (r : Nat) (s : State),
    (snooped s c.val line.val r .fwdS → (s.dcLine c.val line.val).st ∈ [.e, .m, .o] → (s.dcLine c.val line.val).held = false →
      gives (.fwdS c line false) s (fun t =>
        holderSends s t c.val (.snoop .fwdS line.val c.val r)
          [.data line.val r .s (s.dcLine c.val line.val).data (s.dcLine c.val line.val).poison,
           .fwdDone line.val c.val (isDirty (s.dcLine c.val line.val))] ∧
        t.dcLine c.val line.val = { s.dcLine c.val line.val with st := if isDirty (s.dcLine c.val line.val) then .o else .s })) ∧
    (snooped s c.val line.val r .fwdM → (s.dcLine c.val line.val).st ∈ [.e, .m, .o] → (s.dcLine c.val line.val).held = false →
      gives (.fwdM c line false) s (fun t =>
        holderSends s t c.val (.snoop .fwdM line.val c.val r)
          [.data line.val r .m (s.dcLine c.val line.val).data (s.dcLine c.val line.val).poison,
           .fwdDone line.val c.val (isDirty (s.dcLine c.val line.val))] ∧
        (t.dcLine c.val line.val).st = .i)) ∧
    (snooped s c.val line.val r .inv → (s.dcLine c.val line.val).held = false →
      gives (.cohInv c line) s (fun t =>
        holderSends s t c.val (.snoop .inv line.val c.val r)
          [.invAck line.val c.val (if isDirty (s.dcLine c.val line.val)
            then some ((s.dcLine c.val line.val).data, (s.dcLine c.val line.val).poison) else none)] ∧
        (t.dcLine c.val line.val).st = .i)) ∧
    (snooped s c.val line.val c.val .binv → (s.dcLine c.val line.val).held = false →
      gives (.binv c line) s (fun t =>
        holderSends s t c.val (.snoop .binv line.val c.val c.val)
          [.invAck line.val c.val (if isDirty (s.dcLine c.val line.val)
            then some ((s.dcLine c.val line.val).data, (s.dcLine c.val line.val).poison) else none)] ∧
        (t.dcLine c.val line.val).st = .i)) ∧
    (snooped s c.val line.val r .fwdM → (s.dcLine c.val line.val).held = true →
      gives (.fwdM c line false) s (fun t => holderSends s t c.val (.snoop .fwdM line.val c.val r) [] ∧
        (t.core c.val).snoops = (s.core c.val).snoops ++ [(line.val, .fwdM, r)] ∧ t.dcLine c.val line.val = s.dcLine c.val line.val)) ∧
    (snooped s c.val line.val r .fwdS → (s.dcLine c.val line.val).st ≠ .i → (s.dcLine c.val line.val).held = false → (s.core c.val).wb = [] →
      gives (.fwdS c line true) s (fun t =>
        holderSends s t c.val (.snoop .fwdS line.val c.val r) [.snoopMiss line.val c.val] ∧
        look (t.core c.val).wb line.val = some (s.dcLine c.val line.val) ∧ (t.dcLine c.val line.val).st = .i))

open Sys2Proof.Claims in
/-- Acknowledgements, forwards, misses, write-backs and evictions reach the home and close its transactions. InvAck: the
last one awaited makes the state M with the requester as the one pointer and sends GrantM for an Upgrade that sent no
broadcast, else Data(M); the last one of a back-invalidation that carries data writes it to HBM and forgets the line.
FwdDone of the awaited owner for a ReadShared makes the state O where the copy was dirty and S where it was clean, and
marks the transaction answered. SnoopMiss of the awaited owner that has nothing in its write-back buffer answers the
requester with the LLC's data, in S for ReadShared and in M for ReadUnique. CompAck of the requester, with no parked
request, closes the transaction. WriteBack by the one owner in M with an empty write-back buffer gives the LLC the
data, dirty, in I, and sends WBAck; Evict by the one sharer in S leaves I and sends WBAck. FlushDone with no open
broadcast that waits for the core takes the core from the die's scope and from every pointer list of lines of that die
and tag. -/
def Obligations.HomeHearsHolders : Prop :=
  ∀ (c : CoreId) (line : LineId) (s : State),
    (∀ (d : Option (LineData × Bool)) (x : Txn), CohMsg.invAck line.val c.val d ∈ s.mem.msgs →
      (∀ d', CohMsg.invAck line.val c.val d' ∈ s.mem.msgs → d' = d) → (s.llcLine line.val).valid = true →
      (s.llcLine line.val).txn = some x → x.invLeft = [c.val] → x.fwd = none → x.answered = false → (s.llcLine line.val).binvLeft = [] →
      gives (.invAck c line) s (fun t => (t.llcLine line.val).dst = .m ∧ (t.llcLine line.val).ptrs = [x.core] ∧
        t.mem.msgs = s.mem.msgs.erase (.invAck line.val c.val d) ++
          [if x.req = .upgrade ∧ x.bcast = false then .grantM line.val x.core
            else .data line.val x.core .m ((d.map (·.1)).getD (s.llcLine line.val).data) ((d.map (·.2)).getD (s.llcLine line.val).poison)])) ∧
    (∀ (w : LineData) (p : Bool), CohMsg.invAck line.val c.val (some (w, p)) ∈ s.mem.msgs →
      (∀ d', CohMsg.invAck line.val c.val d' ∈ s.mem.msgs → d' = some (w, p)) → (s.llcLine line.val).valid = true →
      (s.llcLine line.val).binvLeft = [c.val] →
      gives (.invAck c line) s (fun t => t.llcLine line.val = {} ∧ t.mem.hbm = writeCells s.mem.hbm (128 * line.val) (lineBytes w))) ∧
    (∀ (dirty : Bool) (x : Txn), CohMsg.fwdDone line.val c.val dirty ∈ s.mem.msgs → CohMsg.fwdDone line.val c.val (!dirty) ∉ s.mem.msgs →
      (s.llcLine line.val).txn = some x → x.fwd = some c.val → x.req = .readShared →
      gives (.fwdDone c line) s (fun t => (t.llcLine line.val).dst = (if dirty then .o else .s) ∧
        (t.llcLine line.val).txn = some { x with fwd := none, answered := true } ∧
        t.mem.msgs = s.mem.msgs.erase (.fwdDone line.val c.val dirty))) ∧
    (∀ (x : Txn), CohMsg.snoopMiss line.val c.val ∈ s.mem.msgs → (s.llcLine line.val).txn = some x → x.fwd = some c.val →
      look (s.core c.val).wb line.val = none →
      gives (.snoopMiss c line) s (fun t => t.mem.msgs = s.mem.msgs.erase (.snoopMiss line.val c.val) ++
        [.data line.val x.core (if x.req = .readShared then .s else .m) (s.llcLine line.val).data (s.llcLine line.val).poison] ∧
        (t.llcLine line.val).dst = (if x.req = .readShared then .s else .m))) ∧
    (∀ (x : Txn), CohMsg.compAck line.val c.val ∈ s.mem.msgs → (s.llcLine line.val).txn = some x → x.core = c.val →
      (s.llcLine line.val).rsv = none →
      gives (.compAck c line) s (fun t => t.llcLine line.val = { s.llcLine line.val with txn := none, rsv := none } ∧
        t.mem.msgs = s.mem.msgs.erase (.compAck line.val c.val))) ∧
    ((s.dcLine c.val line.val).st = .m → (s.dcLine c.val line.val).held = false → (s.core c.val).wb = [] →
      (s.llcLine line.val).valid = true → (s.llcLine line.val).tag = (s.dcLine c.val line.val).tag → (s.llcLine line.val).dst = .m →
      (s.llcLine line.val).ptrs = [c.val] → (s.llcLine line.val).txn = none → CohMsg.wbAck line.val c.val ∉ s.mem.msgs →
      gives (.writeBack c line) s (fun t => (t.llcLine line.val).data = (s.dcLine c.val line.val).data ∧
        (t.llcLine line.val).dirty = true ∧ (t.llcLine line.val).dst = .i ∧ (t.dcLine c.val line.val).st = .i ∧
        t.mem.msgs = s.mem.msgs ++ [.wbAck line.val c.val])) ∧
    ((s.dcLine c.val line.val).st = .s → (s.dcLine c.val line.val).held = false → (s.core c.val).wb = [] →
      (s.llcLine line.val).valid = true → (s.llcLine line.val).tag = (s.dcLine c.val line.val).tag → (s.llcLine line.val).dst = .s →
      (s.llcLine line.val).ptrs = [c.val] → (s.llcLine line.val).ovf = false → CohMsg.wbAck line.val c.val ∉ s.mem.msgs →
      gives (.evict c line) s (fun t => (t.llcLine line.val).dst = .i ∧ (t.llcLine line.val).ptrs = [] ∧
        (t.llcLine line.val).data = (s.llcLine line.val).data ∧ (t.dcLine c.val line.val).st = .i ∧
        t.mem.msgs = s.mem.msgs ++ [.wbAck line.val c.val])) ∧
    (∀ (d : DieId) (tag : Nat), CohMsg.flushDone c.val d.val tag ∈ s.mem.msgs →
      (∀ g, CohMsg.flushDone c.val d.val g ∈ s.mem.msgs → g = tag) →
      (∀ p ∈ s.mem.llc, lineDie p.1 = d.val → ∀ x, p.2.txn = some x → x.bcast = false ∨ c.val ∉ x.invLeft) →
      gives (.flushDone c d) s (fun t => (d.val, c.val, tag) ∉ t.mem.scope ∧
        (∀ p, p ≠ (d.val, c.val, tag) → (p ∈ t.mem.scope ↔ p ∈ s.mem.scope)) ∧
        (∀ p ∈ t.mem.llc, lineDie p.1 = d.val → p.2.tag.toNat = tag → c.val ∉ p.2.ptrs)))

open Sys2Proof.Claims in
/-- Data, grants, NACKs, write-back acknowledgements, hold ends and retries at a core. Data(st) reaching a core whose open
request no access waits for puts the line in its cache with that state, data and poison under the core's tag, holds it
unless st is S, ends the request and sends CompAck; GrantM makes the line M, holds it, ends the request and sends
CompAck. A NACK marks the open request for a retry and, unless it is RESERVED, counts it. WBAck frees the line's
write-back entry. The end of a hold with no waiting snoop clears the hold and nothing else. A retry that waits sends
the request again, escalated exactly when 8 NACKs or more were counted. -/
def Obligations.CoresHearHomes : Prop :=
  ∀ (c : CoreId) (line : LineId) (s : State),
    (∀ st d p, CohMsg.data line.val c.val st d p ∈ s.mem.msgs →
      (∀ st' d' p', CohMsg.data line.val c.val st' d' p' ∈ s.mem.msgs → (st', d', p') = (st, d, p)) →
      (∀ m, look (s.core c.val).mshrs line.val = some m → m.waiting = []) →
      gives (.dataReceived c line) s (fun t =>
        t.dcLine c.val line.val = { st := st, tag := s.coreTag c.val, data := d, poison := p, held := decide (st ≠ .s) } ∧
        look (t.core c.val).mshrs line.val = none ∧ (∀ q, q ≠ c.val → t.core q = s.core q) ∧
        t = { s with cores := t.cores, mem := { s.mem with
          msgs := s.mem.msgs.erase (.data line.val c.val st d p) ++ [.compAck line.val c.val] } })) ∧
    (CohMsg.grantM line.val c.val ∈ s.mem.msgs → (∀ m, look (s.core c.val).mshrs line.val = some m → m.waiting = []) →
      gives (.grantM c line) s (fun t =>
        t.dcLine c.val line.val = { s.dcLine c.val line.val with st := .m, held := true } ∧
        look (t.core c.val).mshrs line.val = none ∧
        t = { s with cores := t.cores, mem := { s.mem with
          msgs := s.mem.msgs.erase (.grantM line.val c.val) ++ [.compAck line.val c.val] } })) ∧
    (∀ w m, CohMsg.nack line.val c.val w ∈ s.mem.msgs → (∀ w', CohMsg.nack line.val c.val w' ∈ s.mem.msgs → w' = w) →
      look (s.core c.val).mshrs line.val = some m →
      gives (.cohNack c line) s (fun t => look (t.core c.val).mshrs line.val = some { m with
          sent := false, waitRetry := true
          nacks := if w = .reserved then m.nacks else m.nacks + 1
          req := if w = .notSharer then .readUnique else m.req } ∧
        t = { s with cores := t.cores, mem := { s.mem with msgs := s.mem.msgs.erase (.nack line.val c.val w) } })) ∧
    (CohMsg.wbAck line.val c.val ∈ s.mem.msgs →
      gives (.wbAck c line) s (fun t => look (t.core c.val).wb line.val = none ∧
        (∀ q, q ≠ line.val → look (t.core c.val).wb q = look (s.core c.val).wb q) ∧
        t = { s with cores := t.cores, mem := { s.mem with msgs := s.mem.msgs.erase (.wbAck line.val c.val) } })) ∧
    ((s.dcLine c.val line.val).held = true → (∀ q ∈ (s.core c.val).snoops, q.1 ≠ line.val) →
      gives (.holdExpiry c line) s (fun t => onlyCore s t c.val ∧
        t.dcLine c.val line.val = { s.dcLine c.val line.val with held := false } ∧ (t.core c.val).snoops = (s.core c.val).snoops)) ∧
    (∀ m, look (s.core c.val).mshrs line.val = some m → m.waitRetry = true →
      gives (.nackRetryExpiry c line) s (fun t =>
        look (t.core c.val).mshrs line.val = some { m with waitRetry := false, sent := true } ∧
        t = { s with cores := t.cores, mem := { s.mem with
          msgs := s.mem.msgs ++ [.request m.req line.val c.val (decide (m.nacks ≥ 8))] } }))

open Sys2Proof.Claims in
/-- A shared slice switches to its next holder, and a tag sweep clears its tags from every store. CORE_SWITCH on a core
group of a shared slice whose holder's quantum is over, with no new group waiting, every core quiet and the holder
quiet, in no hang sequence and not held: the next holder with work holds the slice and the quantum runs anew; where it
is another VD, every working core of the slice counts one switch more and carries that VD's tag. TAG_SWEEP_START with
no sweep running, fewer than 256 tags free and some retired marks the retired tags as being swept and changes nothing
else. TAG_SWEEP_COMPLETE with no creation waiting ends the sweep, takes its tags off the retired ones and leaves none
of them on a scratchpad block, a data-cache line, a LOS line or an LLC line. -/
def Obligations.SwitchesAndSweeps : Prop :=
  (∀ (g : CgId) (s : State) (k : Nat) (x : Slice) (v q : Nat), s.cgSlice g.val = some (k, x) → look s.pool.slices k = some x →
    ((sliceCgs s x).flatMap cgCores).all (coreQuiet s) = true → x.st = .shared → x.group[x.holder]? = some (v, q) →
    vdQuiet s v = true → vdHung s v = false → (s.vd v).held = false → x.quantumOver = true → x.nextGroup = none →
    gives (.coreSwitch g) s (fun t =>
      look t.pool.slices k = some { x with holder := nextHolder s x.group x.holder x.holder, quantumOver := false } ∧
      (∀ w p, x.group[nextHolder s x.group x.holder x.holder]? = some (w, p) → w ≠ v → ∀ c ∈ (sliceCgs s x).flatMap cgCores,
        (t.core c).switchGen = (s.core c).switchGen + 1 ∧ (t.core c).curTag = s.vdTag w))) ∧
  (∀ s : State, s.cmp.sweeping = none → tagsFree s < 256 → s.cmp.tagsRetired ≠ [] →
    gives .tagSweepStart s (fun t => t = { s with cmp := { s.cmp with sweeping := some s.cmp.tagsRetired } })) ∧
  (∀ (s : State) (ts : List Nat), s.cmp.sweeping = some ts → s.cmp.tagWaiters = [] → 0 ∉ ts →
    gives .tagSweepComplete s (fun t => t.cmp.sweeping = none ∧ (∀ x, x ∈ t.cmp.tagsRetired ↔ x ∈ s.cmp.tagsRetired ∧ x ∉ ts) ∧
      (∀ c b, (lookD (t.core c).sp b {}).tag.toNat ∉ ts) ∧ (∀ c l, (t.dcLine c l).tag.toNat ∉ ts) ∧
      (∀ e l, (lookD (t.eng e).los l {}).tag.toNat ∉ ts) ∧ (∀ l, (t.llcLine l).tag.toNat ∉ ts)))

namespace Sys2Proof.Claims

def streamed (l : Launch) (c node frame : Nat) : Prop :=
  (l.nodes.getD node {}).kind = 1 ∧ (l.nodes.getD node {}).flags.testBit 2 = true ∧
    frame * stdRawLen (l.nodes.getD node {}).fmtB < lpwRaw (l.nodes.getD node {}) ∧ c ∈ l.cores ∧ l.failed = none

end Sys2Proof.Claims

open Sys2Proof.Claims in
/-- A frame decodes without an error, or raises one error kind and fails its launch. For a matrix node with a packed weight
stream, a live launch that runs on the core and a frame inside the stream: where the frame decodes, the core's Facet
error registers stay and no other core and nothing else changes; where its check fails with a kind at a frame number,
that kind's bit is added to the error bits, the error count goes up by one (saturating at 24 bits), the frame number
and stream tag are latched where no error stood, and the launch is failed or has ended. -/
def Obligations.FacetFramesDecode : Prop :=
  ∀ (c : CoreId) (lid : W32) (node : Fin 4096) (frame : W32) (s : State) (l : Launch), s.launch? lid.toNat = some l →
    streamed l c.val node.val frame.toNat →
    (∀ bs, readFrame s l (l.nodes.getD node.val {}) frame.toNat = .ok bs →
      gives (.facetFrameDecode c lid node frame) s (fun t => onlyCore s t c.val ∧
        { t.core c.val with facetTables := (s.core c.val).facetTables } = s.core c.val)) ∧
    (∀ k f, readFrame s l (l.nodes.getD node.val {}) frame.toNat = .error (.facet k f) →
      gives (.facetFrameDecode c lid node frame) s (fun t =>
        (t.core c.val).facetErr = (s.core c.val).facetErr ||| facetBits k ∧
        (t.core c.val).facetCount = satAdd 24 (s.core c.val).facetCount 1 ∧
        ((s.core c.val).facetErr = 0 → (t.core c.val).facetInfo0 = BitVec.ofNat 32 f ∧
          (t.core c.val).facetInfo1 = BitVec.ofNat 32 (l.nodes.getD node.val {}).streamTag) ∧
        (∀ l', t.launch? lid.toNat = some l' → l'.failed ≠ none)))

namespace Sys2Proof.Claims

def engClear (x : Eng) : Prop := x.run = none ∧ x.queue = [] ∧ x.vregs = [] ∧ x.masks = [] ∧ x.sregs = [] ∧ x.cvt = {}

end Sys2Proof.Claims

open Sys2Proof.Claims in
/-- An engine reset clears the engine and returns its tiles; a core reset clears the core and samples it. ENGINE_RESET on
an enabled core: the engine runs nothing, its queue and its vector, mask and scalar registers and conversion parameters
are empty, and its tiles stand at the head of the core's waiting tiles, a running tile that is no thief first and from
its K_BEGIN. CORE_ENG_RESET while PF0 serves requests: the same holds of each engine named. CORE_RESET of an enabled,
unfenced core that completes, the core's first in 60 s: the core is idle with an empty tile queue, counts one reset
more, its engines are clear, a sample record of its die under the die's next number stands in the SRAM, and its time is
remembered. LOOP_PROCESSOR_SILENCE is reported, and with nothing left to settle a service it served that was sampling
is in RUN with the failure of its attempt as the outcome. -/
def Obligations.EngineAndCoreResets : Prop :=
  (∀ (e : EngId) (cause : EngCause) (s : State), s.coreOn (engCore e.val) = true →
    ((s.eng e.val).run = none → gives (.engineReset e cause) s (fun t => engClear (t.eng e.val) ∧
      (t.core (engCore e.val)).tq ++ (t.core (engCore e.val)).backlog =
        (s.eng e.val).queue ++ (s.core (engCore e.val)).tq ++ (s.core (engCore e.val)).backlog)) ∧
    (∀ r, (s.eng e.val).run = some r → r.tile.slot = 0xFF → gives (.engineReset e cause) s (fun t => engClear (t.eng e.val) ∧
      (t.core (engCore e.val)).tq ++ (t.core (engCore e.val)).backlog =
        restartTile r :: (s.eng e.val).queue ++ (s.core (engCore e.val)).tq ++ (s.core (engCore e.val)).backlog))) ∧
  (∀ (c : CoreId) (engs : BitVec 8) (s : State), fnOpen s 0 = true → s.coreOn c.val = true →
    gives (.coreEngReset c engs) s (fun t => ∀ i < 8, engs.getLsbD i = true → engClear (t.eng (8 * c.val + i)))) ∧
  (∀ (c : CoreId) (cause : CoreCause) (s : State), s.coreOn c.val = true → cgBit s.pool.cgFenced (coreCg c.val) = false →
    lookD s.boot.coreResets c.val [] = [] →
    gives (.coreReset c cause false) s (fun t => (t.core c.val).st = .idle ∧ (t.core c.val).tq = [] ∧
      (t.core c.val).resets = (s.core c.val).resets + 1 ∧ (∀ e ∈ coreEngs c.val, engClear (t.eng e)) ∧
      (∃ x ∈ t.dump.sram, x.die = coreDie c.val ∧ x.seq = s.dump.next.getD (coreDie c.val) 0) ∧
      lookD t.boot.coreResets c.val [] = [s.s0])) ∧
  (∀ (v : W32) (x : Service) (s : State), s.service? v.toNat = some x → s.ready = [] → x.st = .sample →
    gives (.loopProcessorSilence [v]) s (fun t => t.reports = s.reports ++ [(9, 0, 64)] ∧
      t.service? v.toNat = some { x with st := .run, outcome := some (some { cause := 0x0015 }), launch := none }))

namespace Sys2Proof.Claims

abbrev hangFree (s : State) (c e : Nat) : Prop :=
  (∀ i ∈ coreEngs c, i ≠ e → (s.eng i).hangReason = 0 ∧ (s.eng i).replaying = false) ∧ (∀ i ∈ coreEngs c, (s.eng i).hangs = []) ∧
    engTask s e = none

end Sys2Proof.Claims

open Sys2Proof.Claims in
/-- A watchdog fire holds the suspects, samples and replays them; a second fire or an overrun finds a launch guilty. On a
core where no other engine is in a hang sequence and no engine's sequence ran before, for an engine that holds no
resident task. WATCHDOG_FIRE on a running tile that is not stalled, not a thief's and has none, in no sequence: a
sample of the core's die with the die's next number is in the SRAM, and, where the launch of the first held tile is
live, the engine replays that tile from K_BEGIN with the rest held. STEP_BUDGET_OVERRUN of a routine's launch stops
every engine of the core that runs it, and the launch has failed or ended. REPLAY_TILE_DONE of a stolen replayed tile
with no output left to write and nothing held: TILE_DONE goes to the origin and the sequence has ended.
REPLAY_WATCHDOG_FIRE with nothing held: the launch has failed or ended and the sequence has ended. -/
def Obligations.HangsFound : Prop :=
  (∀ (e : EngId) (s : State) (r : RunTile) (t0 : Tile) (q : List Tile) (l : Launch), hangFree s (engCore e.val) e.val →
    (s.eng e.val).run = some r → r.stalled = none → r.thieves = [] → r.tile.slot = 0xFF → (s.eng e.val).hangReason = 0 →
    (s.eng e.val).replaying = false → replayOrder s (suspects (s.eng e.val)) = t0 :: q → s.launch? t0.launch = some l → l.failed = none →
    ctxLive s l.fn l.ctx = true →
    gives (.watchdogFire e) s (fun t => (∃ x ∈ t.dump.sram, x.die = coreDie (engCore e.val) ∧
        x.seq = s.dump.next.getD (coreDie (engCore e.val)) 0) ∧
      (t.eng e.val).replaying = true ∧ (t.eng e.val).hangReason = 1 ∧ (t.eng e.val).held = q ∧
      (t.eng e.val).run.map (fun x => (x.tile, x.done)) = some (t0, t0.kBegin))) ∧
  (∀ (c : CoreId) (lid : W32) (s : State) (l : Launch), hangFree s c.val 1536 → s.launch? lid.toNat = some l →
    (∃ e ∈ coreEngs c.val, ∃ r, (s.eng e).run = some r ∧ r.tile.launch = lid.toNat) → has s.gfe.routines l.routine = true →
    gives (.stepBudgetOverrun c lid) s (fun t =>
      (∀ e ∈ coreEngs c.val, ∀ r, (s.eng e).run = some r → r.tile.launch = lid.toNat → (t.eng e).run = none) ∧
      (∀ l', t.launch? lid.toNat = some l' → l'.failed ≠ none))) ∧
  (∀ (e : EngId) (s : State) (r : RunTile) (l : Launch), hangFree s (engCore e.val) e.val → (s.eng e.val).replaying = true →
    (s.eng e.val).run = some r → (s.eng e.val).queue = [] → (s.eng e.val).held = [] → s.launch? r.tile.launch = some l → l.failed = none →
    r.stalled = none → r.thieves = [] → (r.tile.matrix = true → r.tile.kEnd ≤ r.done) → r.tile.slot = 0xFF →
    r.tile.matrix = false ∨ r.combined = true → r.tile.origin ≠ engCore e.val →
    gives (.replayTileDone e) s (fun t => t.xmsgs = s.xmsgs ++ [.done (engCore e.val) r.tile.origin r.tile] ∧
      (t.eng e.val).run = none ∧ (t.eng e.val).replaying = false ∧ (t.eng e.val).hangReason = 0)) ∧
  (∀ (e : EngId) (s : State) (r : RunTile), hangFree s (engCore e.val) e.val → (s.eng e.val).replaying = true →
    (s.eng e.val).run = some r → (s.eng e.val).held = [] → (s.launch? r.tile.launch).isSome = true →
    gives (.replayWatchdogFire e) s (fun t => (∀ l', t.launch? r.tile.launch = some l' → l'.failed ≠ none) ∧
      (t.eng e.val).run = none ∧ (t.eng e.val).replaying = false ∧ (t.eng e.val).hangReason = 0))

namespace Sys2Proof.Claims

abbrev fetched (s : State) (q : Nat) (x : Qp) (b : List Byte) : Prop := nextRequest s q = some (x, b) ∧ s.ready = []
def taken (x : Qp) : Qp := { x with sh := shakeTake x.sh }

end Sys2Proof.Claims

open Sys2Proof.Claims in
/-- A published request entry is consumed and queued where every check passes, else answered. For a queue pair with a
readable published entry of the command's opcode and nothing of an earlier append left to release. GENERATE that passes
every check joins the end of the queue pair's waiting queue, SCORE the end of the service's waiting scores with the
next admission number, CANCEL for a generation service the list of cancels with its own REQ_ID and its target; the
service's next state is PLAN if it waited. In each case the entry is consumed: HEAD advances. A GENERATE that fails a
check is consumed as well and joins no queue. -/
def Obligations.RequestsAreConsumed : Prop :=
  ∀ (q : Fin 4096) (x : Qp) (b : List Byte) (s : State), fetched s q.val x b →
    (∀ p, fieldAt b 0 1 ≠ 2 → fieldAt b 0 1 ≠ 3 →
      genStatus (s.setQp q.val (taken x)) q.val (taken x) (s.service? x.service) b = (0, p) →
      gives (.generate q) s (fun t => t.qp? q.val = some { taken x with queue := x.queue ++ [genReqOf q.val b] } ∧
        t.service? x.service = (s.service? x.service).map (fun v => { v with st := if v.st = .wait then .plan else v.st }))) ∧
    (∀ p v, fieldAt b 0 1 = 2 → s.service? x.service = some v →
      scoreStatus (s.setQp q.val (taken x)) q.val (taken x) (some v) b = (0, p) →
      gives (.score q) s (fun t => t.qp? q.val = some (taken x) ∧
        (t.service? x.service).map (fun w => (w.scores, w.nextOrder, w.st)) =
          some (v.scores ++ [scoreReqOf q.val v.nextOrder b], v.nextOrder + 1, if v.st = .wait then .plan else v.st))) ∧
    (∀ v, fieldAt b 0 1 = 3 → s.service? x.service = some v → v.d.scoring = false →
      cancelStatus (s.setQp q.val (taken x)) q.val (taken x) (some v) b = 0 →
      gives (.cancel q) s (fun t => t.qp? q.val = some { taken x with cancels := x.cancels ++ [(fieldAt b 8 8, fieldAt b 16 8)] } ∧
        (t.service? x.service).map (·.st) = some (if v.st = .wait then .plan else v.st))) ∧
    (∀ st p, fieldAt b 0 1 ≠ 2 → fieldAt b 0 1 ≠ 3 → st ≠ 0 →
      genStatus (s.setQp q.val (taken x)) q.val (taken x) (s.service? x.service) b = (st, p) →
      gives (.generate q) s (fun t => ∃ y, t.qp? q.val = some y ∧ y.sh = shakeTake x.sh ∧ y.queue = x.queue))

open Sys2Proof.Claims in
/-- A step's plan stays inside STEP_TOKENS and STEP_SEQS, and each chunk inside its own bound. For every service, every
queue state and every choice of draft caps, the plan of a step computes at most STEP_TOKENS positions in all, plans at
most STEP_SEQS sequences, gives a sequence in DECODE one position and one per draft with no more drafts than the
request's and the service's limits and the cap chosen, and gives a sequence in PREFILL at least one and at most
PREFILL_CHUNK positions and none it has already computed. While a sequence is in PREFILL, the positions of the DECODE
part leave PREFILL_RESERVE of STEP_TOKENS free, where STEP_TOKENS holds it. -/
def Obligations.PlansKeepTheirBudget : Prop :=
  ∀ (s : State) (x : Service) (caps : Nat → Nat),
    ((planOf s x caps).map (·.2.1)).sum ≤ x.d.stepTokens ∧ (planOf s x caps).length ≤ x.d.stepSeqs ∧
    (∀ k n ds, (k, n, ds) ∈ planOf s x caps → ∃ q, (k, q) ∈ x.seqs ∧
      ((q.st = .decode ∧ n = 1 + ds.length ∧ ds.length ≤ caps k ∧ ds.length ≤ q.req.draftMax ∧ ds.length ≤ x.d.draftCap) ∨
       (q.st = .prefill ∧ ds = [] ∧ 1 ≤ n ∧ n ≤ x.d.prefillChunk ∧ n ≤ q.toks.length - q.prefilled))) ∧
    (x.d.prefillReserve ≤ x.d.stepTokens → x.seqs.filter (fun p => p.2.st = .prefill) ≠ [] →
      ((planDecode s x.d caps x.d.prefillReserve (x.seqs.filter (fun p => p.2.st = .decode)) x.d.stepTokens []).2.map (·.2.1)).sum +
        x.d.prefillReserve ≤ x.d.stepTokens)

open Sys2Proof.Claims in
/-- A batch step moves through launch, sampling and commit, and micro-batches take the oldest requests. STEP_PLAN of a
generation service that may start, with cores and a free slot on each, leaves what planning and then settling leave
once its queue pairs' CANCELs are handled. STEP_LAUNCH_DONE of a step whose launch completed without error puts it in
SAMPLE; STEP_LAUNCH_FAILED after the second failure puts it in COMMIT with STEP_FAILED noted for every planned
sequence, and after the first, slots free, launches again on the restored lists. SAMPLE_COMPLETE puts it in COMMIT; the
one planned sequence with no row to sample has its prefill position moved past the step's positions, and one with rows
takes the verified tokens behind its log, goes on in DECODE with its KV cut to one position less than the log, in as
many pages as that needs. STEP_COMMIT leaves no plan and no batch and counts one step. MICRO_BATCH_LAUNCH of readable
inputs moves the oldest SCORE_BATCH requests from the waiting ones to the batch. The window's expiry marks the oldest
request, half its deadline used marks it where it has one, and a passed deadline marks the request LATE or, where it
asks to be dropped and its output can be written, takes it out. -/
def Obligations.BatchStepsAdvance : Prop :=
  (∀ (v : W32) (c : PlanChoice) (x : Service) (s : State), s.service? v.toNat = some x → x.d.scoring = false →
    svcStarts s v.toNat x = true → svcCores ((svcQps s v.toNat).foldl (fun s p => doCancels s p.1) s) v.toNat x ≠ [] →
    (freeSlots ((svcQps s v.toNat).foldl (fun s p => doCancels s p.1) s)
      (svcCores ((svcQps s v.toNat).foldl (fun s p => doCancels s p.1) s) v.toNat x)).isSome = true →
    gives (.stepPlan v c) s (fun t => t = { settle (planStep ((svcQps s v.toNat).foldl (fun s p => doCancels s p.1) s) v.toNat c) with
      pending := s.pending, pool := s.pool })) ∧
  (∀ (v : W32) (x : Service) (s : State), s.service? v.toNat = some x → x.st = .run →
    (x.outcome = some none → gives (.stepLaunchDone v) s (fun t => t = { s with gfe := t.gfe } ∧
      t.service? v.toNat = some { x with st := .sample, outcome := none, launch := none })) ∧
    (∀ e, x.outcome = some (some e) → x.attempt ≠ 0 → gives (.stepLaunchFailed v) s (fun t => ∃ y, t.service? v.toNat = some y ∧
      y.st = .commit ∧ y.attempt = 2 ∧ ∀ k ∈ x.plan, ∀ q, look x.seqs k = some q → look y.seqs k = some { q with failing := some 0x0B })) ∧
    (∀ e, x.outcome = some (some e) → x.attempt = 0 → (freeSlots s (svcCores s v.toNat x)).isSome = true →
      gives (.stepLaunchFailed v) s (fun t => t = { settle (launchStep (x.plan.foldl (fun s k => match look x.seqs k with
        | some q => giveTo s v.toNat k (startPos q + q.planned)
        | none => s) (s.setService v.toNat (restoreLists x))) v.toNat 1) with pending := s.pending, pool := s.pool }))) ∧
  (∀ (v : W32) (x : Service) (s : State), s.service? v.toNat = some x → x.st = .sample →
    gives (.sampleComplete v) s (fun t => (t.service? v.toNat).map (·.st) = some .commit) ∧
    (∀ k q y, x.plan = [k] → look x.seqs k = some q → s.qp? q.req.qp = some y → listOk s x q (startPos q + q.planned) = true →
      (q.sampleRows = 0 → gives (.sampleComplete v) s (fun t =>
        (t.service? v.toNat).bind (fun z => look z.seqs k) = some { q with prefilled := startPos q + q.planned })) ∧
      (q.sampleRows ≠ 0 → gives (.sampleComplete v) s (fun t => ∃ z ts, (t.service? v.toNat).bind (fun z => look z.seqs k) = some z ∧
        ts = (verify (qpReader s y) (fun i => logitRow s x (q.rowBase + i)) q.req x.d.vocab s.free q.generated q.toks q.drafts 0
          { mask := q.mask }).toks ∧
        z.st = .decode ∧ z.toks = q.toks ++ ts ∧ z.stepToks = ts ∧ z.prefilled = z.toks.length - 1 ∧
        z.pages = q.pages.take (ceilDiv (z.toks.length - 1) 16))))) ∧
  (∀ (v : W32) (x : Service) (s : State), s.service? v.toNat = some x → x.st = .commit → x.dereg = none → s.ready = [] →
    gives (.stepCommit v) s (fun t => ∃ y, t.service? v.toNat = some y ∧ y.plan = [] ∧ y.batch = [] ∧ y.steps = (x.steps + 1) % 2 ^ 32)) ∧
  (∀ (v : W32) (i o : W64) (x : Service) (s : State), s.service? v.toNat = some x → x.d.scoring = true → svcStarts s v.toNat x = true →
    svcWork x = true → svcCores s v.toNat x ≠ [] → (freeSlots s (svcCores s v.toNat x)).isSome = true → s.ready = [] →
    (∀ r ∈ x.scores.take x.d.scoreBatch, ((s.qp? r.qp).bind (fun y => qpReader s y r.inAddr x.d.inputBytes)).isSome = true) →
    gives (.microBatchLaunch v i o) s (fun t => (t.service? v.toNat).map (fun y => (y.scores, y.batch, y.table, y.logits)) =
      some (x.scores.drop x.d.scoreBatch, x.scores.take x.d.scoreBatch, i.toNat, o.toNat))) ∧
  (∀ (v : W32) (x : Service) (r : ScoreReq) (rest : List ScoreReq) (s : State), s.service? v.toNat = some x → x.scores = r :: rest →
    gives (.scoreWindowExpiry v) s (fun t => t = { s with gfe := t.gfe } ∧
      (t.service? v.toNat).map (·.scores) = some ({ r with windowOver := true } :: rest)) ∧
    gives (.deadlineHalfUsed v) s (fun t => t = { s with gfe := t.gfe } ∧
      (t.service? v.toNat).map (·.scores) = some ({ r with half := r.half || decide (r.deadline ≠ 0) } :: rest))) ∧
  (∀ (v : W32) (q : Fin 4096) (id : W64) (x : Service) (r : ScoreReq) (s : State), s.service? v.toNat = some x →
    x.scores.find? (fun r => r.qp = q.val ∧ r.reqId = id.toNat ∧ r.deadline ≠ 0) = some r → s.ready = [] →
    (r.flags.testBit 3 = false → gives (.scoreDeadlineExpiry v q id) s (fun t =>
      t.service? v.toNat = some { x with scores := x.scores.map (fun y => if y = r then { y with late := true } else y) })) ∧
    (r.flags.testBit 3 = true → ((s.qp? q.val).bind (fun y =>
        (writeVa s y.fn y.ctx r.outAddr (List.replicate x.d.outputBytes 0)).toOption)).isSome = true →
      gives (.scoreDeadlineExpiry v q id) s (fun t => (t.service? v.toNat).map (·.scores) = some (x.scores.erase r))))

namespace Sys2Proof.Claims

def readLay (s : State) (line : Nat) : Layout :=
  if (unitMeta s (2 * line)).nz || (unitMeta s (2 * line + 1)).nz then (s.chan (dpaChan (line * 128))).layout else .scrubbed

end Sys2Proof.Claims

open Sys2Proof.Claims in
/-- A read fills the home by what its layout makes of the error; a write stores its bytes and their poison. HBM_READ of a
line of a bound pair that the LLC does not hold, on a channel with no conversion: with a good or corrected outcome the
home holds the stored bytes, and a correction counts; a detected error, or a MAC failure, leaves the home's copy
poisoned, counts as uncorrectable and is reported; where the layout leaves the outcome open, one free value is taken
and it alone decides between poison and free data. HBM_WRITE of bytes to a pair that has an owner: exactly the bytes
from the offset on take the data, poisoned data poisons the line, a clean write of the whole line clears its poison,
and no line of the LLC changes. -/
def Obligations.MemoryControllerAccesses : Prop :=
  (∀ (line : LineId) (err : EccErr) (pc : Fin 2) (row : W32) (tc : Fin 8) (s : State) (v : Nat),
    s.pairVd (dpaPair (line.val * 128)) = some v → (s.llcLine line.val).valid = false → (s.chan (dpaChan (line.val * 128))).conv = none →
    gives (.hbmRead line err pc row tc) s (fun t =>
      let c := dpaChan (line.val * 128)
      let x := t.llcLine line.val
      match eccOut (readLay s line.val) err with
      | .good => x.valid = true ∧ x.tag = s.vdTag v ∧ x.data = hbmLine s line.val ∧ x.poison = hbmPoison s line.val ∧ t.chan c = s.chan c
      | .corrected => x.valid = true ∧ x.tag = s.vdTag v ∧ x.data = hbmLine s line.val ∧ x.poison = hbmPoison s line.val ∧
          (t.chan c).corr = (s.chan c).corr + 1
      | .detected => x.valid = true ∧ x.tag = s.vdTag v ∧ x.poison = true ∧ (t.chan c).uncorr = (s.chan c).uncorr + 1 ∧
          t.reports = s.reports ++ [(1, line.val, v)]
      | .mac => x.valid = true ∧ x.poison = true ∧ (t.chan c).macFail = (s.chan c).macFail + 1 ∧ t.mem.macFails = s.mem.macFails ++ [line.val]
      | .open_ => t.free = s.free + 1 ∧ x.valid = true ∧
          (if Config.eccSeen s.free then x.poison = true else x.data = Config.eccGuess s.free))) ∧
  (∀ (line : LineId) (off : Fin 128) (data : List Byte) (poison : Bool) (tc : Fin 8) (s : State),
    (s.pairOwner (dpaPair (line.val * 128))).isSome = true → data ≠ [] → off.val + data.length ≤ 128 →
    gives (.hbmWrite line off data poison tc) s (fun t =>
      (∀ a, lookD t.mem.hbm a 0 = if line.val * 128 + off.val ≤ a ∧ a < line.val * 128 + off.val + data.length
        then data.getD (a - (line.val * 128 + off.val)) 0 else lookD s.mem.hbm a 0) ∧
      (poison = true → hbmPoison t line.val = true) ∧ (poison = false → data.length = 128 → hbmPoison t line.val = false) ∧
      t.mem.llc = s.mem.llc ∧ t.mem.chans = s.mem.chans))

open Sys2Proof.Claims in
/-- Conversions, patrol passes and zero-fills end as the memory rules say. ECC_CONVERSION_DONE on a channel that converts
leaves it in the new layout and, with nothing queued, in no conversion; a queued layout that differs from it, with the
channel not scrubbed, starts at once; between layouts of 64-byte and 128-byte units a poisoned half makes both halves
poisoned. PATROL_SCRUB_START starts a pass where the stack patrols and none runs. PATROL_LATE marks a running pass late
and reports it. PATROL_PASS_COMPLETE ends a running pass, counts it and adds each channel's error-check-and-scrub
count. ZERO_FILL_COMPLETE of a releasing slice with pairs: the slice is gone, its failed pairs are fenced, and the
pairs filled read zero, are scrubbed and no longer fill. ZERO_FILL_COMPLETE of a VD in teardown or posture change whose
pairs all fill fences the failed ones. -/
def Obligations.MemoryUpkeep : Prop :=
  (∀ (c : ChanId) (s : State) (cv : Conv), (s.chan c.val).conv = some cv →
    gives (.eccConversionDone c) s (fun t => (t.chan c.val).layout = cv.new ∧ (t.chan c.val).queued = none ∧
      ((s.chan c.val).queued = none → (t.chan c.val).conv = none) ∧
      (∀ q, (s.chan c.val).queued = some q → q ≠ cv.new → cv.new ≠ .scrubbed → (t.chan c.val).conv = some { old := cv.new, new := q }) ∧
      ((cv.old = .standard) ≠ (cv.new = .standard) → ∀ line, dpaChan (128 * line) = c.val → hbmPoison s line = true →
        (unitMeta t (2 * line)).poison = true ∧ (unitMeta t (2 * line + 1)).poison = true))) ∧
  (∀ (n : StackId) (s : State), (s.stack n.val).patrolHours ≠ 0 → (s.stack n.val).patrolOn = false →
    gives (.patrolScrubStart n) s (fun t => t = { s with mem := { s.mem with stackUnits := t.mem.stackUnits } } ∧
      t.stack n.val = { s.stack n.val with patrolOn := true, patrolLate := false } ∧ ∀ k, k ≠ n.val → t.stack k = s.stack k)) ∧
  (∀ (n : StackId) (s : State), (s.stack n.val).patrolOn = true → (s.stack n.val).patrolLate = false →
    gives (.patrolLate n) s (fun t => t.stack n.val = { s.stack n.val with patrolLate := true } ∧ t.reports = s.reports ++ [(4, n.val, 64)])) ∧
  (∀ (n : StackId) (ecs : List Nat) (s : State), (s.stack n.val).patrolOn = true →
    gives (.patrolPassComplete n ecs) s (fun t => (t.stack n.val).patrolOn = false ∧
      (t.stack n.val).patrolPasses = (s.stack n.val).patrolPasses + 1 ∧
      ∀ k < 16, (t.chan (16 * n.val + k)).ecs = (s.chan (16 * n.val + k)).ecs + ecs.getD k 0)) ∧
  (∀ (k : Fin 128) (failed : BitVec 64) (s : State) (x : Slice), look s.pool.slices k.val = some x → x.st = .releasing →
    gives (.zeroFillComplete (.slice k) failed) s (fun t => look t.pool.slices k.val = none ∧
      t.pool.pairFenced = s.pool.pairFenced ||| (x.pairs &&& failed) ∧
      ∀ p ∈ slicePairs s x, (t.pairMem p).filling = false ∧ (t.chan (2 * p)).layout = .scrubbed ∧ (t.chan (2 * p + 1)).layout = .scrubbed ∧
        ∀ a, dpaPair a = p → lookD t.mem.hbm a 0 = 0)) ∧
  (∀ (v : VdId) (failed : BitVec 64) (s : State), ((s.vd v.val).teardown = true ∧ (s.fn v.val).resetting = false) ∨
    (s.vd v.val).posture.isSome = true → ownedPairs s v.val ≠ [] → (∀ p ∈ ownedPairs s v.val, (s.pairMem p).filling = true) →
    gives (.zeroFillComplete (.vd v) failed) s (fun t => ∀ p < 64, pairBit t.pool.pairFenced p =
      (pairBit s.pool.pairFenced p || (decide (p ∈ ownedPairs s v.val) && pairBit failed p))))

namespace Sys2Proof.Claims

def newTail (x : Shake) (v : Nat) : Shake :=
  { x with tail := v, pend := true, st := if x.st = .armed ∨ x.st = .idle then .active else x.st }
def newHead (x : Shake) (h : Nat) : Shake :=
  { x with head := h, pend := x.pend && decide (h ≠ x.tail), st := if h = x.tail then .idle else x.st }

end Sys2Proof.Claims

open Sys2Proof.Claims in
/-- A work queue takes a tail, its task consumes and waits, wakes and exits. WQ_SIGNAL by an engine of the queue's VD to a
queue in a live context that is not in ERROR and whose new tail fits: the tail and PEND are set, an idle or armed queue
becomes active, and nothing else changes; a tail that overruns puts a queue without a task in ERROR. WQ_WAIT of a
running task with no stop pending on queue q: the head goes on by the entries handled, at most those waiting; where it
reaches the tail, the queue is idle with PEND clear and the task waits, otherwise the task runs on. RESIDENT_TASK_WAKE:
a waiting task of an active queue runs. RESIDENT_TASK_EXIT of a task with no fence and no stop packet: the task is
gone, its queue has none and its constant-buffer slot is free. -/
def Obligations.ResidentTasksAndWorkQueues : Prop :=
  (∀ (e : EngId) (w : Fin 4096) (tail : W32) (s : State) (x : Wq), s.wq? w.val = some x → s.engVd e.val = some x.fn →
    ctxLive s x.fn x.ctx = true → x.sh.st ≠ .error →
    ((tail.toNat + 2 ^ 32 - x.sh.head) % 2 ^ 32 ≤ 2 ^ x.log2 → gives (.wqSignal e w tail) s (fun t =>
      t = { s with gfe := { s.gfe with wqs := t.gfe.wqs } } ∧ (∀ k, k ≠ w.val → t.wq? k = s.wq? k) ∧
      t.wq? w.val = some { x with sh := newTail x.sh tail.toNat })) ∧
    (2 ^ x.log2 < (tail.toNat + 2 ^ 32 - x.sh.head) % 2 ^ 32 → x.task = none → gives (.wqSignal e w tail) s (fun t =>
      t.wq? w.val = some { x with sh := { x.sh with st := .error } }))) ∧
  (∀ (tid : W32) (n : Fin 4097) (s : State) (x : Task) (q : Wq), s.task? tid.toNat = some x → x.st = .running → x.stopPend = false →
    s.wq? x.wq = some q →
    gives (.wqWait tid n) s (fun t =>
      let h := (q.sh.head + min n.val (shakeWaiting q.sh)) % 2 ^ 32
      t.wq? x.wq = some { q with sh := newHead q.sh h } ∧
      t.task? tid.toNat = some { x with st := if h = q.sh.tail then .waiting else .running })) ∧
  (∀ (tid : W32) (s : State) (x : Task) (q : Wq), s.task? tid.toNat = some x → x.st = .waiting → s.wq? x.wq = some q → q.sh.st = .active →
    gives (.residentTaskWake tid) s (fun t => t = { s with gfe := { s.gfe with tasks := t.gfe.tasks } } ∧
      t.task? tid.toNat = some { x with st := .running } ∧ ∀ k, k ≠ tid.toNat → t.task? k = s.task? k)) ∧
  (∀ (tid : W32) (s : State) (x : Task), s.task? tid.toNat = some x → x.signal = none → x.stopPkts = [] → x.cbSlot < 32 →
    gives (.residentTaskExit tid) s (fun t => t = { s with gfe := t.gfe, cores := t.cores } ∧ t.task? tid.toNat = none ∧
      (∀ k, k ≠ tid.toNat → t.task? k = s.task? k) ∧
      (∀ k q, t.wq? k = some q → q.task ≠ some tid.toNat) ∧
      (t.core (engCore x.engine)).cbUsed.getLsbD x.cbSlot = false))

namespace Sys2Proof.Claims

def retried (x : Mcast) (c : Nat) : Mcast :=
  { x with retries := x.retries.erase c, granted := x.granted.erase c, answers := x.answers ++ [(c, true)] }

end Sys2Proof.Claims

open Sys2Proof.Claims in
/-- A multicast is copied to the targets in its sender's scope, acknowledged, retried on a grant, and ended.
MULTICAST_ISSUE by an engine whose core serves a VD, with 1 to 2,048 bytes and some target in the scope, puts the
multicast in flight with those targets. For a multicast in flight and a target of it that is in the sender's scope,
with nothing to settle: MC_COPY_RECEIVE of a copy delivers the payload and answers yes where there is room, else
answers no; MC_ACK of a yes marks the target acknowledged, and where every target left is, and every one asked for, the
multicast is gone; MC_NACK of a no asks for the target's reserved entry; MC_GRANT to the first in the target's order
gives it and sends the retry; MC_RETRY_RECEIVE delivers, frees the entry and answers yes. MC_TIMEOUT with every target
asked for acknowledged removes the multicast. -/
def Obligations.MulticastDelivers : Prop :=
  (∀ (e : EngId) (targets : BitVec 192) (dst : McDest) (payload : List Byte) (s : State) (v : Nat), s.coreVd (engCore e.val) = some v →
    payload ≠ [] → payload.length ≤ 2048 →
    (∃ c ∈ bitsOf 192 targets.toNat, s.coreVd c = some v ∧ s.coreTag c = s.coreTag (engCore e.val) ∧ cgBit s.pool.cgFenced (coreCg c) = false) →
    gives (.multicastIssue e targets dst payload) s (fun t => t = { s with net := t.net } ∧ ∃ x, look t.net.mcasts s.net.nextMc = some x ∧
      x.sender = e.val ∧ x.payload = payload ∧ x.dest = dst ∧ x.asked = bitsOf 192 targets.toNat ∧ x.acked = [] ∧ x.copies = x.targets ∧
      ∀ c, c ∈ x.targets ↔ c ∈ x.asked ∧ s.coreVd c = some v ∧ s.coreTag c = s.coreTag (engCore e.val) ∧
        cgBit s.pool.cgFenced (coreCg c) = false)) ∧
  (∀ (m : W32) (c : CoreId) (s : State) (x : Mcast), look s.net.mcasts m.toNat = some x → c.val ∈ x.targets → mcReach s x c.val = true →
    s.ready = [] →
    (c.val ∈ x.copies →
      gives (.mcCopyReceive m c true) s (fun t => t.core c.val = (mcDeliver s x c.val).core c.val ∧
        look t.net.mcasts m.toNat = some { x with copies := x.copies.erase c.val, answers := x.answers ++ [(c.val, true)] }) ∧
      gives (.mcCopyReceive m c false) s (fun t => t = { s with net := t.net } ∧
        look t.net.mcasts m.toNat = some { x with copies := x.copies.erase c.val, answers := x.answers ++ [(c.val, false)] })) ∧
    ((c.val, true) ∈ x.answers →
      ((∃ d ∈ x.targets, d ∉ x.acked ∧ d ≠ c.val) → gives (.mcAck m c) s (fun t => t = { s with net := t.net } ∧
        look t.net.mcasts m.toNat = some { x with answers := x.answers.erase (c.val, true), acked := x.acked ++ [c.val] })) ∧
      ((∀ d ∈ x.targets, d ∈ x.acked ∨ d = c.val) → (∀ d ∈ x.asked, d ∈ x.acked ∨ d = c.val) →
        gives (.mcAck m c) s (fun t => look t.net.mcasts m.toNat = none ∧ t.engs = s.engs ∧ ∀ d, m.toNat ∉ (t.core d).reserve))) ∧
    ((c.val, false) ∈ x.answers → gives (.mcNack m c) s (fun t =>
      look t.net.mcasts m.toNat = some { x with answers := x.answers.erase (c.val, false) } ∧
      (t.core c.val).reserve = (s.core c.val).reserve ++ [m.toNat])) ∧
    ((s.core c.val).reserve.head? = some m.toNat → c.val ∉ x.granted → gives (.mcGrant m c) s (fun t =>
      look t.net.mcasts m.toNat = some { x with granted := x.granted ++ [c.val], retries := x.retries ++ [c.val] })) ∧
    (c.val ∈ x.retries → gives (.mcRetryReceive m c) s (fun t =>
      (t.core c.val).sp = ((mcDeliver s x c.val).core c.val).sp ∧ (t.core c.val).reserve = (s.core c.val).reserve.erase m.toNat ∧
      look t.net.mcasts m.toNat = some (retried x c.val)))) ∧
  (∀ (m : W32) (s : State) (x : Mcast), look s.net.mcasts m.toNat = some x → (∀ d ∈ x.asked, d ∈ x.acked) → s.ready = [] →
    gives (.mcTimeout m) s (fun t => look t.net.mcasts m.toNat = none ∧ t.engs = s.engs ∧ ∀ d, m.toNat ∉ (t.core d).reserve))

namespace Sys2Proof.Claims

/-- The state after a counted timeout. -/
def timedOut (s : State) : State := { s with net := { s.net with txnTimeouts := s.net.txnTimeouts + 1 } }
def netCause (unit : Nat) : ErrRec := { cause := 0x000C, source := 1, detail := natLe 2 unit }
/-- Packets a router loses when it is fenced. -/
def lostAt (s : State) (r : Nat) : Nat :=
  (s.net.pkts.filter (fun p => p.1 = r)).length + ((s.net.holds.filter (fun h => h.router = r)).map (fun h => h.pkts.length)).sum
/-- The network after a faulty router has drained, and the report of NET_UNROUTABLE. -/
def drained (s : State) (r : Nat) : State :=
  let ok := bypassOk (s.net.fenced ++ [r])
  { s with
    net := { s.net with
      pkts := s.net.pkts.filter (fun p => p.1 ≠ r)
      holds := s.net.holds.filter (fun h => h.router ≠ r)
      droppedPkts := s.net.droppedPkts + lostAt s r
      fenced := s.net.fenced ++ [r]
      faulty := s.net.faulty.filter (· ≠ r)
      halted := s.net.halted.filter (fun d => d ≠ coreDie r || s.net.faulty.any (fun x => x ≠ r && coreDie x = d))
      unroutable := s.net.unroutable || !ok }
    reports := if ok then s.reports else s.reports ++ [(8, r, 64)] }

end Sys2Proof.Claims

open Sys2Proof.Claims in
/-- Urgency, wheels and frames take effect, and a failed router is halted, drained and fenced. URGENCY_CHANGE sets that
master's level and no other. WHEEL_ACTIVATE of a wheel with a shadow puts the shadow's length and slots in force,
entries of VDs that are gone FREE, and drops the shadow. LINK_FRAME_ACTIVATE gives that router the device's frame.
ROUTER_FAULT on a router neither fenced nor faulty marks it faulty, halts its die and reports it. ROUTER_DRAIN_DONE of
a faulty router fences it and its core group where that is ready, removes its packets, resumes the die unless another
faulty router of it drains, and composition is closed where the bypasses would not be valid. NET_TXN_TIMEOUT of a
running engine, a descriptor or a line with a transaction counts a timeout and ends it with the network's cause. -/
def Obligations.NetworkRegulationAndRouters : Prop :=
  (∀ (m : UrgMaster) (level : Fin 4) (s : State), gives (.urgencyChange m level) s (fun t => t = { s with net := { s.net with urgency := t.net.urgency } } ∧
      lookD t.net.urgency (masterNum m) 0 = level.val ∧ ∀ k, k ≠ masterNum m → lookD t.net.urgency k 0 = lookD s.net.urgency k 0)) ∧
  (∀ (w : Fin 32) (s : State) (x : Wheel) (n : Nat) (sl : List Nat), look s.net.wheels w.val = some x → x.shadow = some (n, sl) →
    gives (.wheelActivate w) s (fun t => t = { s with net := { s.net with wheels := t.net.wheels } } ∧
      look t.net.wheels w.val = some { x with len := n, slots := sl.map (freeGone s), shadow := none } ∧
      ∀ k, k ≠ w.val → look t.net.wheels k = look s.net.wheels k)) ∧
  (∀ (r : CoreId) (s : State), gives (.linkFrameActivate r) s (fun t => t = { s with net := { s.net with routerFrame := t.net.routerFrame } } ∧
      lookD t.net.routerFrame r.val defaultFrame = s.net.frame ∧
      ∀ k, k ≠ r.val → lookD t.net.routerFrame k defaultFrame = lookD s.net.routerFrame k defaultFrame)) ∧
  (∀ (r : CoreId) (s : State), r.val ∉ s.net.fenced → r.val ∉ s.net.faulty →
    gives (.routerFault r) s (fun t => t.net.faulty = s.net.faulty ++ [r.val] ∧ coreDie r.val ∈ t.net.halted ∧
      t.reports = s.reports ++ [(7, r.val, (s.coreVd r.val).getD 64)] ∧ t.cores = s.cores ∧ t.engs = s.engs)) ∧
  (∀ (r : CoreId) (s : State), r.val ∈ s.net.faulty →
    gives (.routerDrainDone r) s (fun t =>
      t = { failCg (drained s r.val) (coreCg r.val) [] with pending := s.pending } ∧
      (cgBit s.pool.cgReady (coreCg r.val) = true → cgBit t.pool.cgFenced (coreCg r.val) = true) ∧
      (s.cgVd (coreCg r.val) = none → t.net = (drained s r.val).net))) ∧
  (∀ (s : State),
    (∀ (e : EngId) (x : RunTile) (l : Launch), (s.eng e.val).run = some x → s.launch? x.tile.launch = some l → l.failed = none →
      gives (.netTxnTimeout (.engine e)) s (fun t => t = { settle (engineError (timedOut s) e.val (netCause (engCore e.val))) with
        pending := s.pending
        pool := s.pool })) ∧
    (∀ (d : W32) (x : Desc), s.desc? d.toNat = some x →
      gives (.netTxnTimeout (.desc d)) s (fun t => t = { settle (failDesc (timedOut s) d.toNat (netCause (0x100 + d.toNat % 32))) with
        pending := s.pending
        pool := s.pool })) ∧
    (∀ (l : LineId) (x : Txn), (s.llcLine l.val).txn = some x → s.ready = [] →
      gives (.netTxnTimeout (.line l)) s (fun t => t.net.txnTimeouts = s.net.txnTimeouts + 1 ∧ t.gfe = s.gfe ∧ t.engs = s.engs)))

namespace Sys2Proof.Claims

def relayAt (s : State) (r gk b sg : Nat) (p : RelayPkt) : Prop :=
  s.net.pkts.find? (fun q => q.1 = r && q.2.group = gk && q.2.block = b && q.2.seg = sg) = some (r, p)

end Sys2Proof.Claims

open Sys2Proof.Claims in
/-- A router combines what it holds of a segment and sends it one hop on; an unknown group is discarded. For a packet of a
segment that arrives at a router on its way, with nothing to settle. RELAY_ARRIVAL of a packet whose group is gone
discards it and counts it. Where the router is not the group's destination and the combined packets cover what the
router expects, or the router has no entry for the group, they leave for the next router on the default route and the
router holds nothing of that segment; where they do not, they stay. RELAY_WAIT_EXPIRY at such a router sends on what is
held. At the destination both go to the output as the shared operation writes it. -/
def Obligations.RelayPacketsCombine : Prop :=
  (∀ (r : CoreId) (gk b sg : W16) (s : State) (p : RelayPkt), relayAt s r.val gk.toNat b.toNat sg.toNat p → s.ready = [] →
    (look s.net.groups gk.toNat = none → gives (.relayArrival r gk b sg) s (fun t =>
      t = { s with net := { s.net with pkts := s.net.pkts.erase (r.val, p), relayDiscards := s.net.relayDiscards + 1 } })) ∧
    (∀ g, look s.net.groups gk.toNat = some g → r.val ≠ groupDest g →
      let ps := relayCombine g (holdOf s r.val gk.toNat b.toNat sg.toNat ++ [p])
      let all := ps.foldl (fun a q => a + q.count) 0
      (expectedAt g r.val ≤ all ∨ r.val ∉ g.entries → gives (.relayArrival r gk b sg) s (fun t => t = { s with net := t.net } ∧
        t.net.pkts = s.net.pkts.erase (r.val, p) ++ ps.map (fun q => (nextHop r.val (groupDest g), q)) ∧
        holdOf t r.val gk.toNat b.toNat sg.toNat = [])) ∧
      (all < expectedAt g r.val → r.val ∈ g.entries → gives (.relayArrival r gk b sg) s (fun t => t = { s with net := t.net } ∧
        t.net.pkts = s.net.pkts.erase (r.val, p) ∧ t.net.relayDiscards = s.net.relayDiscards)))) ∧
  (∀ (r : CoreId) (gk b sg : W16) (s : State) (g : RelayGroup), look s.net.groups gk.toNat = some g →
    holdOf s r.val gk.toNat b.toNat sg.toNat ≠ [] → s.ready = [] →
    (r.val ≠ groupDest g → gives (.relayWaitExpiry r gk b sg) s (fun t => t = { s with net := t.net } ∧
      t.net.pkts = s.net.pkts ++ (relayCombine g (holdOf s r.val gk.toNat b.toNat sg.toNat)).map (fun q => (nextHop r.val (groupDest g), q)) ∧
      holdOf t r.val gk.toNat b.toNat sg.toNat = [])) ∧
    (r.val = groupDest g → gives (.relayWaitExpiry r gk b sg) s (fun t =>
      t = { settle (relayWrite (setHold s r.val gk.toNat b.toNat sg.toNat (relayCombine g (holdOf s r.val gk.toNat b.toNat sg.toNat)))
          gk.toNat b.toNat) with
        pending := s.pending
        pool := s.pool })))

namespace Sys2Proof.Claims

def ownTile (s : State) (e : Nat) (r : RunTile) (l : Launch) : Prop :=
  (s.eng e).run = some r ∧ s.launch? r.tile.launch = some l ∧ l.failed = none

end Sys2Proof.Claims

open Sys2Proof.Claims in
/-- An open fault is recorded once; RETRY replays its engines, ABORT and the timeout fail their launches. FAULT_RECORD_POST
of an open fault not yet recorded, with room in its function's fault ring: the 64 bytes of the record stand in host
memory at the producer's slot, the producer index is one more and the fault counts as recorded. XLT_RESUME_RETRY by the
fault's own open function, where engines alone wait and no agent stalls unrecorded: the fault is closed, every waiting
engine's tile runs on and no other engine changes; a resume that names no open fault of the function is counted and
changes nothing else. XLT_RESUME_ABORT of it, or FAULT_TIMEOUT, where one engine with a running tile of a live launch
waits: the fault is closed, the engine runs nothing, and the launch, unless it has ended, has failed with cause "access
aborted" or "fault timeout" and the fault's page, number and kind. -/
def Obligations.FaultRecordsAndResumes : Prop :=
  (∀ (id : W32) (s : State) (f : OpenFault), look s.xlt.faults id.toNat = some f → f.posted = false → ringRoom (s.fn f.fn).xlt.fring = true →
    gives (.faultRecordPost id) s (fun t =>
      let r := (s.fn f.fn).xlt.fring
      readHost t (r.base + r.prod % 2 ^ r.log2 * 64) 64 = faultRecord s id.toNat f (phaseOf r.prod r.log2) ∧
      (t.fn f.fn).xlt.fring = { r with prod := r.prod + 1 } ∧ look t.xlt.faults id.toNat = some { f with posted := true })) ∧
  (∀ (fn : FnId) (id : W32) (s : State), fnOpen s fn.val = true →
    (∀ f, look s.xlt.faults id.toNat = some f → f.fn = fn.val → (∀ w ∈ f.waiters, ∃ e, w = .engine e) → s.xlt.stalledNoEntry = [] →
      gives (.xltResumeRetry fn id) s (fun t => look t.xlt.faults id.toNat = none ∧
        (∀ k, k ≠ id.toNat → look t.xlt.faults k = look s.xlt.faults k) ∧
        (∀ e, Waiter.engine e ∈ f.waiters → (t.eng e).run = (s.eng e).run.map (fun r => { r with stalled := none })) ∧
        (∀ e, Waiter.engine e ∉ f.waiters → t.eng e = s.eng e))) ∧
    ((∀ f, look s.xlt.faults id.toNat = some f → f.fn ≠ fn.val) →
      gives (.xltResumeRetry fn id) s (fun t => (t.fn fn.val).xlt.badResume = satAdd 16 (s.fn fn.val).xlt.badResume 1 ∧
        t = { s with fns := t.fns } ∧ exec (.xltResumeAbort fn id) s = .next t)) ∧
    (∀ f e r l, look s.xlt.faults id.toNat = some f → f.fn = fn.val → f.waiters = [.engine e] → s.xlt.stalledNoEntry = [] → ownTile s e r l →
      gives (.xltResumeAbort fn id) s (fun t => look t.xlt.faults id.toNat = none ∧ (t.eng e).run = none ∧
        ∀ l', t.launch? r.tile.launch = some l' → l'.failed = some { faultErr 0x0008 id.toNat f with source := srcOf l }))) ∧
  (∀ (id : W32) (s : State) f e r l, look s.xlt.faults id.toNat = some f → f.waiters = [.engine e] → s.xlt.stalledNoEntry = [] → ownTile s e r l →
    gives (.faultTimeout id) s (fun t => look t.xlt.faults id.toNat = none ∧ (t.eng e).run = none ∧
      ∀ l', t.launch? r.tile.launch = some l' → l'.failed = some { faultErr 0x0009 id.toNat f with source := srcOf l }))

namespace Sys2Proof.Claims

def invReady (s : State) (fn n : Nat) (r : InvReq) : Prop :=
  fnOpen s fn = true ∧ (s.vd fn).live = true ∧ (lookD (s.fn fn).xlt.slots n {}).st ≠ 1 ∧ r.seq ≠ 0 ∧ r.ctx.toNat ≤ 4095 ∧
    (r.fence.toNat ≤ 65535 ∨ r.fence = 0xFFFFFFFF)
def invRuns (s t : State) (fn n : Nat) (ctxs : List Nat) (lo hi seq : Nat) : Prop :=
  (lookD (t.fn fn).xlt.slots n {}).st = 1 ∧ (lookD (t.fn fn).xlt.slots n {}).seq = seq ∧
    (∀ x ∈ t.xlt.walkCache, x ∈ s.xlt.walkCache) ∧ t.xlt.walkCache = tlbDrop s.xlt.walkCache fn ctxs lo hi ∧
    (∀ c, (t.core c).xtlb = tlbDrop (s.core c).xtlb fn ctxs lo hi) ∧
    (∃ v, look t.xlt.invals s.xlt.nextInval = some v ∧ v.fn = fn ∧ v.src = .slot n ∧ v.ctxs = ctxs ∧ v.held = false)

end Sys2Proof.Claims

open Sys2Proof.Claims in
/-- An invalidation raises the epoch and drops every cached entry of its range before it may complete. For an open function
with a live VD, a slot not in progress, a nonzero sequence number, a fence field that names a fence or none, and no
descriptor of the contexts that would fall 32,768 epochs behind. INV_RANGE with a page-aligned address and 1 to 2^39
pages of an existing context, and INV_CONTEXT with both zero: the slot is in progress under its new sequence number,
the context's epoch is one more, and neither the front end's walk cache nor any core keeps an entry of the context that
meets the range. INV_FUNCTION with both zero: the same for every context of the function. INV_COMPLETE of a running
request with no descriptor left to wait for and no dying context: it is gone and its slot is complete; a fence it
carries takes its value where that is above the fence's. INV_LIMIT_EXPIRY also ends it, and the descriptors that held
it up are gone. ATS_INVALIDATE_REQUEST drops the function's translations that meet the range and starts such a request
on its contexts that use host memory. -/
def Obligations.InvalidationsDropEntries : Prop :=
  (∀ (fn : FnId) (n : Fin 64) (r : InvReq) (s : State), invReady s fn.val n.val r →
    (∀ x, s.ctx? fn.val r.ctx.toNat = some x → epochBlocked s fn.val [r.ctx.toNat] = false →
      (r.va.toNat % 65536 = 0 → 1 ≤ r.npages.toNat → r.npages.toNat ≤ 2 ^ 39 → gives (.invRange fn n r) s (fun t =>
        invRuns s t fn.val n.val [r.ctx.toNat] r.va.toNat (r.va.toNat + 65536 * r.npages.toNat) r.seq.toNat ∧
        t.ctx? fn.val r.ctx.toNat = some { x with epoch := (x.epoch + 1) % 65536 })) ∧
      (r.va = 0 → r.npages = 0 → gives (.invContext fn n r) s (fun t =>
        invRuns s t fn.val n.val [r.ctx.toNat] 0 (2 ^ 64) r.seq.toNat ∧
        t.ctx? fn.val r.ctx.toNat = some { x with epoch := (x.epoch + 1) % 65536 }))) ∧
    (r.va = 0 → r.npages = 0 → epochBlocked s fn.val (s.fnCtxs fn.val) = false → sortedKeys s.obj.ctxs = true →
      gives (.invFunction fn n r) s (fun t => invRuns s t fn.val n.val (s.fnCtxs fn.val) 0 (2 ^ 64) r.seq.toNat ∧
        ∀ c < 4096, t.ctx? fn.val c = (s.ctx? fn.val c).map (fun x => { x with epoch := (x.epoch + 1) % 65536 })))) ∧
  (∀ (id : W32) (s : State) (v : Inval), look s.xlt.invals id.toNat = some v → v.held = false →
    (invalLeft s v = [] → (invalDying s v = false ∨ v.kind = 3) → gives (.invComplete id) s (fun t => look t.xlt.invals id.toNat = none ∧
      (∀ n, v.src = .slot n → (lookD (t.fn v.fn).xlt.slots n {}).st = 0) ∧
      (∀ n k x, v.src = .slot n → v.fence = some (k, x) → (s.fence v.fn k).value.toNat < x → x < 2 ^ 64 - 2 →
        (t.fence v.fn k).value.toNat = x))) ∧
    gives (.invLimitExpiry id) s (fun t => look t.xlt.invals id.toNat = none ∧ ∀ d ∈ invalLeft s v, t.desc? d = none)) ∧
  (∀ (fn : FnId) (addr size : W64) (tag : Nat) (s : State),
    let cs := (s.fnCtxs fn.val).filter (fun c => ((s.ctx? fn.val c).map (·.hostEn)).getD false)
    epochBlocked s fn.val cs = false →
    gives (.atsInvalidateRequest fn addr size tag) s (fun t =>
      (∀ a, a ∈ t.xlt.atc ↔ a ∈ s.xlt.atc ∧ ¬(a.fn = fn.val ∧ a.page * 4096 < addr.toNat + size.toNat ∧ addr.toNat < (a.page + 1) * 4096)) ∧
      t.xlt.walkCache = tlbDrop s.xlt.walkCache fn.val cs 0 (2 ^ 64) ∧
      ∃ v, look t.xlt.invals s.xlt.nextInval = some v ∧ v.src = .ats tag ∧ v.ctxs = cs ∧ v.held = false))

open Sys2Proof.Claims in
/-- A transfer goes chunk by chunk to its completion; host pages are answered, asked for or retried; logs swap. For an
accepted descriptor of a live request whose current chunk runs: DESCRIPTOR_CHUNK_BOUNDARY before the last chunk moves
the position to the chunk's end and counts the chunk; TRANSFER_COMPLETE on the last chunk of a packet that asks for no
load record, with nothing to settle, drops the descriptor and queues the packet's OK completion in its ring.
ATS_TRANSLATION_COMPLETION for an untranslated page that allows what is asked, where engines alone wait, caches the
translation as the newest, ends the wait and lets those engines run; refused, for a context with page requests enabled
in a function that has them, not yet retried and with fewer than 256 out, it sends the Page Request.
PAGE_REQUEST_RESPONSE with success makes the request translate again; DLOG_SWAP by the open function 0 starts a
function's swap, and DLOG_SWAP_DONE ends it on the other set. -/
def Obligations.TransfersAndHostPages : Prop :=
  (∀ (id : W32) (s : State) (d : Desc), s.desc? id.toNat = some d → descDead s d = false → (chunkRun s id.toNat).2 = true →
    (d.chunkEnd < descTotal d → gives (.descriptorChunkBoundary id) s (fun t => ∃ d0 d1, (chunkRun s id.toNat).1.desc? id.toNat = some d0 ∧
      t.desc? id.toNat = some d1 ∧ d0.pos = d.pos ∧ d1.pos = d0.chunkEnd ∧ d1.chunks = (d0.chunks + 1) % 2 ^ 32)) ∧
    (∀ p r, d.owner = .packet p → d.record = false → descTotal d ≤ d.chunkEnd → s.ring? p.ring = some r → s.ready = [] →
      gives (.transferComplete id) s (fun t => t.desc? id.toNat = none ∧
        ∃ r', t.ring? p.ring = some r' ∧ r'.waiting = r.waiting ++ [cqeOf p stOk 0 0 0 none] ∧ r'.inflight = r.inflight.erase p.seq))) ∧
  (∀ (fn : FnId) (page : W64) (s : State) (q : PageReq),
    s.xlt.pageReqs.find? (fun q => q.fn = fn.val && q.page = page.toNat && !q.sent) = some q →
    (∀ addr w, (w = true ∨ q.write = false) → (∀ x ∈ q.waiters, ∃ e, x = .engine e) →
      gives (.atsTranslationCompletion fn page (some (addr, w))) s (fun t => t.xlt.pageReqs = s.xlt.pageReqs.erase q ∧
        t.xlt.atc.head? = some { fn := fn.val, page := page.toNat, addr := addr.toNat / 4096 * 4096, write := w } ∧
        ∀ e, Waiter.engine e ∈ q.waiters → (t.eng e).run = (s.eng e).run.map (fun r => { r with stalled := none }))) ∧
    (∀ x, s.ctx? fn.val q.ctx = some x → x.priEn = true → (s.pf fn.val).priEn = true → q.retried = false → prOut s fn.val < 256 →
      gives (.atsTranslationCompletion fn page none) s (fun t => t = { s with xlt := { s.xlt with pageReqs := t.xlt.pageReqs } } ∧
        { q with sent := true } ∈ t.xlt.pageReqs ∧ t.xlt.pageReqs.length = s.xlt.pageReqs.length))) ∧
  (∀ (fn : FnId) (page : W64) (s : State) (q : PageReq),
    s.xlt.pageReqs.find? (fun q => q.fn = fn.val && q.page = page.toNat && q.sent) = some q →
    gives (.pageRequestResponse fn page true) s (fun t => t = { s with xlt := { s.xlt with pageReqs := t.xlt.pageReqs } } ∧
      { q with sent := false, retried := true } ∈ t.xlt.pageReqs ∧ t.xlt.pageReqs.length = s.xlt.pageReqs.length)) ∧
  (∀ (fn : FnId) (s : State), fnOpen s 0 = true → fn.val ≠ 0 →
    gives (.dlogSwap fn) s (fun t => look t.xlt.dlog fn.val = some { lookD s.xlt.dlog fn.val {} with swapping := true } ∧
      ∀ k, k ≠ fn.val → look t.xlt.dlog k = look s.xlt.dlog k)) ∧
  (∀ (fn : FnId) (s : State) (d : Dlog), look s.xlt.dlog fn.val = some d → d.swapping = true →
    gives (.dlogSwapDone fn) s (fun t => t = { s with xlt := { s.xlt with dlog := t.xlt.dlog } } ∧
      look t.xlt.dlog fn.val = some { d with swapping := false, swapDone := true, active := !d.active }))

namespace Sys2Proof.Claims

def moveDestOk (s : State) (fn dest sz : Nat) : Prop :=
  dest % sz = 0 ∧ dest + sz ≤ dpaLimit ∧ dpaPair dest = dpaPair (dest + sz - 1) ∧ s.pairVd (dpaPair dest) = some fn ∧
    pairBit (s.vd fn).leave (dpaPair dest) = false

end Sys2Proof.Claims

open Sys2Proof.Claims in
/-- A move entry marks its object and invalidates it first; its end records a result and releases the walks.
MOVE_ENTRY_START of an entry that may start, whose target is found on a pair that is leaving and whose destination is
aligned, in one pair of the VD that stays and whole, not already moving, with no descriptor of the context 32,768
epochs behind: the entry counts as running, the entry word found is kept, and an invalidation of the object's range for
this entry runs; a root is held. An entry whose object does not lie on a leaving pair ends with result 4, and one whose
context is gone with result 3, in the list where it still runs. MOVE_ENTRY_FINISH of a running entry whose invalidation
has ended leaves it no longer running with a result; of a root that did not time out, the context has the new root and
is no longer held. -/
def Obligations.PageMovesHoldAndSwitch : Prop :=
  (∀ (m n : W32) (s : State) (x : MoveList), look s.xlt.moves m.toNat = some x → moveMayStart x n.toNat = true →
    let b := x.entries.getD n.toNat []
    let kind := fieldAt b 2 1
    (∀ c a e, s.ctx? x.fn (fieldAt b 0 2) = some c → moveTarget s x.fn c b = some (a, e) →
      let obj := if kind = 4 then e else pteAddr e
      (pairBit (s.vd x.fn).leave (dpaPair obj) = true → moveDestOk s x.fn (fieldAt b 16 8) (moveSize kind) → (kind = 4 ∨ pteMig e = false) →
        epochBlocked s x.fn [fieldAt b 0 2] = false →
        gives (.moveEntryStart m n) s (fun t =>
          (∃ y, look t.xlt.moves m.toNat = some y ∧ y.running = x.running ++ [n.toNat] ∧ lookD y.olds n.toNat 0 = e ∧ y.results = x.results) ∧
          (∃ v, look t.xlt.invals s.xlt.nextInval = some v ∧ v.src = .move m.toNat n.toNat ∧ v.ctxs = [fieldAt b 0 2] ∧ v.held = false) ∧
          (a = none → ∃ c', t.ctx? x.fn (fieldAt b 0 2) = some c' ∧ c'.rootHeld = true ∧ c'.root = c.root))) ∧
      (pairBit (s.vd x.fn).leave (dpaPair obj) = false → gives (.moveEntryStart m n) s (fun t => ∀ y, look t.xlt.moves m.toNat = some y →
        y.results = x.results.mapIdx (fun j r => if j = n.toNat then 4 else r) ∧ y.running = x.running.erase n.toNat))) ∧
    (s.ctx? x.fn (fieldAt b 0 2) = none → gives (.moveEntryStart m n) s (fun t => ∀ y, look t.xlt.moves m.toNat = some y →
      y.results = x.results.mapIdx (fun j r => if j = n.toNat then 3 else r)))) ∧
  (∀ (m n : W32) (s : State) (x : MoveList) (c : Ctx), look s.xlt.moves m.toNat = some x → n.toNat ∈ x.running →
    (∀ p ∈ s.xlt.invals, p.2.src ≠ .move m.toNat n.toNat) →
    let b := x.entries.getD n.toNat []
    s.ctx? x.fn (fieldAt b 0 2) = some c →
    gives (.moveEntryFinish m n) s (fun t =>
      (∀ y, look t.xlt.moves m.toNat = some y → y.running = x.running.erase n.toNat ∧
        (n.toNat < x.results.length → y.results.getD n.toNat 0 ∈ [1, 2, 6])) ∧
      (fieldAt b 2 1 = 4 → n.toNat ∉ x.timedOut →
        ∃ c', t.ctx? x.fn (fieldAt b 0 2) = some c' ∧ c'.root = fieldAt b 16 8 ∧ c'.rootHeld = false)))

namespace Sys2Proof.Claims

/-- The oldest frame of a type, and the state once it has left the receive buffer. -/
def oldestRx (s : State) (p type : Nat) (f : Frame) : Prop := (s.port p).rx.find? (fun f => f.type = type) = some f
def popped (s : State) (p : Nat) (f : Frame) : State := s.modPort p (fun x => freeCredit { x with rx := x.rx.erase f } f)
/-- A state with the queue and the pool of another. -/
def under (s t : State) : State := { t with pending := s.pending, pool := s.pool }
def wayBack (s : State) (p q : Nat) (f : Frame) : Prop := routePort s s.talko.devId f.src 1 = some q ∧ s.portVd q = s.portVd p
/-- The group of a read at an offset. -/
def readGroup (s : State) (p : Nat) (f : Frame) (k : Nat) : Frame :=
  let n := f.aux % 2 ^ 32
  let w := windowStatus s p f n
  let len := min 4096 (n - 4096 * k)
  let r := readDpaVd s w.2.1 (w.2.2 + 4096 * k) len
  let st := if w.1 ≠ 0 then w.1 else if r.2.isSome then 3 else 0
  { type := 2, vc := 1, dst := f.src, src := s.talko.devId, tag := (f.tag + 16 * k) % 4096, status := st
    payload := if st = 0 then r.1 else List.replicate len 0 }

end Sys2Proof.Claims

open Sys2Proof.Claims in
/-- A port answers reads, writes and flushes of its windows, takes answers to its own, and follows peer Relay frames. For
the oldest received frame of its type on a port, with nothing to settle; the frame leaves the buffer and its credit is
free. RD_REQ and WR_REQ, where no earlier request for the same unit waits and the table leads back by a port of the
same VD: each group of up to 4,096 bytes is answered with the window's bytes, or zeros with the status NO_WINDOW,
DENIED or poison; a write is stored where the window allows it and is answered with its status; FLUSH is answered.
RD_DATA of one good unit stores it and marks it done; WR_ACK of a write of a larger operation marks it done; FLUSH_ACK
ends its operation. RELAY_FRAME, RELAY_DONE and RELAY_ABORT of an unknown group count; of a known one they forward the
partial at the root, complete the member's node, or fail its launch. PEER_WAIT_EXPIRY at a root tells every member and
fails the launch; RELAY_DONE_TIMEOUT fails a member's launch. -/
def Obligations.FabricServesFrames : Prop :=
  (∀ (p : PortId) (s : State) (f : Frame) (q : Nat), s.ready = [] → wayBack s p.val q f →
    (oldestRx s p.val 1 f → reqFree (s.port p.val) f = true → gives (.rdReq p) s (fun t => t = { s with talko := t.talko } ∧ (t.port p.val).rx = (s.port p.val).rx.erase f ∧
      (t.port q).queue = (s.port q).queue ++ (List.range (ceilDiv (f.aux % 2 ^ 32) 4096)).map (readGroup s p.val f))) ∧
    (oldestRx s p.val 3 f → reqFree (s.port p.val) f = true → gives (.wrReq p) s (fun t =>
      let w := windowStatus s p.val f f.payload.length
      t.mem = (if w.1 = 0 then (writeDpa (popped s p.val f) w.2.1 w.2.2 f.payload).mem else s.mem) ∧
      (t.port q).queue = (s.port q).queue ++ [{ type := 4, vc := 1, dst := f.src, src := s.talko.devId, tag := f.tag, status := w.1 }])) ∧
    (oldestRx s p.val 5 f → gives (.flush p) s (fun t => t = { s with talko := t.talko } ∧
      (t.port q).queue = (s.port q).queue ++ [{ type := 6, vc := 1, dst := f.src, src := s.talko.devId, tag := f.tag }]))) ∧
  (∀ (p : PortId) (s : State) (f : Frame) (u : UnitRef) (o : LiftOp) (k : Nat), s.ready = [] → look s.talko.ops u.op = some o →
    o.owner = .queue k → o.len ≤ o.next → f.status = 0 →
    (oldestRx s p.val 2 f → f.payload.length = 256 → look (s.port p.val).reads (f.tag % 4096) = some u → o.left.erase u.off ≠ [] →
      ∀ s1, writeVa ((popped s p.val f).modPort p.val (fun x => { x with reads := del x.reads (f.tag % 4096) })) o.fn o.ctx
        (o.va + u.off) f.payload = .ok s1 →
      gives (.rdData p) s (fun t => t.mem = s1.mem ∧ t.host = s1.host ∧ look (t.port p.val).reads (f.tag % 4096) = none ∧
        look t.talko.ops u.op = some { o with left := o.left.erase u.off, ok := o.ok ++ [u.off] })) ∧
    (oldestRx s p.val 4 f → look (s.port p.val).writes f.tag = some u → o.op ≠ 3 → o.left.erase u.off ≠ [] →
      (s.talko.ops.all (fun x => !x.2.waiting)) = true →
      gives (.wrAck p) s (fun t => t = { s with talko := t.talko } ∧ look (t.port p.val).writes f.tag = none ∧
        look t.talko.ops u.op = some { o with left := o.left.erase u.off, ok := o.ok ++ [u.off] })) ∧
    (oldestRx s p.val 6 f → look (s.port p.val).writes f.tag = some u → o.op = 3 → o.left.erase u.off = [] → o.failed = none →
      gives (.flushAck p) s (fun t => look t.talko.ops u.op = none ∧
        ∀ j v, o.fence = some (j, v) → (s.fence o.fn j).value.toNat < v → v < 2 ^ 64 - 2 → (t.fence o.fn j).value.toNat = v))) ∧
  (∀ (p : PortId) (s : State) (f : Frame), s.ready = [] →
    (peerGroupOf s p.val f = none → ∀ c : Instr, (oldestRx s p.val 16 f ∧ c = .relayFrame p) ∨ (oldestRx s p.val 17 f ∧ c = .relayDone p) ∨
      (oldestRx s p.val 18 f ∧ c = .relayAbort p) → gives c s (fun t => t = { s with talko := t.talko } ∧
        (t.port p.val).dropPeer = satAdd 16 (s.port p.val).dropPeer 1 ∧ (t.port p.val).rx = (s.port p.val).rx.erase f)) ∧
    (∀ k g, peerGroupOf s p.val f = some (k, g) →
      (oldestRx s p.val 16 f → g.root = true → f.aux / 2 ^ 32 % 256 = g.type → decide (f.aux / 2 ^ 40 % 2 = 1) = g.tree →
        gives (.relayFrame p) s (fun t => ∃ g' pkts, g'.members = (if (p.val, f.src) ∈ g.members then g.members else g.members ++ [(p.val, f.src)]) ∧
          t = under s (settle (relayForward (setHold { popped s p.val f with net := { s.net with groups := put s.net.groups k g' } }
            (groupDest g') k (f.aux % 2 ^ 32 / 128) (f.aux % 2 ^ 32 % 128) pkts) (groupDest g') k (f.aux % 2 ^ 32 / 128) (f.aux % 2 ^ 32 % 128)
            g' false)))) ∧
      (oldestRx s p.val 17 f → g.root = false → gives (.relayDone p) s (fun t => t = under s (settle (nodeAllDone (popped s p.val f) g)))) ∧
      (oldestRx s p.val 18 f → gives (.relayAbort p) s (fun t => t = under s (settle (failLaunch (popped s p.val f) g.launch (peerLost k))))))) ∧
  (∀ (gk : W16) (s : State) (g : RelayGroup), look s.net.groups gk.toNat = some g → g.peer ≠ 0 →
    (g.root = true → gives (.peerWaitExpiry gk) s (fun t => ∃ s1, t = under s (settle (failLaunch s1 g.launch (peerLost gk.toNat))) ∧
      s1 = { s with talko := s1.talko } ∧ ∀ m ∈ g.members, ∃ fr ∈ (s1.port m.1).queue, fr.type = 0x12 ∧ fr.dst = m.2 ∧
        fr.addr = g.peer + g.inst * 2 ^ 32)) ∧
    (g.root = false → gives (.relayDoneTimeout gk) s (fun t => t = under s (settle (failLaunch s g.launch (peerLost gk.toNat))))))

namespace Sys2Proof.Claims

/-- The entry at the head of a Lift queue, ready to run. -/
def liftHead (s : State) (q : Nat) (x : LiftQ) (b : List Byte) : Prop :=
  s.liftq? q = some x ∧ shakeWaiting x.sh ≠ 0 ∧ x.sh.st ≠ .error ∧ x.sh.st ≠ .destroying ∧ ctxLive s x.fn x.ctx = true ∧
    (∀ o ∈ s.talko.ops, ¬(o.2.owner = .queue q ∧ o.2.op = 1 ∧ o.2.waiting = true)) ∧
    readVa s x.fn x.ctx (x.base + 64 * (x.sh.head % 2 ^ x.log2)) 64 = .ok (b, none) ∧ liftBad s x b = none ∧
    (s.port x.port).st = .up ∧ s.portVd x.port = some x.fn ∧ s.ready = []
/-- The entry's operation has the next number, and the queue has moved on. -/
def liftTaken (s t : State) (q : Nat) (x : LiftQ) (b : List Byte) (o : LiftOp) : Prop :=
  t.liftq? q = some { x with sh := shakeTake x.sh } ∧ look t.talko.ops s.talko.nextOp = some o ∧ o.owner = .queue q ∧
    o.op = fieldAt b 0 1 ∧ o.len = fieldAt b 4 4 ∧ o.failed = none

end Sys2Proof.Claims

open Sys2Proof.Claims in
/-- A Lift queue takes its head entry, sends its frames, and an operation without an answer fails. For a Lift queue with an
entry at its head that can be read, meets every field rule and names a port that is up and the function's own, in a
live context, with no read of the queue waiting for units and nothing to settle; each takes the entry. LREAD with unit
tags free: the operation has every unit outstanding and one read request for them stands in the port's queue; without,
it waits. LWRITE with its data readable: the operation has every part outstanding, one write request each. LFLUSH with
no write of the queue before it: the flush request stands in the port's queue; else it waits. LIFT_UNITS_AVAILABLE with
one read waiting and its tags free issues what is left of it. LIFT_TIMEOUT of a write part of a larger operation of a
queue fails the operation; of a read, every unit of the same request is no longer outstanding, and the operation has
failed or ended. -/
def Obligations.LiftQueuesRun : Prop :=
  (∀ (q : Fin 1536) (s : State) (x : LiftQ) (b : List Byte), liftHead s q.val x b →
    (fieldAt b 0 1 = 1 →
      (∀ tg, unitTags (s.port x.port) (fieldAt b 4 4 / 256) = some tg → gives (.lread q) s (fun t => ∃ o, liftTaken s t q.val x b o ∧
        o.waiting = false ∧ o.next = o.len ∧ o.left = (List.range (fieldAt b 4 4 / 256)).map (256 * ·) ∧
        (t.port x.port).queue = (s.port x.port).queue ++ [{
          type := 1, vc := 0, dst := fieldAt b 2 2, src := s.talko.devId, tag := tg, addr := fieldAt b 8 8, aux := fieldAt b 4 4 }])) ∧
      (unitTags (s.port x.port) (fieldAt b 4 4 / 256) = none → gives (.lread q) s (fun t => ∃ o, liftTaken s t q.val x b o ∧
        o.waiting = true ∧ (t.port x.port).queue = (s.port x.port).queue))) ∧
    (fieldAt b 0 1 = 2 → (∃ d, readVa s x.fn x.ctx (fieldAt b 16 8) (fieldAt b 4 4) = .ok (d, none)) →
      gives (.lwrite q) s (fun t => ∃ o, liftTaken s t q.val x b o ∧ o.next = o.len ∧
        o.left = (List.range (ceilDiv (fieldAt b 4 4) 4096)).map (4096 * ·) ∧
        (t.port x.port).queue.length = (s.port x.port).queue.length + ceilDiv (fieldAt b 4 4) 4096)) ∧
    (fieldAt b 0 1 = 3 →
      ((∀ o ∈ s.talko.ops, ¬(o.1 < s.talko.nextOp ∧ o.2.owner = .queue q.val ∧ o.2.op = 2)) → gives (.lflush q) s (fun t => ∃ o tg,
        liftTaken s t q.val x b o ∧ o.waiting = false ∧ o.left = [0] ∧ (t.port x.port).queue = (s.port x.port).queue ++
          [{ type := 5, vc := 0, dst := fieldAt b 2 2, src := s.talko.devId, tag := tg }])) ∧
      ((∃ o ∈ s.talko.ops, o.1 < s.talko.nextOp ∧ o.2.owner = .queue q.val ∧ o.2.op = 2) →
        gives (.lflush q) s (fun t => ∃ o, liftTaken s t q.val x b o ∧ o.waiting = true)))) ∧
  (∀ (p : PortId) (s : State) (n : Nat) (o : LiftOp) (tg : Nat),
    s.talko.ops.filter (fun o => o.2.port = p.val ∧ o.2.op = 1 ∧ o.2.waiting) = [(n, o)] → look s.talko.ops n = some o → o.failed = none →
    o.next < o.len → o.len ≤ o.next + 65536 → unitTags (s.port p.val) ((o.len - o.next) / 256) = some tg →
    gives (.liftUnitsAvailable p) s (fun t => t = { s with talko := t.talko } ∧ look t.talko.ops n = some { o with
      waiting := false
      next := o.len
      left := o.left ++ (List.range ((o.len - o.next) / 256)).map (fun k => o.next + 256 * k) })) ∧
  (∀ (p : PortId) (tag : W32) (s : State) (u : UnitRef) (o : LiftOp) (k : Nat), look s.talko.ops u.op = some o → o.owner = .queue k →
    s.ready = [] →
    (look (s.port p.val).writes tag.toNat = some u → o.failed = none → o.left.erase u.off ≠ [] →
      gives (.liftTimeout p true tag) s (fun t =>
        ∃ o', look t.talko.ops u.op = some o' ∧ o'.failed = some (farErr o u.off))) ∧
    (look (s.port p.val).reads tag.toNat = some u → gives (.liftTimeout p false tag) s (fun t =>
      (∀ tg w, look (t.port p.val).reads tg = some w → ¬(w.op = u.op ∧ w.off / 65536 = u.off / 65536)) ∧
      ∀ o', look t.talko.ops u.op = some o' → o'.failed.isSome = true)))

namespace Sys2Proof.Claims

/-- The oldest PARK message of an operation, with the record its key names. -/
def parkIn (s : State) (p op : Nat) (f : Frame) (r : ParkRec) : Prop :=
  (s.port p).rx.find? (fun f => f.type = 32 && fieldAt f.payload 0 1 = op) = some f ∧ s.portVd p = some ((parkMsgOf f).key % 64) ∧
    look s.gfe.parks (parkMsgOf f).key = some r ∧ s.ready = []

end Sys2Proof.Claims

open Sys2Proof.Claims in
/-- The parking record names the pool that owns a sequence's state, through parking, transfer, claim and restore. For the
oldest PARK message of its operation on a port of the key's VD whose key has a record, with nothing to settle.
PARK_GRANT with result 0 for a sequence being parked, from the record's pool and epoch, with data to send and the port
up: the record keeps the handle and address given, and a write of the data runs. PARK_CLOSE_ACK with result 0: the
record is PARKED and the sequence holds no pages, and no slot unless its prompt is retained. PARK_RESTORE_RSP with
result 0 and the record's epoch: a read of the state runs. PARK_XFER_PROPOSE from the owner of a PARKED state: the
record is TRANSFERRING to the other pool under the next epoch and the owner is told. PARK_XFER_CONFIRM from that pool:
the record is PARKED there. PARK_CLAIM naming the record's pool: OK is sent and the record stays. PARK_RESTORE_TIMEOUT
while restoring, with a retained prompt: the record is gone and the sequence is prefilled anew. -/
def Obligations.ParkingKeepsOneOwner : Prop :=
  (∀ (p : PortId) (s : State) (f : Frame) (r : ParkRec),
    let m := parkMsgOf f
    (parkIn s p.val 2 f r → r.st = .parking → r.pool = m.src → r.epoch = m.epoch → m.result = 0 →
      let r' := { r with handle := m.handle, addr := m.addr }
      let s1 := { popped s p.val f with gfe := { s.gfe with parks := put s.gfe.parks m.key r' } }
      ∀ x q d, parkSeq s1 r' = some (x, q) → parkData s1 x q = some d → d ≠ [] → (s1.port r.port).st = .up →
      gives (.parkGrant p) s (fun t => look t.gfe.parks m.key = some r' ∧ ∃ o, look t.talko.ops s.talko.nextOp = some o ∧
        o.owner = .park m.key ∧ o.op = 2 ∧ o.pool = r.pool ∧ o.addr = m.addr ∧ o.epoch = r.epoch ∧ o.len = roundUp d.length 256)) ∧
    (parkIn s p.val 4 f r → r.st = .parking → r.pool = m.src → r.epoch = m.epoch → m.result = 0 →
      gives (.parkCloseAck p) s (fun t => look t.gfe.parks m.key = some { r with st := .parked } ∧
        ∀ x q, s.service? r.svc = some x → look x.seqs r.seq = some q → ∃ x' q', t.service? r.svc = some x' ∧ look x'.seqs r.seq = some q' ∧
          q'.pages = [] ∧ q'.toks = q.toks ∧ q'.slot = if seqRetains s q then q.slot else none)) ∧
    (parkIn s p.val 6 f r → r.st = .restoring → r.pool = m.src → r.epoch = m.epoch → m.result = 0 →
      ∀ x q, parkSeq s r = some (x, q) → q.pages ≠ [] → x.d.pageBytes ≠ 0 → (s.port r.port).st = .up →
      gives (.parkRestoreRsp p) s (fun t => ∃ o, look t.talko.ops s.talko.nextOp = some o ∧ o.owner = .restore m.key ∧ o.op = 1 ∧
        o.pool = r.pool ∧ o.addr = m.addr ∧ o.failed = none)) ∧
    (parkIn s p.val 8 f r → r.st = .parked → r.pool = m.src → r.handle = m.handle →
      gives (.parkXferPropose p) s (fun t =>
        look t.gfe.parks m.key = some { r with st := .transferring, nextPool := m.other, epoch := (r.epoch + 1) % 2 ^ 32 } ∧
        (t.port r.port).queue.length = (s.port r.port).queue.length + 1 ∧
        ∃ fr, (t.port r.port).queue.getLast? = some fr ∧ fr.dst = m.src ∧ fieldAt fr.payload 0 2 = 9)) ∧
    (parkIn s p.val 10 f r → r.st = .transferring → r.nextPool = m.src → r.epoch = m.newEpoch →
      gives (.parkXferConfirm p) s (fun t => look t.gfe.parks m.key = some { r with
        st := .parked
        pool := m.src
        handle := m.handle
        addr := m.addr
        nextPool := 0 })) ∧
    (parkIn s p.val 11 f r → r.pool = m.src ∨ r.pool = m.other →
      gives (.parkClaim p) s (fun t => t.gfe = s.gfe ∧
        ∃ fr, (t.port r.port).queue.getLast? = some fr ∧ fr.dst = m.src ∧ fieldAt fr.payload 0 2 = 12 ∧ fieldAt fr.payload 24 4 = r.epoch % 2 ^ 32))) ∧
  (∀ (key : W64) (s : State) (r : ParkRec) (x : Service) (q : Seq), look s.gfe.parks key.toNat = some r → r.st = .restoring → s.ready = [] →
    parkSeq s r = some (x, q) → seqRetains s q = true →
    gives (.parkRestoreTimeout key) s (fun t => look t.gfe.parks key.toNat = none ∧ ∃ x' q', t.service? r.svc = some x' ∧
      look x'.seqs r.seq = some q' ∧ q'.st = .prefill ∧ q'.prefilled = 0 ∧ q'.pages = [] ∧ q'.toks = q.toks))

namespace Sys2Proof.Claims

/-- A request that a transport brings to the row of a command, served and past the checks of the dictionary. -/
def duAsked (s s0 : State) (src : DSrc) (row : Nat) (q : DReq) : Prop :=
  (∃ m, takeMsg s src = (s0, some m) ∧ q = parseReq src m) ∧ rowOf q = row ∧ duServed s src = true ∧ keptRsp s0 q = none ∧
    ∃ o, preCheck s0 q = .ok (some o)
def compAsked (s s0 : State) (src : DSrc) (op : Nat) (used : List (Nat × Nat)) (q : DReq) : Prop :=
  duAsked s s0 src (0x200001 * 256 + op) q ∧ unusedZero q.data used = true ∧ s0.net.unroutable = false
/-- The state once an operation's result is answered with OK. -/
def okAnswer (s s1 : State) (src : DSrc) (q : DReq) (data : List Byte) : State :=
  { respond (keepRsp s1 q (rspBytes q duOk data)) src (rspBytes q duOk data) with pending := s.pending }
/-- Lane members are working core groups of the VD, unshared and in no other lane. -/
def laneFits (s : State) (v lane cgs : Nat) : Prop :=
  if cgs = 0 then has (s.vd v).lanes lane = true ∧ ∀ q ∈ s.gfe.qps, q.2.fn = v → q.2.lane ≠ lane ∧ q.2.laneNext ≠ some lane
  else (bitsOf 48 cgs).length ≤ 8 ∧ ∀ g ∈ bitsOf 48 cgs, g ∈ s.vdWorking v ∧ s.cgShared g = false ∧ ∀ l, s.cgLane v g = some l → l = lane
def laneReq (lane cgs : Nat) : OpenReq := { op := 8, lane := lane, cgs := BitVec.ofNat 48 cgs }

end Sys2Proof.Claims

open Sys2Proof.Claims in
/-- Composition requests carve, release and share slices and set lanes, and are answered with their status. For a served
request of the composition object that passes the checks of the dictionary, with the fields its operation does not use
zero and the network routable; each answers OK. CREATE_SLICE of free units: the lowest free slice number holds them,
CARVED, no other slice and nothing but the pool and the answer changes. DESTROY_SLICE of a CARVED or MARKED slice that
no request names: it is gone, or with pairs it is RELEASING and they fill. SET_SHARE of a CARVED shared slice puts its
group in force; of a SHARED one whose holder is not at a boundary, the group waits. SET_LANE with the VD at a boundary
sets or drops the lane, else it waits. SET_QP_LANE binds the queue pair, at the next boundary where a step runs.
QUANTUM_EXPIRY marks a SHARED slice and nothing else. -/
def Obligations.SlicesSharesAndLanes : Prop :=
  (∀ (src : DSrc) (s s0 : State) (q : DReq),
    let b := q.data
    (compAsked s s0 src 1 [(1, 1), (8, 8), (16, 8), (24, 4)] q →
      ∀ k, fieldAt b 1 1 ≤ 1 → fieldAt b 8 8 < 2 ^ 48 → fieldAt b 24 4 < 2 ^ 24 → ¬(fieldAt b 8 8 = 0 ∧ fieldAt b 16 8 = 0 ∧ fieldAt b 24 4 = 0) →
      (fieldAt b 1 1 = 1 → fieldAt b 16 8 = 0 ∧ fieldAt b 24 4 = 0) → (∀ g ∈ bitsOf 48 (fieldAt b 8 8), cgFree s0 g = true) →
      (∀ p ∈ bitsOf 64 (fieldAt b 16 8), pairFree s0 p = true) → (∀ p ∈ bitsOf 24 (fieldAt b 24 4), portFree s0 p = true) →
      lowestFree s0.pool.slices 0 128 = some k →
      gives (.createSlice src) s (fun t => t = { s with pool := t.pool, dun := t.dun, pcie := t.pcie } ∧
        t = okAnswer s { s0 with pool := { s0.pool with slices := t.pool.slices } } src q (natLe 1 0) ∧
        (∃ x, look t.pool.slices k = some x ∧ x.st = .carved ∧ x.cgs.toNat = fieldAt b 8 8 ∧ x.pairs.toNat = fieldAt b 16 8 ∧
          x.ports.toNat = fieldAt b 24 4 ∧ x.isShared = decide (fieldAt b 1 1 = 1)) ∧
        ∀ j, j ≠ k → look t.pool.slices j = look s.pool.slices j)) ∧
    (compAsked s s0 src 2 [(3, 1)] q → ∀ x, look s0.pool.slices (fieldAt b 3 1) = some x → (x.st = .carved ∨ ∃ v, x.st = .marked v) →
      sliceBusy s0 (fieldAt b 3 1) = false →
      (x.pairs = 0 → gives (.destroySlice src) s (fun t => look t.pool.slices (fieldAt b 3 1) = none ∧
        t = okAnswer s { s0 with pool := t.pool } src q (natLe 1 0))) ∧
      (x.pairs ≠ 0 → gives (.destroySlice src) s (fun t => look t.pool.slices (fieldAt b 3 1) = some { x with st := .releasing } ∧
        t.mem.hbm = s.mem.hbm ∧ ∀ p ∈ bitsOf 64 x.pairs.toNat, (t.pairMem p).filling = true))) ∧
    (compAsked s s0 src 10 [(3, 1), (40, 24)] q →
      let g := (List.range 8).map (fun n => (fieldAt b (40 + 3 * n) 1, fieldAt b (41 + 3 * n) 2))
      let used := g.filter (fun p => p.1 ≠ 0)
      (∀ p ∈ g, if p.1 = 0 then p.2 = 0 else p.1 ≤ 63 ∧ 1 ≤ p.2 ∧ p.2 ≤ 1000 ∧ (s0.vd p.1).live = true ∧ (s0.vd p.1).teardown = false) →
      (used.map (·.1)).Nodup → 2 ≤ used.length →
      ∀ x, fieldAt b 3 1 ≤ 127 → look s0.pool.slices (fieldAt b 3 1) = some x → x.isShared = true →
      (x.st = .carved → gives (.setShare src) s (fun t => ∃ y, look t.pool.slices (fieldAt b 3 1) = some y ∧ y.st = .shared ∧ y.group = used ∧
        y.nextGroup = none ∧ y.holder = 0 ∧ y.cgs = x.cgs)) ∧
      (∀ v n, x.st = .shared → x.group[x.holder]? = some (v, n) → vdQuiet s0 v = false → gives (.setShare src) s (fun t =>
        look t.pool.slices (fieldAt b 3 1) = some { x with nextGroup := some used }))) ∧
    (compAsked s s0 src 8 [(2, 1), (6, 1), (8, 8)] q →
      let v := fieldAt b 2 1
      let lane := fieldAt b 6 1
      let cgs := fieldAt b 8 8
      v ≤ 63 → lane ≤ 15 → cgs < 2 ^ 48 → vdReady s0 v = none → laneFits s0 v lane cgs →
      (vdQuiet s0 v = false → gives (.setLane src) s (fun t =>
        t = okAnswer s (s0.modVd v (fun y => { y with req := some (laneReq lane cgs) })) src q (natLe 1 0))) ∧
      (vdQuiet s0 v = true → s.ready = [] → gives (.setLane src) s (fun t => (t.vd v).req = none ∧ (t.vd v).gen = ((s.vd v).gen + 1) % 2 ^ 32 ∧
        (t.vd v).lanes = if cgs = 0 then del (s.vd v).lanes lane else put (s.vd v).lanes lane (bitsOf 48 cgs)))) ∧
    (compAsked s s0 src 9 [(4, 3)] q →
      let n := fieldAt b 4 2
      let lane := fieldAt b 6 1
      ∀ x, s0.qp? n = some x → (lane = 0xFF ∨ lane ≤ 15 ∧ has (s0.vd x.fn).lanes lane = true) →
      (∀ p ∈ svcQps s0 x.service, p.1 ≠ n → p.2.laneNext.getD p.2.lane = lane) →
      gives (.setQpLane src) s (fun t => t.qp? n = some (if ((s0.service? x.service).map stepRunning).getD false
        then { x with laneNext := some lane } else { x with lane := lane, laneNext := none })))) ∧
  (∀ (k : Fin 128) (s : State) (x : Slice), look s.pool.slices k.val = some x → x.st = .shared →
    gives (.quantumExpiry k) s (fun t => t = { s with pool := { s.pool with slices := t.pool.slices } } ∧
      look t.pool.slices k.val = some { x with quantumOver := true } ∧ ∀ j, j ≠ k.val → look t.pool.slices j = look s.pool.slices j))

namespace Sys2Proof.Claims

/-- An open bind or unbind of a slice. -/
def bindOpen (op k w0 w1 : Nat) (st : ReqStage) : OpenReq :=
  { op := op, slice := k, ways0 := BitVec.ofNat 16 w0, ways1 := BitVec.ofNat 16 w1, stage := st }

end Sys2Proof.Claims

open Sys2Proof.Claims in
/-- CREATE_VD, DESTROY_VD, BIND, UNBIND and ABORT_UNBIND open or end a VD's changes where their conditions hold. For a
request as above, with nothing to settle. CREATE_VD of an absent VD on an enabled VF with a chain region, where
creation finds a tag and key slots: the VD lives in its posture, its tag is neither live nor retired before, and its
chain is open. DESTROY_VD of a live VD with nothing open: it is in teardown and its function resets. BIND of a CARVED
slice, or one MARKED by the VD, unshared and free, to a VD that is ready, within the spare and way rules: the VD's open
request names it and acceptance is held. UNBIND of a bound slice within the class, lane and way rules: with pairs the
memory phase begins and the leaving pairs are shown, without them the compute phase. ABORT_UNBIND before the VD is held
ends the request ABORTED. -/
def Obligations.VirtualDevicesComeAndGo : Prop :=
  (∀ (src : DSrc) (s s0 : State) (q : DReq), s.ready = [] →
    let b := q.data
    let v := fieldAt b 2 1
    let k := fieldAt b 3 1
    let w0 := fieldAt b 28 2
    let w1 := fieldAt b 30 2
    (compAsked s s0 src 3 [(1, 1), (2, 1)] q → ∀ s1, 1 ≤ v → v ≤ 63 → (fieldAt b 1 1 = 0 ∨ fieldAt b 1 1 = 2) → vfOn s0 v = true →
      (s0.vd v).live = false → postureOk s0 (fieldAt b 1 1 = 2) = true → (s0.chain v).sizeLog2 ≠ 0 →
      (fieldAt b 1 1 = 2 → (freePool s0).isSome = true) → canKey s0 = true → createVdNow s0 v (fieldAt b 1 1 = 2) = some s1 →
      gives (.createVd src) s (fun t => t = okAnswer s s1 src q (natLe 1 0) ∧ (t.vd v).live = true ∧
        (t.vd v).posSealed = decide (fieldAt b 1 1 = 2) ∧ (t.vd v).tag.toNat ∉ s.cmp.tagsLive ∧ (t.vd v).tag.toNat ∉ s.cmp.tagsRetired ∧
        (t.vd v).tag.toNat ∈ t.cmp.tagsLive ∧ (t.chain v).opened = true)) ∧
    (compAsked s s0 src 4 [(2, 1)] q → 1 ≤ v → v ≤ 63 → (s0.vd v).live = true → (s0.vd v).teardown = false → (s0.vd v).posture = none →
      (s0.vd v).req = none → gives (.destroyVd src) s (fun t => t = okAnswer s (functionReset (s0.modVd v (fun y => { y with
        teardown := true
        holdAccept := true
        req := some { op := 4, stage := .held } })) v) src q (natLe 1 0) ∧
        (s0.fnCtxs v = [] → (t.vd v).teardown = true ∧ (t.fn v).resetting = true))) ∧
    (compAsked s s0 src 5 [(2, 2), (28, 4)] q → ∀ x, v ≤ 63 → k ≤ 127 → vdReady s0 v = none → look s0.pool.slices k = some x →
      (x.st = .carved ∨ x.st = .marked v) → sliceBusy s0 k = false → x.isShared = false →
      sparesFor (s0.vdCgs v ++ sliceCgs s0 x).length ≤
        ((s0.vdCgs v ++ sliceCgs s0 x).filter (fun g => (s0.cgLane v g).isNone && !s0.cgShared g)).length →
      ¬(classOf (s0.vdCgs v ++ sliceCgs s0 x).length = 3 ∧ unmirrored s0 v = true) →
      waysOk s0 v (s0.vdPairs v ++ bitsOf 64 x.pairs.toNat) w0 w1 = true →
      gives (.bindSlice src) s (fun t => t = okAnswer s (s0.modVd v (fun y => { y with
        holdAccept := true
        req := some (bindOpen 5 k w0 w1 .compute) })) src q (natLe 1 0) ∧ (t.vd v).req = some (bindOpen 5 k w0 w1 .compute) ∧
        t.pool = s.pool)) ∧
    (compAsked s s0 src 6 [(2, 2), (28, 8)] q → ∀ x, v ≤ 63 → k ≤ 127 → 1 ≤ fieldAt b 32 4 → fieldAt b 32 4 ≤ 600000 → vdReady s0 v = none →
      look s0.pool.slices k = some x → x.st = .bound v → unbindClassOk s0 v x = true →
      (∀ g ∈ bitsOf 48 x.cgs.toNat, s0.cgLane v g = none) →
      waysOk s0 v ((s0.vdPairs v).filter (fun p => !pairBit x.pairs p)) w0 w1 = true →
      gives (.unbind src) s (fun t => (t.vd v).req = some (bindOpen 6 k w0 w1 (if x.pairs = 0 then .compute else .memory)) ∧
        (x.pairs ≠ 0 → (t.vd v).leave = x.pairs ∧ (t.vd v).leaving = true) ∧ (x.pairs = 0 → (t.vd v).holdAccept = true) ∧ t.pool = s.pool)) ∧
    (compAsked s s0 src 7 [(2, 1)] q → ∀ r, v ≤ 63 → (s0.vd v).req = some r → r.op = 6 → r.stage ≠ .held →
      gives (.abortUnbind src) s (fun t => (t.vd v).req = none ∧ (t.vd v).lastStatus = coAborted ∧ (t.vd v).held = false ∧ t.pool = s.pool)))

open Sys2Proof.Claims in
/-- Holds, deadlines and releases move a slice in or out, a failed core group is fenced, and meters close.
BIND_HOLD_REACHED with the VD quiet, in no hang sequence, and its seed usable where the slice has pairs: the slice is
bound to the VD. MOVE_DONE in the memory phase on an open function starts the compute phase and takes the vector.
UNBIND_DEADLINE in the memory phase ends the unbind with DEADLINE. UNBIND_HOLD_REACHED in the compute phase with the VD
quiet, in no hang sequence, the class rule still met and no task on a leaving core group: the VD is HELD.
RESIDENT_WAIT_EXPIRY while HELD with such tasks ends it ABORTED. UNBIND_RELEASE with none, and no Lift operation on a
leaving port: the slice is MARKED for the VD, or CARVED without pairs. CG_FAILURE fences a working core group and
changes nothing else of the pool. METER_PERIOD_EXPIRY closes every live VD's window, one number on. -/
def Obligations.CompositionEventsApply : Prop :=
  (∀ (v : VdId) (s : State) (r : OpenReq), (s.vd v.val).req = some r → s.ready = [] →
    (∀ good x, r.op = 5 → look s.pool.slices r.slice = some x → vdQuiet s v.val = true → vdHung s v.val = false →
      (slicePairs s x = [] ∨ (useSlotKey s (seedSlot v.val) good).2 = true ∧ (useSlotKey s (seedSlot v.val) good).1.sec.tableFault = false) →
      gives (.bindHoldReached v good) s (fun t => look t.pool.slices r.slice = some { x with st := .bound v.val } ∧
        (∀ j, j ≠ r.slice → look t.pool.slices j = look s.pool.slices j) ∧ t.pool.cgFenced = s.pool.cgFenced ∧
        t.pool.pairFenced = s.pool.pairFenced)) ∧
    (∀ vec en, r.op = 6 → r.stage = .memory → fnOpen s v.val = true →
      gives (.moveDone v vec en) s (fun t => t = { s with cmp := { s.cmp with vds := t.cmp.vds } } ∧
        (t.vd v.val).req = some { r with stage := .compute } ∧ (t.vd v.val).holdAccept = true ∧ (t.vd v.val).vector = vec.val ∧
        (t.vd v.val).noticeEn = en)) ∧
    (r.op = 6 → r.stage = .memory → gives (.unbindDeadline v) s (fun t => (t.vd v.val).req = none ∧
      (t.vd v.val).lastStatus = coDeadline ∧ (t.vd v.val).leave = 0 ∧ t.pool = s.pool)) ∧
    (∀ x, r.op = 6 → r.stage = .compute → vdQuiet s v.val = true → vdHung s v.val = false → look s.pool.slices r.slice = some x →
      unbindClassOk s v.val x = true → tasksOn s (leavingCgs s v.val) = [] →
      gives (.unbindHoldReached v) s (fun t => (t.vd v.val).req = some { r with stage := .held } ∧ (t.vd v.val).held = true ∧
        ∀ h y, t.service? h = some y → y.d.vd = v.val → y.st = .held)) ∧
    (r.op = 6 → r.stage = .held → tasksOn s (leavingCgs s v.val) ≠ [] →
      gives (.residentWaitExpiry v) s (fun t => (t.vd v.val).req = none ∧ (t.vd v.val).lastStatus = coAborted ∧ (t.vd v.val).held = false)) ∧
    (∀ x, r.op = 6 → r.stage = .held → look s.pool.slices r.slice = some x → tasksOn s (leavingCgs s v.val) = [] →
      (∀ o ∈ s.talko.ops, portBit x.ports o.2.port = false) →
      gives (.unbindRelease v) s (fun t => look t.pool.slices r.slice = some { x with st := if x.pairs = 0 then .carved else .marked v.val } ∧
        ∀ j, j ≠ r.slice → look t.pool.slices j = look s.pool.slices j))) ∧
  (∀ (g : CgId) (lost : List LineId) (s : State), cgBit s.pool.cgFenced g.val = false → cgBit s.pool.cgReady g.val = true →
    gives (.cgFailure g lost) s (fun t => t.pool = { s.pool with cgFenced := s.pool.cgFenced ||| BitVec.ofNat 48 (2 ^ g.val) } ∧
      (s.cgVd g.val = none → ∀ c ∈ cgCores g.val, (t.core c).tq = [] ∧ ∀ e ∈ coreEngs c, (t.eng e).run = none ∧ (t.eng e).queue = []))) ∧
  (∀ s : State, sortedKeys s.cmp.vds = true → s.ready = [] →
    gives .meterPeriodExpiry s (fun t => ∀ v x, look s.cmp.vds v = some x → x.live = true →
      (t.vd v).meter.window = (x.meter.window + 1) % 2 ^ 32 ∧ (t.vd v).meter.s0Begin = s.s0 ∧ (t.vd v).meter.hbmRd = 0 ∧
      (t.vd v).meter.compGen = x.gen))

namespace Sys2Proof.Claims

def fitsRing (x : Shake) (n v : Nat) : Prop := (v + 2 ^ 32 - x.head) % 2 ^ 32 ≤ 2 ^ n
def failedShake (x : Shake) : Shake := { x with st := .error }
/-- A doorbell write that the front end takes. -/
def rung (s : State) (f : FnId) (page : Fin 4096) : Prop :=
  fnOpen s f.val = true ∧ (s.fn f.val).resetting = false ∧ page.val ≠ 0 ∧ ¬(3 ≤ page.val ∧ page.val < 16)
def pageOf (s : State) (f : FnId) (page : Fin 4096) (e : Endpoint) : Prop :=
  rung s f page ∧ (s.vd f.val).live = true ∧ 16 ≤ page.val ∧ look s.gfe.pages (f.val * 4096 + page.val) = some e ∧ epLive s f.val e = true
/-- The page of a ring's producer or consumer index. -/
def ringPage (s : State) (f : FnId) (page : Fin 4096) (cq : Bool) (r : RingRef) : Prop :=
  (r = .admin f.val ∧ rung s f page ∧ (s.vd f.val).live = true ∧ page.val = if cq then 2 else 1) ∨
  (∃ n, r = .cmd n ∧ pageOf s f page (if cq then .ringCq n else .ringSq n))

end Sys2Proof.Claims

open Sys2Proof.Claims in
/-- A doorbell write publishes or returns entries, an overrun puts the endpoint in ERROR, and a stray write counts. For
every write to a doorbell page. Of a closed function it is logged as an Unsupported Request; in a function reset, and
to pages 0 and 3 to 15, it changes nothing. Of a VD that is not live, to an offset other than 0, to an unassigned page
or to one whose context is not LIVE it counts one stray write. A producer write within the capacity moves TAIL, sets
PEND and wakes the endpoint, and changes nothing else; beyond it the endpoint is in ERROR, one overrun is counted and a
ring latches it; in ERROR it changes nothing. The overrun of a work queue ends its task. A consumer write moves the
consumer index; one of a response ring then posts what overflowed. Setting EN of the admin ring with valid fields makes
it live with them and no entry; clearing it removes the ring; fields out of range change nothing. -/
def Obligations.DoorbellsReachEndpoints : Prop :=
  (∀ (f : FnId) (page off : Fin 4096) (v : W32) (s : State),
    let c := Instr.doorbellWrite f page off v
    (fnOpen s f.val = false → gives c s (fun t => t = under s (logUr s f.val))) ∧
    (fnOpen s f.val = true → (s.fn f.val).resetting = true ∨ page.val = 0 ∨ (3 ≤ page.val ∧ page.val < 16) → gives c s (fun t => t = s)) ∧
    (rung s f page → (s.vd f.val).live = false ∨ off.val ≠ 0 ∨ (page.val ≤ 2 ∧ s.ring? (.admin f.val) = none) ∨
        (16 ≤ page.val ∧ ∀ e, look s.gfe.pages (f.val * 4096 + page.val) = some e → epLive s f.val e = false) →
      gives c s (fun t => t = { s with fns := t.fns } ∧ (∀ g, g ≠ f.val → t.fn g = s.fn g) ∧
        t.fn f.val = { s.fn f.val with gfe := { (s.fn f.val).gfe with stray := satAdd 16 (s.fn f.val).gfe.stray 1 } }))) ∧
  (∀ (f : FnId) (page : Fin 4096) (v : W32) (s : State) (r : RingRef) (x : Ring), s.ring? r = some x →
    let c := Instr.doorbellWrite f page 0 v
    (ringPage s f page false r → x.sh.st = .error → gives c s (fun t => t = s)) ∧
    (ringPage s f page false r → x.sh.st ≠ .error → fitsRing x.sh x.sqLog2 v.toNat →
      gives c s (fun t => t = s.setRing r { x with sh := newTail x.sh v.toNat })) ∧
    (ringPage s f page false r → x.sh.st ≠ .error → ¬fitsRing x.sh x.sqLog2 v.toNat →
      gives c s (fun t => t.ring? r = some { x with sh := failedShake x.sh } ∧ (t.fn x.fn).gfe.overrun = true ∧
        (t.fn x.fn).gfe.overruns = satAdd 16 (s.fn x.fn).gfe.overruns 1 ∧
        t = { s with gfe := t.gfe, fns := t.fns, pcie := t.pcie } ∧ t.mem = s.mem)) ∧
    (ringPage s f page true r → gives c s (fun t => t = s.setRing r { x with cqCons := consOf x.cqProd v.toNat }))) ∧
  (∀ (f : FnId) (page : Fin 4096) (v : W32) (s : State),
    let c := Instr.doorbellWrite f page 0 v
    (∀ q x, pageOf s f page (.qpReq q) → s.qp? q = some x → x.sh.st ≠ .error →
      (fitsRing x.sh x.reqLog2 v.toNat → gives c s (fun t => t = s.setQp q { x with sh := newTail x.sh v.toNat })) ∧
      (¬fitsRing x.sh x.reqLog2 v.toNat → gives c s (fun t => t.qp? q = some { x with sh := failedShake x.sh } ∧
        (t.fn f.val).gfe.overruns = satAdd 16 (s.fn f.val).gfe.overruns 1))) ∧
    (∀ q x, pageOf s f page (.qpRsp q) → s.qp? q = some x →
      gives c s (fun t => t = under s (drainRsp 65536 (s.modQp q (fun y => { y with rspCons := consOf y.rspProd v.toNat })) q) ∧
        (x.overflow = [] → t = { s with gfe := { s.gfe with qps := t.gfe.qps } } ∧
          t.qp? q = some { x with rspCons := consOf x.rspProd v.toNat }))) ∧
    (∀ q x, pageOf s f page (.liftq q) → s.liftq? q = some x → x.sh.st ≠ .error →
      (fitsRing x.sh x.log2 v.toNat → gives c s (fun t => t = s.setLiftq q { x with sh := newTail x.sh v.toNat })) ∧
      (¬fitsRing x.sh x.log2 v.toNat → gives c s (fun t => t.liftq? q = some { x with sh := failedShake x.sh } ∧
        (t.fn f.val).gfe.overruns = satAdd 16 (s.fn f.val).gfe.overruns 1))) ∧
    (∀ w x, pageOf s f page (.wq w) → s.wq? w = some x → x.sh.st ≠ .error →
      (fitsRing x.sh x.log2 v.toNat → gives c s (fun t => t = s.setWq w { x with sh := newTail x.sh v.toNat })) ∧
      (¬fitsRing x.sh x.log2 v.toNat → gives c s (fun t => (t.fn x.fn).gfe.overruns = satAdd 16 (s.fn x.fn).gfe.overruns 1) ∧
        ∀ k, x.task = some k → gives c s (fun t => look t.gfe.tasks k = none))) ∧
    (∀ q x, pageOf s f page (.qpReq q) → s.qp? q = some x → x.sh.st = .error → gives c s (fun t => t = s)) ∧
    (∀ q x, pageOf s f page (.liftq q) → s.liftq? q = some x → x.sh.st = .error → gives c s (fun t => t = s)) ∧
    (∀ w x, pageOf s f page (.wq w) → s.wq? w = some x → x.sh.st = .error → gives c s (fun t => t = s))) ∧
  (∀ (f : FnId) (sq cq : Fin 16) (vec : Fin 2048) (s : State), fnOpen s f.val = true →
    let ok : Prop := 6 ≤ sq.val ∧ sq.val ≤ 12 ∧ 6 ≤ cq.val ∧ cq.val ≤ 12 ∧ vec.val ≤ vectorMax f.val
    (ok → (s.fn f.val).gfe.en = false → gives (.adminRingEnable f sq cq vec) s (fun t => (t.fn f.val).gfe.en = true ∧
      t.ring? (.admin f.val) = some { fn := f.val, sqLog2 := sq.val, cqLog2 := cq.val, prio := 3, vector := vec.val, sqBase := (s.fn f.val).gfe.sqBase, cqBase := (s.fn f.val).gfe.cqBase } ∧
      t = { s with gfe := t.gfe, fns := t.fns })) ∧
    (ok → (s.fn f.val).gfe.en = true → gives (.adminRingDisable f sq cq vec) s (fun t => (t.fn f.val).gfe.en = false ∧
      t.ring? (.admin f.val) = none)) ∧
    (¬ok → gives (.adminRingEnable f sq cq vec) s (fun t => t = s) ∧ gives (.adminRingDisable f sq cq vec) s (fun t => t = s)))

namespace Sys2Proof.Claims

def fired (s : State) (x : Ring) (c : Cqe) : State :=
  match c.signal with
  | some (n, v) => signalFence s x.fn n v c.err
  | none => s
def cqRoom (x : Ring) : Prop := x.cqProd - x.cqCons < 2 ^ x.cqLog2

end Sys2Proof.Claims

open Sys2Proof.Claims in
/-- A ring's entry is fetched in order, an aged ring has priority 3, and a completion is written before its fence. For an
open ring with an entry published and readable, RING_FETCH_COMPLETE appends its 64 bytes to the fetched packets and
advances HEAD, and changes nothing else; an unreadable one puts the ring in ERROR and latches the fetch fault.
RING_AGING_PROMOTE of a ring with a packet gives it priority 3. COMPLETION_POST takes the oldest waiting completion:
one that posts no entry only signals its fence; one that posts waits while the completion ring is full, else writes its
32 bytes with the phase at the producer slot, moves the producer index, signals its fence and raises the ring's vector;
a slot of a command ring that cannot be written puts the ring in ERROR with the completion fault and its fence is
signalled. -/
def Obligations.RingsFetchPromoteAndPost : Prop :=
  ∀ (r : RingId) (x : Ring) (s : State), s.ring? (refOf r) = some x →
    (∀ b, ringOpen s (refOf r) x = true → x.sh.head ≠ x.sh.tail → readEntry s (refOf r) x x.sh.head = some b →
      gives (.ringFetchComplete r) s (fun t => t = s.setRing (refOf r) { x with fetched := x.fetched ++ [b], sh := newHead x.sh ((x.sh.head + 1) % 2 ^ 32) })) ∧
    (ringOpen s (refOf r) x = true → x.sh.head ≠ x.sh.tail → readEntry s (refOf r) x x.sh.head = none →
      gives (.ringFetchComplete r) s (fun t => t.ring? (refOf r) = some { x with sh := failedShake x.sh } ∧ (t.fn x.fn).gfe.fetchFault = true)) ∧
    (x.fetched ≠ [] → gives (.ringAgingPromote r) s (fun t => t = s.setRing (refOf r) { x with boosted := true } ∧
      ∃ y, t.ring? (refOf r) = some y ∧ effPrio (refOf r) y = 3)) ∧
    (∀ c rest, x.waiting = c :: rest → c.post = false → gives (.completionPost r) s (fun t =>
      t = under s (fired (s.setRing (refOf r) { x with waiting := rest }) x c))) ∧
    (∀ c rest, x.waiting = c :: rest → c.post = true → ¬cqRoom x → gives (.completionPost r) s (fun t => t = s)) ∧
    (∀ c rest f, r = .admin f → x.waiting = c :: rest → c.post = true → cqRoom x → gives (.completionPost r) s (fun t =>
      t = under s (raiseVector (fired ((writeHost s f.val (x.cqBase + 32 * (x.cqProd % 2 ^ x.cqLog2)) (cqeBytes c (phaseOf x.cqProd x.cqLog2))).setRing
        (.admin f.val) { x with waiting := rest, cqProd := x.cqProd + 1 }) x c) x.fn x.vector) ∧
      t.ring? (refOf r) = some { x with waiting := rest, cqProd := x.cqProd + 1 })) ∧
    (∀ c rest n, r = .cmd n → x.waiting = c :: rest → c.post = true → cqRoom x →
      let wr := writeVa s x.fn x.ctx (x.cqBase + 32 * (x.cqProd % 2 ^ x.cqLog2)) (cqeBytes c (phaseOf x.cqProd x.cqLog2))
      (∀ s1, wr = .ok s1 → gives (.completionPost r) s (fun t =>
        t = under s (raiseVector (fired (s1.setRing (.cmd n) { x with waiting := rest, cqProd := x.cqProd + 1 }) x c) x.fn x.vector))) ∧
      (∀ e, wr = .error e → gives (.completionPost r) s (fun t =>
        t.ring? (refOf r) = some { x with sh := failedShake x.sh, waiting := rest } ∧ (t.fn x.fn).gfe.cqFault = true)))

namespace Sys2Proof.Claims

/-- The command that runs a packet of an opcode; an opcode of neither table is the no-operation's. -/
def packetOf (op : Nat) (r : RingId) : Instr :=
  match op with
  | 1 => .launchRoutine r | 2 => .launchKernel r | 3 => .transfer r | 4 => .patch r | 5 => .phaseHint r | 6 => .moveList r
  | 0x80 => .createContext r | 0x81 => .destroyContext r | 0x82 => .createRing r | 0x83 => .destroyRing r | 0x84 => .registerRoutine r
  | 0x85 => .newGeneration r | 0x86 => .retireRoutine r | 0x87 => .registerProgram r | 0x88 => .releaseProgram r
  | 0x89 => .startResident r | 0x8A => .stopResident r | 0x8B => .createWq r | 0x8C => .destroyWq r | 0x8D => .registerService r
  | 0x8E => .deregisterService r | 0x8F => .createQp r | 0x90 => .destroyQp r | 0x91 => .createLiftq r | 0x92 => .destroyLiftq r
  | 0x93 => .setNumerics r | 0x94 => .memobjCreate r | 0x95 => .memobjDrop r
  | _ => .nop r
/-- The packet `b` is next on an open ring; taking it leaves `s1` and gives `p`. -/
def headPkt (s : State) (r : RingId) (x : Ring) (b : List Byte) (s1 : State) (p : PktRef) : Prop :=
  ∃ rest, s.ring? (refOf r) = some x ∧ x.fetched = b :: rest ∧ ringOpen s (refOf r) x = true ∧ takePkt s (refOf r) x b rest = (s1, p)
/-- A packet ends with a status: its completion is queued behind those that wait. -/
def pktEnds (c : Instr) (s : State) (r : RingId) (x : Ring) (s2 : State) (p : PktRef) (st res det : Nat) (e : Option ErrRec) : Prop :=
  gives c s (fun t => t = under s (finishPkt s2 p x.fn st res det 0 e) ∧
    ∃ y, t.ring? (refOf r) = some y ∧ y.waiting = x.waiting ++ [cqeOf p st res det 0 e])

end Sys2Proof.Claims

open Sys2Proof.Claims in
/-- Every packet is checked before it waits or runs, and each outcome is its status. For the command of any opcode with its
packet next on an open ring. A packet of the other kind of ring ends NOT_HERE; one whose header has a bad field, or an
opcode of neither table, ends FIELD with that offset as DETAIL, its cause and, where it names no fence it may signal,
no signal: each takes the packet off the ring and queues its completion behind those that wait. A NOP whose fields are
good and whose awaited fence has the error value ends DEP_ERROR; while its fence is below the awaited value the ring
notes the fence and nothing else changes; while another condition of acceptance is not met, or a ring of higher
priority has a packet ready, nothing changes; else it ends OK. -/
def Obligations.PacketChecksComeFirst : Prop :=
  ∀ (r : RingId) (x : Ring) (b : List Byte) (s s1 : State) (p : PktRef), headPkt s r x b s1 p →
    let c := packetOf (pktOp b) r
    let q := if fenceAllowed s (refOf r) x (fieldAt b 4 2) then p else { p with signal := none }
    let f := fieldAt b 2 2
    (wrongRing (refOf r) (pktOp b) = true → pktEnds c s r x s1 p stNotHere 0 0 (some (fieldErr p 0))) ∧
    (∀ o, wrongRing (refOf r) (pktOp b) = false → headBad s (refOf r) x b = some o →
      pktEnds c s r x s1 q stField 0 o (some (fieldErr q o))) ∧
    (∀ n, r = .cmd n → pktOp b = 0 → headBad s (refOf r) x b = none → resZero b 32 32 = true →
      (pktFlag b 0 = true → pktFlag b 4 = false → (s.fence x.fn f).value.toNat = errValue →
        pktEnds c s r x s1 p stDepError 0 0 (some (depErr p b))) ∧
      (pktFlag b 0 = true → (s.fence x.fn f).value.toNat < fieldAt b 8 8 → gives c s (fun t =>
        t = s.setRing (refOf r) { x with waitFence := some f })) ∧
      (pktFlag b 0 = false ∨ fieldAt b 8 8 ≤ (s.fence x.fn f).value.toNat ∧ (pktFlag b 4 = true ∨ (s.fence x.fn f).value.toNat ≠ errValue) →
        (pktReady s (refOf r) x b = false ∨ outranked s (effPrio (refOf r) x) = true → gives c s (fun t => t = s)) ∧
        (pktReady s (refOf r) x b = true → outranked s (effPrio (refOf r) x) = false → pktEnds c s r x s1 p stOk 0 0 none)))

namespace Sys2Proof.Claims

/-- The packet is next, its header is good, and every condition of acceptance holds. -/
def accepts (s : State) (r : RingId) (x : Ring) (b : List Byte) (s1 : State) (p : PktRef) : Prop :=
  headPkt s r x b s1 p ∧ wrongRing (refOf r) (pktOp b) = false ∧ headBad s (refOf r) x b = none ∧
    (∀ f, r = .admin f → (s.vd x.fn).live = true) ∧
    (pktFlag b 0 = true → pktFlag b 4 = true ∨ (s.fence x.fn (fieldAt b 2 2)).value.toNat ≠ errValue) ∧
    pktReady s (refOf r) x b = true ∧ outranked s (effPrio (refOf r) x) = false
def ringNumber (r : RingId) : Option Nat :=
  match r with
  | .cmd n => some n.val
  | .admin _ => none
/-- The launch of an accepted packet on the VD's cores. -/
def launchBy (x : Ring) (r : RingId) (p : PktRef) (cores : List Nat) (l : Launch) : Launch :=
  { l with fn := x.fn, ctx := x.ctx, vd := x.fn, owner := some p, cores := cores, ring := ringNumber r }

end Sys2Proof.Claims

open Sys2Proof.Claims in
/-- An accepted work packet starts its launch, transfer or move list, patches its page or passes its hint. For a packet
that is next, passes its checks and is accepted. LAUNCH_ROUTINE of a live routine that may launch with parameters and
page readable starts a launch of its current generation on the VD's cores with the parameters placed in a copy of the
page; of no routine it ends NO_OBJECT. LAUNCH_KERNEL of a program of the function starts a launch of one PROGRAM node.
TRANSFER of a readable descriptor with good fields that exposes nothing and has a list slot where it needs one is in
progress for the packet. PATCH ends OK with the inline bytes, or those it points to, written into the current page.
PHASE_HINT ends OK with the hint passed to the power controller; with fewer than four pending and its start ahead it
joins the pending hints. MOVE_LIST of a readable list of good entries is in progress with every result zero. -/
def Obligations.WorkPacketsRun : Prop :=
  ∀ (r : RingId) (x : Ring) (b : List Byte) (s s1 : State) (p : PktRef), accepts s r x b s1 p →
    let cores := launchCores s x.fn
    let f := ctxFigures s x.fn x.ctx
    (pktOp b = 1 → fieldAt b 36 2 % 8 = 0 → fieldAt b 36 2 + fieldAt b 38 2 ≤ 4096 → fieldAt b 40 8 < 2 ^ 55 → resZero b 48 8 = true →
      (curGen s x.fn (fieldAt b 32 4) = none → pktEnds (.launchRoutine r) s r x s1 p stNoObject 0 0 (some (fieldErr p 0))) ∧
      (∀ g par page slots, curGen s1 x.fn (fieldAt b 32 4) = some g → launchOk s1 x.fn g.nodes g.relays f false = true →
        readParam s1 x.fn x.ctx (fieldAt b 40 8) (fieldAt b 38 2) = .ok par → readPage s1 x.fn g = .ok page → freeSlots s1 cores = some slots →
        gives (.launchRoutine r) s (fun t => t = under s (acceptLaunch s1 (launchBy x r p cores { routine := fieldAt b 32 4, gen := g.gen, nodes := g.nodes, relays := g.relays, programs := g.programs, budget := g.budget, figures := f, seed := fieldAt b 56 8, cb := pokeB page (fieldAt b 36 2) par }) slots).1))) ∧
    (pktOp b = 2 → 1 ≤ fieldAt b 36 4 → fieldAt b 40 8 < 2 ^ 55 → fieldAt b 48 2 ≤ 4096 → 1 ≤ fieldAt b 50 2 → resZero b 52 4 = true →
      ∀ g par slots, look s.gfe.programs (fieldAt b 32 4) = some g → g.fn = x.fn →
        readParam s1 x.fn x.ctx (fieldAt b 40 8) (fieldAt b 48 2) = .ok par → freeSlots s1 cores = some slots →
        gives (.launchKernel r) s (fun t => t = under s (acceptLaunch s1 (launchBy x r p cores { nodes := [{ kind := 2, elems := fieldAt b 36 4, tileElems := fieldAt b 50 2 }], programs := [fieldAt b 32 4], budget := 0, figures := f, seed := fieldAt b 56 8, cb := sliceB par 0 4096 }) slots).1)) ∧
    (pktOp b = 3 → fieldAt b 32 8 % 128 = 0 → fieldAt b 32 8 < 2 ^ 55 → resZero b 40 24 = true →
      ∀ bs s3, readDesc s1 x.fn x.ctx (fieldAt b 32 8) = .ok bs → descBad bs = none →
        let id := s1.xlt.nextDesc
        let s2 := translateChunk { s1 with xlt := { s1.xlt with descs := put s1.xlt.descs id (descOf bs x.fn x.ctx (fieldAt b 32 8) (.packet p)), nextDesc := id + 1 } } id
        (∀ d, s2.desc? id = some d → exposes s2 d = false) → takeExtSlot s2 id = some s3 →
        gives (.transfer r) s (fun t => t = under s (writeBlock s3 id) ∧ ∃ d, t.desc? id = some d ∧ d.owner = .packet p ∧ d.fn = x.fn ∧
          d.ctx = x.ctx ∧ d.va = fieldAt b 32 8 ∧ d.pos = 0)) ∧
    (pktOp b = 4 → resZero b 56 8 = true → ∀ g, curGen s1 x.fn (fieldAt b 32 4) = some g →
      (g.service = true → 64 ≤ fieldAt b 36 2) →
      (∀ s2, fieldAt b 38 1 = 0 → 1 ≤ fieldAt b 39 1 → fieldAt b 39 1 ≤ 16 → fieldAt b 36 2 + fieldAt b 39 1 ≤ 4096 →
        writePage s1 x.fn g (fieldAt b 36 2) (sliceB b 40 (fieldAt b 39 1)) = .ok s2 → pktEnds (.patch r) s r x s2 p stOk 0 0 none) ∧
      (∀ bs s2, fieldAt b 38 1 = 1 → fieldAt b 39 1 = 0 → fieldAt b 40 8 < 2 ^ 55 → 1 ≤ fieldAt b 48 2 → fieldAt b 48 2 ≤ 4096 →
        resZero b 50 6 = true → fieldAt b 36 2 + fieldAt b 48 2 ≤ 4096 → readParam s1 x.fn x.ctx (fieldAt b 40 8) (fieldAt b 48 2) = .ok bs →
        writePage s1 x.fn g (fieldAt b 36 2) bs = .ok s2 → pktEnds (.patch r) s r x s2 p stOk 0 0 none)) ∧
    (pktOp b = 5 → 1 ≤ fieldAt b 32 1 → fieldAt b 32 1 ≤ 4 → resZero b 34 2 = true → fieldAt b 36 4 ≤ 100000 → 1 ≤ fieldAt b 40 4 →
      fieldAt b 40 4 ≤ 10000000 → resZero b 44 20 = true →
      let h : Hint := { vd := x.fn, phase := fieldAt b 32 1, level := fieldAt b 33 1, start := s.s0 + 800 * fieldAt b 36 4, stop := s.s0 + 800 * (fieldAt b 36 4 + fieldAt b 40 4) }
      pktEnds (.phaseHint r) s r x (addHint s1 h) p stOk 0 0 none ∧
      ((s.hints.filter (fun y => y.vd = x.fn && !y.active)).length < 4 → 0 < fieldAt b 36 4 → gives (.phaseHint r) s (fun t => t.hints = s.hints ++ [h]))) ∧
    (pktOp b = 6 → fieldAt b 32 8 % 32 = 0 → fieldAt b 32 8 < 2 ^ 55 → 1 ≤ fieldAt b 40 4 → fieldAt b 40 4 ≤ 65536 → resZero b 44 20 = true →
      ∀ ps bs, let n := fieldAt b 40 4
        let es := (List.range n).map (fun k => sliceB bs (32 * k) 32)
        rangeOf s1 x.fn x.ctx false (fieldAt b 32 8) (32 * n) = .ok ps → readPieces s1 x.fn ps = (bs, none) → es.all moveEntryOk = true →
        gives (.moveList r) s (fun t => t.xlt.nextMove = s.xlt.nextMove + 1 ∧ look t.xlt.moves s.xlt.nextMove = some { pkt := p, fn := x.fn, ctx := x.ctx, va := fieldAt b 32 8, entries := es, results := List.replicate n 0 } ∧
          t = under s { s1 with xlt := t.xlt }))

namespace Sys2Proof.Claims

/-- The packet ends OK with a result, and the next state has a property. -/
def okWith (c : Instr) (s : State) (r : RingId) (x : Ring) (p : PktRef) (res : Nat) (P : State → Prop) : Prop :=
  gives c s (fun t => (∃ y, t.ring? (refOf r) = some y ∧ y.waiting = x.waiting ++ [cqeOf p stOk res 0 0 none]) ∧ P t)
def noObjectEnds (c : Instr) (s : State) (r : RingId) (x : Ring) (s1 : State) (p : PktRef) : Prop :=
  pktEnds c s r x s1 p stNoObject 0 0 (some (fieldErr p 0))
/-- A range that a store takes whole and an image in it that parses. -/
def storeOk (s : State) (fn ctx store len : Nat) : Prop := ∃ ps, storeRange s fn ctx store len = .ok ps
/-- The chain takes a record at once. -/
def chainTakes (s : State) (v : Nat) : Prop :=
  (s.chain v).opened = true ∧ (s.chain v).closed = false ∧ (s.chain v).held = [] ∧ slotTaken (s.chain v) 0 = false

end Sys2Proof.Claims

open Sys2Proof.Claims in
/-- Admin packets create and destroy contexts and rings and register routines and programs. For an accepted packet of an
admin ring with nothing of an earlier append left to release. CREATE_CONTEXT of a good descriptor makes the lowest free
context number LIVE with the descriptor's fields and its fences cleared, and where the chain takes the record its
completion carries the record's SEQ. DESTROY_CONTEXT of a LIVE context leaves it draining with the packet held;
SET_NUMERICS changes its figures flag. CREATE_RING gives the lowest free number with two pages; DESTROY_RING removes
the ring. REGISTER_ROUTINE of a good image installs generation 0 under the lowest free handle and joins the load list;
NEW_GENERATION installs the next, the old one kept while a launch runs it; RETIRE_ROUTINE leaves no current generation.
REGISTER_PROGRAM installs the program, RELEASE_PROGRAM of one that nothing names removes it. On no such object each
ends NO_OBJECT. -/
def Obligations.ContextsRingsAndRoutines : Prop :=
  ∀ (r : RingId) (x : Ring) (b : List Byte) (s s1 : State) (p : PktRef), accepts s r x b s1 p → s.ready = [] →
    let fn := x.fn
    let h := fieldAt b 32 4
    let n := fieldAt b 32 2
    (pktOp b = 0x80 → resZero b 40 24 = true → ∀ c,
      let d := readHost s1 (fieldAt b 32 8) 64
      ctxBad s1 fn d = none → (List.range 4096).find? (fun k => (s1.ctx? fn k).isNone) = some c → s.obj.ctxs.length < 16384 →
      gives (.createContext r) s (fun t => (∃ k, t.ctx? fn c = some k ∧ k.st = .live ∧ k.root = fieldAt d 0 8 ∧ k.mirror = sgn (fieldAt d 8 8) 64 ∧
        k.extPool = fieldAt d 16 8 ∧ k.extSlots = fieldAt d 24 2 ∧ k.hostEn = (fieldAt d 26 1).testBit 0 ∧ k.priEn = (fieldAt d 26 1).testBit 1 ∧
        k.acEn = (fieldAt d 26 1).testBit 2 ∧ k.fenceFirst = fieldAt d 32 4 ∧ k.fenceCount = fieldAt d 36 4 ∧
        k.figures = decide (fieldAt d 40 1 = 1) ∧ k.ptag = fieldAt d 44 4 ∧ k.epoch = 0 ∧ k.destroyPkt = none) ∧
        (∀ f, f < fieldAt d 36 4 → t.fence fn (fieldAt d 32 4 + f) = {}) ∧ (∀ k, k ≠ c → t.ctx? fn k = s.ctx? fn k) ∧
        (chainTakes s fn → (t.chain fn).seq = (s.chain fn).seq + 1 ∧
          ∃ y, t.ring? (refOf r) = some y ∧ y.waiting = x.waiting ++ [{ cqeOf p stOk c 0 0 none with amberSeq := (s.chain fn).seq }]))) ∧
    (pktOp b = 0x81 → resZero b 34 30 = true →
      (ctxLive s fn n = true → gives (.destroyContext r) s (fun t => t = under s (beginAbort s1 fn n (some p)) ∧
        ∃ k, t.ctx? fn n = some k ∧ k.st = .draining ∧ k.destroyPkt = some p)) ∧
      (ctxLive s fn n = false → noObjectEnds (.destroyContext r) s r x s1 p)) ∧
    (pktOp b = 0x93 → fieldAt b 34 1 ≤ 1 → resZero b 35 29 = true →
      (∀ k, s.ctx? fn n = some k → k.st = .live → okWith (.setNumerics r) s r x p 0 (fun t =>
        t.ctx? fn n = some { k with figures := decide (fieldAt b 34 1 = 1) } ∧ t = { s with gfe := t.gfe, obj := t.obj } ∧
        ∀ m, m ≠ n → t.ctx? fn m = s.ctx? fn m)) ∧
      (ctxLive s fn n = false → noObjectEnds (.setNumerics r) s r x s1 p)) ∧
    (pktOp b = 0x82 → 6 ≤ fieldAt b 34 1 → fieldAt b 34 1 ≤ 16 → 6 ≤ fieldAt b 35 1 → fieldAt b 35 1 ≤ 16 → fieldAt b 36 1 ≤ 3 →
      resZero b 37 1 = true → fieldAt b 38 2 ≤ vectorMax fn → vaOk (fieldAt b 40 8) 4096 = true → vaOk (fieldAt b 48 8) 4096 = true →
      vaOk (fieldAt b 56 8) 65536 = true →
      (∀ m sp cp s2 s3, ctxLive s fn n = true → (List.range 4096).find? (fun k => !has s1.gfe.rings k && !ringBusy s1 k) = some m →
        takePage s1 fn (.ringSq m) = some (sp, s2) → takePage s2 fn (.ringCq m) = some (cp, s3) →
        okWith (.createRing r) s r x p (m + sp * 65536 + cp * 2 ^ 32) (fun t =>
          t.ring? (.cmd m) = some { fn := fn, ctx := n, sqLog2 := fieldAt b 34 1, cqLog2 := fieldAt b 35 1, prio := fieldAt b 36 1, vector := fieldAt b 38 2, sqBase := fieldAt b 40 8, cqBase := fieldAt b 48 8, report := fieldAt b 56 8, sqPage := sp, cqPage := cp } ∧
          look t.gfe.pages (fn * 4096 + sp) = some (.ringSq m) ∧ look t.gfe.pages (fn * 4096 + cp) = some (.ringCq m) ∧
          t = { s with gfe := t.gfe })) ∧
      (ctxLive s fn n = false → noObjectEnds (.createRing r) s r x s1 p)) ∧
    (pktOp b = 0x83 → resZero b 34 30 = true → (∀ q, look s.gfe.rings n = some q → q.fn = fn → ctxLive s fn q.ctx = true →
        okWith (.destroyRing r) s r x p 0 (fun t => t.ring? (.cmd n) = none ∧ ∀ k, k ≠ n → t.ring? (.cmd k) = s.ring? (.cmd k))) ∧
      (look s.gfe.rings n = none → noObjectEnds (.destroyRing r) s r x s1 p)) ∧
    (pktOp b = 0x84 → resZero b 42 2 = true → resZero b 56 8 = true →
      let ctx := fieldAt b 40 2
      let img := readHost s1 (fieldAt b 32 8) (fieldAt b 44 4)
      (∀ m k, ctxLive s fn ctx = true → fieldAt b 44 4 ≤ 2 ^ 20 → storeOk s1 fn ctx (fieldAt b 48 8) (fieldAt b 44 4) →
        parseRoutine img (progLive s1 fn) = .ok m → lowestFree s.gfe.routines 1 (2 ^ 32 - 1) = some k →
        gives (.registerRoutine r) s (fun t => look t.gfe.routines k = some { fn := fn, cur := some (genOf m 0 ctx (fieldAt b 48 8) (fieldAt b 44 4)) } ∧
          (t.chain fn).loads.length = (s.chain fn).loads.length + 1)) ∧
      (ctxLive s fn ctx = false → noObjectEnds (.registerRoutine r) s r x s1 p)) ∧
    (pktOp b = 0x85 → fieldAt b 56 1 < 2 → resZero b 57 7 = true →
      let k := fieldAt b 40 4
      let img := readHost s1 (fieldAt b 32 8) (fieldAt b 44 4)
      (∀ g q m, curGen s fn k = some g → look s.gfe.routines k = some q → q.old = none → ctxLive s fn g.ctx = true →
        ((fieldAt b 56 1).testBit 0 = true → ∃ pg, readPage s1 fn g = .ok pg) → fieldAt b 44 4 ≤ 2 ^ 20 →
        storeOk s1 fn g.ctx (fieldAt b 48 8) (fieldAt b 44 4) → parseRoutine img (progLive s1 fn) = .ok m →
        gives (.newGeneration r) s (fun t => look t.gfe.routines k = some { q with
          cur := some (genOf m (q.nextGen % 65536) g.ctx (fieldAt b 48 8) (fieldAt b 44 4))
          old := if s.gfe.launches.any (fun l => l.2.routine = k && l.2.gen = g.gen) then some g else none
          nextGen := q.nextGen % 65536 + 1 })) ∧
      (curGen s fn k = none → noObjectEnds (.newGeneration r) s r x s1 p)) ∧
    (pktOp b = 0x86 → resZero b 36 28 = true → (∀ g, curGen s fn h = some g → okWith (.retireRoutine r) s r x p 0 (fun t =>
        curGen t fn h = none ∧ t = { s with gfe := t.gfe } ∧ ∀ k, k ≠ h → look t.gfe.routines k = look s.gfe.routines k)) ∧
      (curGen s fn h = none → noObjectEnds (.retireRoutine r) s r x s1 p)) ∧
    (pktOp b = 0x87 → resZero b 42 2 = true → resZero b 56 8 = true →
      let ctx := fieldAt b 40 2
      let img := readHost s1 (fieldAt b 32 8) (fieldAt b 44 4)
      (∀ k, ctxLive s fn ctx = true → 128 ≤ fieldAt b 44 4 → fieldAt b 44 4 ≤ 64 + 2 ^ 20 →
        storeOk s1 fn ctx (fieldAt b 48 8) (fieldAt b 44 4) → programOk img = true → lowestFree s.gfe.programs 1 (2 ^ 32 - 1) = some k →
        gives (.registerProgram r) s (fun t => look t.gfe.programs k = some { fn := fn, ctx := ctx, store := fieldAt b 48 8, codeLen := fieldAt img 8 4, entry := fieldAt img 12 4, losBytes := fieldAt img 16 4, spBytes := fieldAt img 20 4 })) ∧
      (ctxLive s fn ctx = false → noObjectEnds (.registerProgram r) s r x s1 p)) ∧
    (pktOp b = 0x88 → resZero b 36 28 = true →
      (progLive s fn h = true → programNamed s h = false → okWith (.releaseProgram r) s r x p 0 (fun t =>
        look t.gfe.programs h = none ∧ t = { s with gfe := t.gfe } ∧ ∀ k, k ≠ h → look t.gfe.programs k = look s.gfe.programs k)) ∧
      (progLive s fn h = false ∨ programNamed s h = true → noObjectEnds (.releaseProgram r) s r x s1 p))

open Sys2Proof.Claims in
/-- Admin packets create and end work queues, resident tasks, services, queue pairs, Lift queues and memory objects. For an
accepted packet of an admin ring. CREATE_WQ gives the lowest free queue with or without a page, DESTROY_WQ removes it.
START_RESIDENT on a fit engine that holds no tile, with a free slot, starts the task, which holds the packet's signal,
and ends OK with its number; STOP_RESIDENT ends a waiting task and marks a running one. REGISTER_SERVICE of a good
descriptor installs the service under the lowest free handle; DEREGISTER_SERVICE of one whose step runs holds the
packet, else the service goes. CREATE_QP gives the lowest free queue pair with two pages in its service's lane,
DESTROY_QP removes it; CREATE_LIFTQ and DESTROY_LIFTQ the same for a port of the VD. MEMOBJ_CREATE gives a reference to
a new or an imported object, MEMOBJ_DROP ends it and with the last one the object. -/
def Obligations.TasksServicesAndQueues : Prop :=
  ∀ (r : RingId) (x : Ring) (b : List Byte) (s s1 : State) (p : PktRef), accepts s r x b s1 p →
    let fn := x.fn
    let h := fieldAt b 32 4
    let n := fieldAt b 32 2
    (pktOp b = 0x8B → 4 ≤ fieldAt b 34 1 → fieldAt b 34 1 ≤ 12 → fieldAt b 35 1 < 2 → resZero b 36 4 = true → resZero b 48 16 = true →
      fieldAt b 40 8 + 64 + 64 * 2 ^ fieldAt b 34 1 ≤ 2 ^ 55 →
      let w : Wq := { fn := fn, ctx := n, log2 := fieldAt b 34 1, base := fieldAt b 40 8 }
      (∀ ps k, ctxLive s fn n = true → devRange s1 fn n (fieldAt b 40 8) (64 + 64 * 2 ^ fieldAt b 34 1) true = .ok ps →
        lowestFree s.gfe.wqs 0 4096 = some k →
        (fieldAt b 35 1 = 0 → okWith (.createWq r) s r x p k (fun t => t.wq? k = some w ∧ t = { s with gfe := t.gfe })) ∧
        (∀ pg s2, fieldAt b 35 1 = 1 → takePage s1 fn (.wq k) = some (pg, s2) →
          okWith (.createWq r) s r x p (k + pg * 65536) (fun t => t.wq? k = some { w with page := some pg } ∧
            look t.gfe.pages (fn * 4096 + pg) = some (.wq k)))) ∧
      (ctxLive s fn n = false → noObjectEnds (.createWq r) s r x s1 p)) ∧
    (pktOp b = 0x8C → resZero b 34 30 = true →
      (∀ q, s.wq? n = some q → q.fn = fn → ctxLive s fn q.ctx = true → gives (.destroyWq r) s (fun t => t.wq? n = none) ∧
        (q.task = none → okWith (.destroyWq r) s r x p 0 (fun t => t = { s with gfe := t.gfe }))) ∧
      (s.wq? n = none → noObjectEnds (.destroyWq r) s r x s1 p)) ∧
    (pktOp b = 0x89 → fieldAt b 42 2 ≤ 4096 → resZero b 44 4 = true → fieldAt b 48 8 < 2 ^ 55 → resZero b 56 8 = true →
      let w := fieldAt b 36 2
      let e := fieldAt b 38 2
      let su := fieldAt b 40 2
      (∀ g q par k m, look s.gfe.programs h = some g → s.wq? w = some q → g.fn = fn → q.fn = fn → ctxLive s fn q.ctx = true → q.task = none →
        taskEngine s fn e = true → coreTasks s (engCore e) < 2 → engTask s e = none →
        (su = 0xFFFF ∨ taskEngine s fn su = true ∧ coreCg (engCore su) ≠ coreCg (engCore e) ∧ coreTasks s (engCore su) < 2) →
        readParam s1 fn q.ctx (fieldAt b 48 8) (fieldAt b 42 2) = .ok par → (s.eng e).run = none → freeSlot s1 (engCore e) = some k →
        lowestFree s.gfe.tasks 1 (2 ^ 32) = some m →
        gives (.startResident r) s (fun t => look t.gfe.tasks m = some { fn := fn, ctx := q.ctx, program := h, wq := w, engine := e, successor := if su = 0xFFFF then none else some su, signal := p.signal, cbSlot := k, cb := sliceB par 0 4096 } ∧
          t.wq? w = some { q with task := some m } ∧ (t.eng e).queue = [] ∧ (t.core (engCore e)).tq = (s.eng e).queue ++ (s.core (engCore e)).tq ∧
          ∃ y, t.ring? (refOf r) = some y ∧ y.waiting = x.waiting ++ [cqeOf { p with signal := none } stOk m 0 0 none])) ∧
      (look s.gfe.programs h = none ∨ s.wq? w = none → noObjectEnds (.startResident r) s r x s1 p)) ∧
    (pktOp b = 0x8A → resZero b 36 28 = true →
      (∀ k, s.task? h = some k → k.fn = fn → (k.st = .waiting → gives (.stopResident r) s (fun t => t.task? h = none)) ∧
        (k.st ≠ .waiting → gives (.stopResident r) s (fun t => t.task? h = some { k with stopPend := true, stopSrc := 0, stopPkts := k.stopPkts ++ [p] }))) ∧
      (s.task? h = none → noObjectEnds (.stopResident r) s r x s1 p)) ∧
    (pktOp b = 0x8D → resZero b 42 22 = true →
      let ctx := fieldAt b 40 2
      let d := readHost s1 (fieldAt b 32 8) 128
      (∀ k, ctxLive s fn ctx = true → svcBad d = none → (curGen s fn (fieldAt d 88 4)).isSome = true →
        (s.gfe.services.filter (fun q => q.2.d.vd = fn)).length < 16 → lowestFree s.gfe.services 1 (2 ^ 32 - 1) = some k →
        okWith (.registerService r) s r x p k (fun t => t = { s with gfe := t.gfe } ∧ (∀ j, j ≠ k → t.service? j = s.service? j) ∧
          ∃ v, t.service? k = some v ∧ v.d = svcOf d fn ctx ∧ v.st = .wait ∧ v.seqs = [] ∧ v.scores = [])) ∧
      (ctxLive s fn ctx = false → noObjectEnds (.registerService r) s r x s1 p)) ∧
    (pktOp b = 0x8E → resZero b 36 28 = true →
      (∀ v, s.service? h = some v → v.d.fn = fn → v.dereg = none →
        gives (.deregisterService r) s (fun t => t = under s (settle (settleDereg (s1.setService h { v with dereg := some p }) h))) ∧
        (stepRunning { v with dereg := some p } = true → s.ready = [] → gives (.deregisterService r) s (fun t =>
          t.service? h = some { v with dereg := some p }))) ∧
      (s.service? h = none → noObjectEnds (.deregisterService r) s r x s1 p)) ∧
    (pktOp b = 0x8F → resZero b 40 24 = true →
      let d := readHost s1 (fieldAt b 32 8) 64
      ∀ k rp sp s2 s3, qpBad s1 fn d = none → lowestFree s.gfe.qps 0 4096 = some k → takePage s1 fn (.qpReq k) = some (rp, s2) →
        takePage s2 fn (.qpRsp k) = some (sp, s3) → okWith (.createQp r) s r x p (k + rp * 65536 + sp * 2 ^ 32) (fun t =>
          t = { s with gfe := t.gfe } ∧ t.qp? k = some { fn := fn, ctx := fieldAt d 4 2, service := fieldAt d 0 4, reqLog2 := fieldAt d 6 1, rspLog2 := fieldAt d 7 1, reqRing := fieldAt d 8 8, rspRing := fieldAt d 16 8, liveQuota := fieldAt d 24 4, pageQuota := fieldAt d 28 4, admitDepth := fieldAt d 32 2, retain := (fieldAt d 34 1).testBit 0, vector := fieldAt d 35 1, parkPool := fieldAt d 36 2, parkPort := fieldAt d 38 1, reqPage := rp, rspPage := sp, lane := ((svcQps s (fieldAt d 0 4)).head?.map (fun q => q.2.lane)).getD 0xFF } ∧
          look t.gfe.pages (fn * 4096 + rp) = some (.qpReq k) ∧ look t.gfe.pages (fn * 4096 + sp) = some (.qpRsp k))) ∧
    (pktOp b = 0x90 → resZero b 34 30 = true →
      (∀ q, s.qp? n = some q → q.fn = fn → ctxLive s fn q.ctx = true → gives (.destroyQp r) s (fun t => t.qp? n = none)) ∧
      (s.qp? n = none → noObjectEnds (.destroyQp r) s r x s1 p)) ∧
    (pktOp b = 0x91 → fieldAt b 34 1 ≤ 23 → 4 ≤ fieldAt b 35 1 → fieldAt b 35 1 ≤ 12 → resZero b 36 4 = true → fieldAt b 40 8 < 2 ^ 55 →
      fieldAt b 48 8 < 2 ^ 55 → resZero b 56 8 = true →
      (∀ k pg s2, ctxLive s fn n = true → s.portVd (fieldAt b 34 1) = some fn →
        (s.talko.liftqs.filter (fun q => q.2.port = fieldAt b 34 1)).length < 64 → lowestFree s.talko.liftqs 0 1536 = some k →
        takePage s1 fn (.liftq k) = some (pg, s2) → okWith (.createLiftq r) s r x p (k + pg * 65536) (fun t =>
          t.liftq? k = some { fn := fn, ctx := n, port := fieldAt b 34 1, log2 := fieldAt b 35 1, base := fieldAt b 40 8, report := fieldAt b 48 8, page := pg } ∧
          t = { s with gfe := t.gfe, talko := t.talko })) ∧
      (ctxLive s fn n = true → s.portVd (fieldAt b 34 1) ≠ some fn → pktEnds (.createLiftq r) s r x s1 p stField 0 34 (some (fieldErr p 34)))) ∧
    (pktOp b = 0x92 → resZero b 34 30 = true →
      (∀ q, s.liftq? n = some q → q.fn = fn → ctxLive s fn q.ctx = true → okWith (.destroyLiftq r) s r x p 0 (fun t =>
        t.liftq? n = none ∧ t.talko.ops = s.talko.ops ∧ ∀ k, k ≠ n → t.liftq? k = s.liftq? k)) ∧
      (s.liftq? n = none → noObjectEnds (.destroyLiftq r) s r x s1 p)) ∧
    (pktOp b = 0x94 → resZero b 40 24 = true →
      let d := readHost s1 (fieldAt b 32 8) 64
      ∀ k o, memobjBad s1 fn d = none → s.obj.refs.length < 1048576 → (s.obj.refs.filter (fun q => q.1 / 2 ^ 32 = fn)).length < 262144 →
        (List.range 262145).find? (fun j => j ≠ 0 && !has s.obj.refs (refKey fn j)) = some k →
        (List.range 1048577).find? (fun j => !has s.obj.objs j) = some o →
        (fieldAt d 0 1 = 1 → okWith (.memobjCreate r) s r x p k (fun t =>
          look t.obj.refs (refKey fn k) = some { ctx := fieldAt d 2 2, obj := o, va := fieldAt d 8 8 } ∧
          look t.obj.objs o = some { size := fieldAt d 16 8, host := (fieldAt d 1 1).testBit 0, fence := if fieldAt d 24 4 = 0xFFFFFFFF then none else some (fieldAt d 24 4, fieldAt d 32 8) })) ∧
        (∀ j y, fieldAt d 0 1 = 2 → refObj s (refKey fn (fieldAt d 4 4)) = some (j, y) → okWith (.memobjCreate r) s r x p k (fun t =>
          look t.obj.refs (refKey fn k) = some { ctx := fieldAt d 2 2, obj := j, va := fieldAt d 8 8 } ∧ t.obj.objs = s.obj.objs))) ∧
    (pktOp b = 0x95 → resZero b 36 28 = true →
      (∀ q, look s.obj.refs (refKey fn h) = some q → okWith (.memobjDrop r) s r x p 0 (fun t =>
        look t.obj.refs (refKey fn h) = none ∧ ((∀ k y, look s.obj.refs k = some y → y.obj = q.obj → k = refKey fn h) →
          sortedKeys s.obj.refs = true → look t.obj.objs q.obj = none))) ∧
      (look s.obj.refs (refKey fn h) = none → noObjectEnds (.memobjDrop r) s r x s1 p))

namespace Sys2Proof.Claims

def slotFence (s : State) (f : FnId) (n : Fin 64) : Nat := (lookD (s.fn f.val).int.sel n.val {}).fence
def lastValue : Nat := 2 ^ 64 - 2

end Sys2Proof.Claims

open Sys2Proof.Claims in
/-- A signal slot signals or arms its fence by the fence rules, and enabling the mirror writes every entry. For a write to
a signal slot of an open function that is not in reset, with the fence that the slot selects. A fence at the error
value stays. At the last value before it, a write of anything but the error value is rejected and counted. The error
value is stored with the cause "host signalled an error". An equal value changes nothing; a lower one leaves the value
and counts; a higher one is stored without an error, and takes the arm away exactly where the armed value is reached.
Arming at a value already reached takes the arm away; else the lower of the armed values stands, with the newest
vector. MIRROR_ENABLE sets the enable, writes the entry of every fence of the function in order, and changes no fence. -/
def Obligations.SignalSlotsAndMirrors : Prop :=
  (∀ (f : FnId) (n : Fin 64) (v : W64) (s : State), fnOpen s f.val = true → (s.fn f.val).resetting = false →
    let k := slotFence s f n
    let x := s.fence f.val k
    let c := Instr.signalSlotSignal f n v
    (x.value.toNat = errValue → gives c s (fun t => t = s)) ∧
    (x.value.toNat = lastValue → v.toNat ≠ errValue → gives c s (fun t => t = { s with fns := t.fns } ∧ t.fence f.val k = x ∧
      (t.fn f.val).int.rejected = satAdd 16 (s.fn f.val).int.rejected 1)) ∧
    (x.value.toNat ≠ errValue → v.toNat = errValue → gives c s (fun t => (t.fence f.val k).value = v ∧
      (t.fence f.val k).err = some { cause := 0x0016, source := 7 } ∧ ∀ j, j ≠ k → t.fence f.val j = s.fence f.val j)) ∧
    (x.value.toNat ≠ errValue → x.value.toNat ≠ lastValue → v = x.value → gives c s (fun t => t = s)) ∧
    (x.value.toNat ≠ errValue → x.value.toNat ≠ lastValue → v.toNat < x.value.toNat → gives c s (fun t =>
      t.fence f.val k = { x with lower := satAdd 32 x.lower 1 } ∧ (t.fn f.val).int.lower = satAdd 16 (s.fn f.val).int.lower 1)) ∧
    (x.value.toNat < v.toNat → v.toNat ≠ errValue → x.value.toNat ≠ lastValue → gives c s (fun t =>
      (t.fence f.val k).value = v ∧ (t.fence f.val k).err = none ∧
      (∀ w vec, x.arm = some (w, vec) → (t.fence f.val k).arm = if w ≤ v.toNat then none else x.arm) ∧
      (x.arm = none → (t.fence f.val k).arm = none) ∧ t.gfe = s.gfe ∧ ((s.fn f.val).int.fenceEn = false → t.mem = s.mem) ∧ ∀ j, j ≠ k → t.fence f.val j = s.fence f.val j))) ∧
  (∀ (f : FnId) (n : Fin 64) (v : W64) (s : State), fnOpen s f.val = true → (s.fn f.val).resetting = false →
    let k := slotFence s f n
    let x := s.fence f.val k
    let vec := (lookD (s.fn f.val).int.sel n.val {}).vector
    (v.toNat ≤ x.value.toNat → gives (.signalSlotArm f n v) s (fun t => t.fence f.val k = { x with arm := none })) ∧
    (x.value.toNat < v.toNat → gives (.signalSlotArm f n v) s (fun t => t.fence f.val k = { x with arm := some (match x.arm with
      | some (w, _) => (min w v.toNat, vec)
      | none => (v.toNat, vec)) } ∧ t.pcie = s.pcie))) ∧
  (∀ (f : FnId) (s : State), fnOpen s f.val = true →
    gives (.mirrorEnable f) s (fun t => (t.fn f.val).int.fenceEn = true ∧ t.obj = s.obj ∧
      t = under s ((List.range 65536).foldl (fun u k => writeHost u f.val ((s.fn f.val).int.fenceBase + 64 * k) (mirrorBytes u f.val k))
        { s with fns := t.fns })))

open Sys2Proof.Claims in
/-- A forced abort squashes and destroys its context, and a function reset clears the function once none is left.
ABORT_DRAIN_END of a draining context leaves it squashing with no launch, resident task or service of its own; of any
other it changes nothing. ABORT_SQUASH_DONE of a squashing one, with nothing to release: where the chain takes the
record, the context is gone, every fence of its range has the error value, no ring, queue pair, work queue or Lift
queue of it is left, and the packet that destroyed it completes last; where the chain holds records it stays squashing.
FUNCTION_RESET leaves the function in reset with no LIVE context and ends an open request that was accepted or in its
memory phase ABORTED; of function 0 it clears VF Enable and resets every VF of PF0. FUNCTION_RESET_CLEAR in a reset
with no context left gives the function's registers, fences, pages and admin ring their reset state; otherwise it
changes nothing. -/
def Obligations.AbortsAndFunctionResets : Prop :=
  (∀ (f : FnId) (c : Fin 4096) (s : State) (k : Ctx), s.ctx? f.val c.val = some k →
    (k.st = .draining → gives (.abortDrainEnd f c) s (fun t => (∃ y, t.ctx? f.val c.val = some y ∧ y.st = .squashing ∧ y.destroyPkt = k.destroyPkt) ∧
      (∀ n l, t.launch? n = some l → ¬(l.fn = f.val ∧ l.ctx = c.val)) ∧ (∀ n l, t.task? n = some l → ¬(l.fn = f.val ∧ l.ctx = c.val)) ∧
      (∀ n v, t.service? n = some v → ¬(v.d.fn = f.val ∧ v.d.ctx = c.val)))) ∧
    (k.st ≠ .draining → gives (.abortDrainEnd f c) s (fun t => t = s)) ∧
    (k.st ≠ .squashing → gives (.abortSquashDone f c) s (fun t => t = s)) ∧
    (k.st = .squashing → s.ready = [] → chainTakes s f.val → gives (.abortSquashDone f c) s (fun t => t.ctx? f.val c.val = none ∧
      (∀ n, n < k.fenceCount → (t.fence f.val (k.fenceFirst + n)).value.toNat = errValue) ∧
      (∀ n q, look t.gfe.rings n = some q → ¬(q.fn = f.val ∧ q.ctx = c.val)) ∧ (∀ n q, t.qp? n = some q → ¬(q.fn = f.val ∧ q.ctx = c.val)) ∧
      (∀ n q, t.wq? n = some q → ¬(q.fn = f.val ∧ q.ctx = c.val)) ∧ (∀ n q, t.liftq? n = some q → ¬(q.fn = f.val ∧ q.ctx = c.val)) ∧
      (∀ p y, k.destroyPkt = some p → t.ring? p.ring = some y → y.waiting.getLast? = some (cqeOf p stOk 0 0 0 none)))) ∧
    (k.st = .squashing → s.ready = [] → (s.chain f.val).opened = true → (s.chain f.val).closed = false → (s.chain f.val).held ≠ [] →
      gives (.abortSquashDone f c) s (fun t => t = { s with chains := t.chains } ∧ t.ctx? f.val c.val = some k))) ∧
  (∀ (f : FnId) (s : State),
    gives (.functionReset f) s (fun t => (t.fn f.val).resetting = true ∧ (∀ (c : Fin 4096) k, t.ctx? f.val c.val = some k → k.st ≠ .live) ∧
      (∀ r, (s.vd f.val).req = some r → (r.stage = .accepted ∨ r.stage = .memory) → (t.vd f.val).req = none ∧ (t.vd f.val).lastStatus = 9) ∧
      (f.val = 0 → (t.pf 0).vfEn = false ∧ ∀ n ∈ vfsOf s false, (t.fn n).resetting = true)) ∧
    ((s.fn f.val).resetting = true → s.fnCtxs f.val = [] → gives (.functionResetClear f) s (fun t => t.fn f.val = {} ∧
      t.ring? (.admin f.val) = none ∧ (∀ n, n < 65536 → t.fence f.val n = {}) ∧ (∀ n, n < 4096 → look t.gfe.pages (f.val * 4096 + n) = none) ∧
      (t.vd f.val).leaving = false ∧ (t.vd f.val).noticeEn = false)) ∧
    ((s.fn f.val).resetting = false ∨ s.fnCtxs f.val ≠ [] → gives (.functionResetClear f) s (fun t => t = s)))

namespace Sys2Proof.Claims

def laser (s : State) (k : Nat) : Laser := lookD s.talko.lasers k {}
/-- A NAK of the expected SEQ, unless one is out. -/
def nakOnce (x : Port) : Port :=
  if x.nakSent.isSome then x else { x with nakSent := some x.rxNext, sentMsgs := x.sentMsgs ++ [.nak x.rxNext] }
def onlyTalko (s t : State) : Prop := t = { s with talko := t.talko }
/-- The frames of a block pass their checks in order and are for this device. -/
def framesOk (s : State) (x : Port) (ws : List WireFrame) : Prop :=
  ∀ k w, ws[k]? = some w → trailerOk x (x.rxCount + k) w = true ∧ frameOk w = true ∧ (frameOf w).dst = s.talko.devId
def tileDark (s t : State) (k : Nat) : Prop :=
  (laser t k).failed = true ∧ (laser t k).locked = false ∧ ∀ p ∈ tilePorts k, (s.port p).st ≠ .off → (t.port p).st = .down ∧ (t.port p).reason = 8

end Sys2Proof.Claims

open Sys2Proof.Claims in
/-- DATA blocks deliver in order, are replayed and acknowledged, credits are absolute, and lasers fail lines or modules. On
an UP port. A bad block or one out of order delivers nothing and a NAK of the expected SEQ goes out, once. The expected
block whose frames all pass and are for this device delivers them in order and the next SEQ is expected; one already
taken up to another block's failing frame delivers nothing again; a failing frame asks for a replay from its first
block. A sender without a replay fills a new block under credit and keeps it; in a replay it repeats the next kept one.
ACK drops the blocks up to its SEQ, NAK starts a replay, the sixteenth of one SEQ takes the port down with reason 6. A
due LINK block acknowledges and gives credit; a NAK repeats until answered; CREDIT replaces the counts. On a port not
UP nothing changes. A lit module's poll moves each line's bias, and a line bad three times fails; a missed read counts
against the module and each line; a FAULT or the third missed read fails the module and its ports go down with reason
8; lines without LOCK at the timeout fail and the ports train on the rest. -/
def Obligations.LinkBlocksAndLasers : Prop :=
  (∀ (p : PortId) (seq : Fin 4096) (good : Bool) (ws : List WireFrame) (s : State),
    let x := s.port p.val
    let c := Instr.dataBlockReceive p seq good ws
    (x.st ≠ .up → gives c s (fun t => t = s)) ∧
    (x.st = .up → good = false → gives c s (fun t => onlyTalko s t ∧ t.port p.val = nakOnce { x with uncorr := satAdd 16 x.uncorr 1 })) ∧
    (x.st = .up → good = true → seq.val ≠ x.rxNext → gives c s (fun t => onlyTalko s t ∧ t.port p.val = nakOnce x)) ∧
    (x.st = .up → good = true → seq.val = x.rxNext → (x.tagFails.filter (fun k => decide (s.s0 < k + 800000000))).length < 16 →
      (x.rxSkip = none → framesOk s x ws → gives c s (fun t => (t.port p.val).rx = x.rx ++ ws.map frameOf ∧
        (t.port p.val).rxNext = (seq.val + 1) % 4096 ∧ (t.port p.val).rxCount = x.rxCount + ws.length ∧ (t.port p.val).nakSent = none ∧
        ∀ q, q ≠ p.val → t.port q = s.port q)) ∧
      (∀ k, x.rxSkip = some k → k ≠ seq.val → gives c s (fun t => onlyTalko s t ∧ (t.port p.val).rx = x.rx ∧
        (t.port p.val).rxNext = (seq.val + 1) % 4096)) ∧
      (∀ w rest, x.rxSkip = none → x.session = false → ws = w :: rest → trailerOk x x.rxCount w = false → gives c s (fun t => onlyTalko s t ∧
        (t.port p.val).rx = x.rx ∧ (t.port p.val).rxNext = w.start.val ∧ (t.port p.val).nakSent = some w.start.val ∧
        (t.port p.val).rxSkip = some seq.val)))) ∧
  (∀ (p : PortId) (s : State),
    let x := s.port p.val
    (x.st ≠ .up → ∀ (q : Fin 4096) (a b d e : W32),
      ∀ c ∈ [Instr.dataBlockSend p, .linkBlockDue p, .nakRepeatExpiry p, .linkAck p q, .linkNak p q, .linkCredit p a b d e], gives c s (fun t => t = s)) ∧
    (x.st = .up →
      (∀ q, x.replaying = some q → gives (.dataBlockSend p) s (fun t => t = s.setPort p.val { x with
        replaying := if x.replay.any (fun b => b.seq = (q + 1) % 4096) then some ((q + 1) % 4096) else none
        sinceLink := x.sinceLink + 1 })) ∧
      (x.replaying = none → 1024 ≤ x.replay.length ∨ (x.sending = none ∧ ∀ f ∈ x.queue, hasCredit x f = false) →
        gives (.dataBlockSend p) s (fun t => t = s)) ∧
      (∀ f, x.replaying = none → x.replay.length < 1024 → x.sending = none → x.queue = [f] → hasCredit x f = true → wireLen f ≤ 640 →
        gives (.dataBlockSend p) s (fun t => t.port p.val = { x with
          queue := []
          used := addAt x.used f.vc (frameUnits f)
          txCount := x.txCount + 1
          replay := x.replay ++ [{ seq := x.txSeq, frames := [(x.txSeq, f)] }]
          txSeq := (x.txSeq + 1) % 4096
          sinceLink := x.sinceLink + 1 } ∧ t.talko.sent = s.talko.sent ++ [(p.val, f)])) ∧
      gives (.linkBlockDue p) s (fun t => t = s.setPort p.val { x with
        sinceLink := 0
        sentMsgs := x.sentMsgs ++ [.ack ((x.rxNext + 4095) % 4096), .credit (x.freed.map (· % 2 ^ 32))] }) ∧
      (∀ q, x.nakSent = some q → gives (.nakRepeatExpiry p) s (fun t => t = s.setPort p.val { x with sentMsgs := x.sentMsgs ++ [.nak q] })) ∧
      (∀ a b d e : W32, gives (.linkCredit p a b d e) s (fun t =>
        t = s.setPort p.val { x with credits := [a.toNat, b.toNat, d.toNat, e.toNat] })) ∧
      (∀ (q : Fin 4096) k, x.replay.findIdx? (fun b => b.seq = q.val) = some k → gives (.linkAck p q) s (fun t =>
        t = s.setPort p.val { x with replay := x.replay.drop (k + 1), acked := q.val })) ∧
      (∀ (q : Fin 4096), (∀ b ∈ x.replay, b.seq ≠ q.val) → gives (.linkAck p q) s (fun t => t.port p.val = x) ∧
        gives (.linkNak p q) s (fun t => t = s)) ∧
      (∀ (q : Fin 4096) b, b ∈ x.replay → b.seq = q.val →
        let n := if x.naks.1 = q.val then x.naks.2 + 1 else 1
        (n < 16 → gives (.linkNak p q) s (fun t => t = s.setPort p.val { x with
          replaying := some q.val
          naks := (q.val, n)
          replays := satAdd 16 x.replays 1 })) ∧
        (16 ≤ n → gives (.linkNak p q) s (fun t => (t.port p.val).st = .down ∧ (t.port p.val).reason = 6 ∧ (t.port p.val).replay = []))))) ∧
  (∀ (k : Fin 4) (s : State),
    let l := laser s k.val
    let lit : Prop := l.enabled = true ∧ l.locked = true ∧ l.failed = false
    (∀ (m : Fin 512), l.enabled = true → l.locked = false → l.failed = false →
      (m.val = 0 → gives (.laserLockTimeout k m) s (fun t => tileDark s t k.val)) ∧
      (m.val ≠ 0 → gives (.laserLockTimeout k m) s (fun t => (laser t k.val).locked = true ∧ (laser t k.val).failed = false ∧
        (∀ n x, n < 9 → l.lines[n]? = some x → (laser t k.val).lines[n]? = some { x with failed := x.failed || !m.val.testBit n }) ∧
        (s.talko.devId ≤ 4095 → ∀ p ∈ tilePorts k.val, (t.port p).st = .training)))) ∧
    (∀ m, l.enabled = false ∨ l.locked = true ∨ l.failed = true → gives (.laserLockTimeout k m) s (fun t => t = s)) ∧
    (lit → ∀ rs, gives (.laserPoll k true rs) s (fun t => tileDark s t k.val) ∧
      gives (.laserPoll k false rs) s (fun t => (laser t k.val).statusBad = 0 ∧ (laser t k.val).failed = false ∧
        ∀ n x r, n < 9 → l.lines[n]? = some x → rs[n]? = some r → x.failed = false →
          (laser t k.val).lines[n]? = some { readLaser x r with failed := decide (3 ≤ (readLaser x r).bad) })) ∧
    (lit → (2 ≤ l.statusBad → gives (.laserReadTimeout k) s (fun t => tileDark s t k.val)) ∧
      (l.statusBad < 2 → gives (.laserReadTimeout k) s (fun t => (laser t k.val).statusBad = l.statusBad + 1 ∧ (laser t k.val).failed = false ∧
        (∀ n x, n < 9 → l.lines[n]? = some x →
          (laser t k.val).lines[n]? = some { x with bad := x.bad + 1, failed := x.failed || decide (2 ≤ x.bad) }) ∧
        ((∀ x ∈ l.lines, x.failed = true ∨ x.bad < 2) → onlyTalko s t)))) ∧
    (¬lit → ∀ b rs, gives (.laserPoll k b rs) s (fun t => t = s) ∧ gives (.laserReadTimeout k) s (fun t => t = s)))

namespace Sys2Proof.Claims

def portGives (c : Instr) (s : State) (p : Nat) (P : Port → Prop) : Prop := gives c s (fun t => P (t.port p) ∧ ∀ q, q ≠ p → (t.port q).st = (s.port q).st)
def wentDown (r : Nat) (y : Port) : Prop := y.st = .down ∧ y.reason = r ∧ y.session = false ∧ y.rx = [] ∧ y.replay = []
def negotiates (x : Port) : Prop := x.st = .negotiating ∨ x.st = .renegotiating
/-- The mode is resolved: it is kept and COMMIT goes out behind the messages before it. -/
def committed (x y : Port) (m : LinkMode) (before : List LinkMsg) : Prop :=
  y.mode = some m ∧ y.sentMsgs = x.sentMsgs ++ before ++ [.commit (modeRecord m)] ∧ y.st = x.st
/-- New keys apply from the next frame. -/
def rekeyed (x y : Port) : Prop := y.keyGen = x.keyGen + 1 ∧ y.txCount = 0 ∧ y.rxCount = 0 ∧ y.keyUpdate = false ∧ y.st = x.st ∧ y.session = true

end Sys2Proof.Claims

open Sys2Proof.Claims in
/-- A port trains, exchanges flight time, offers and modes, keys its session, moves lanes and goes down. PORT_TRAINING_DONE
of a training port starts ECHO with the lanes. An ECHO request on a port not off or down is answered. The reply gives
the reach and CAPS goes out; beyond 1,000 ns the port goes down with reason 4. CAPS while negotiating is kept; with the
flight time known it resolves the mode and COMMIT goes out, or the port goes down with the reason; on an up or keying
port it renegotiates. A matching COMMIT record leads to keying or up with the mode's lanes; a differing one tries again
twice, then reason 5. PORT_SESSION_DONE with token, signature and keys brings an allowed partner's port up with a
session, takes a refused one's down with 9, waits without token, and goes down with 7 without keys. A keying timeout
takes it down with 7. The requester of a session sends KEY_UPDATE; its acknowledgement, and the request on the other
side, install new keys; a fragment is kept until the last. A LANE message with a spare moves the lane, without it
renegotiates. A failed lane asks for the spare; the spare itself is no longer one. LINK_DOWN takes the port down with
its reason. -/
def Obligations.PortsNegotiateAndKey : Prop :=
  ∀ (p : PortId) (s : State),
    let x := s.port p.val
    (∀ lanes : Fin 512,
      (x.st = .training → gives (.portTrainingDone p lanes) s (fun t => t = s.setPort p.val { x with
        st := .negotiating
        trained := lanes.val &&& (511 ^^^ x.calBad)
        attempts := 0
        echoed := false
        peerCaps := none
        mode := none
        peerRecord := []
        sentMsgs := x.sentMsgs ++ [.echo false 0 0] })) ∧
      (x.st ≠ .training → gives (.portTrainingDone p lanes) s (fun t => t = s))) ∧
    (∀ (a : W64) (b : W32), (x.st ≠ .off → x.st ≠ .down → gives (.linkEchoRequest p a b) s (fun t =>
      t = s.setPort p.val { x with sentMsgs := x.sentMsgs ++ [.echo true a.toNat b.toNat] })) ∧
      (x.st = .off ∨ x.st = .down → gives (.linkEchoRequest p a b) s (fun t => t = s))) ∧
    (∀ (a : W64) (b : W32) (now : W64), negotiates x → x.echoed = false →
      let d := now.toNat - a.toNat - b.toNat
      (100000 < d * 64 → portGives (.linkEchoReply p a b now) s p.val (wentDown 4)) ∧
      (d * 64 ≤ 100000 → x.peerCaps = none → portGives (.linkEchoReply p a b now) s p.val (fun y => y.echoed = true ∧
        y.reach = (if d * 64 ≤ 3000 then 0 else if d * 64 ≤ 10000 then 1 else 2) ∧ y.st = x.st ∧
        ∃ k, y.sentMsgs = x.sentMsgs ++ [.caps k] ∧ k.reach = y.reach ∧ k.lanes = x.trained ∧ k.devId = s.talko.devId)) ∧
      (∀ r k m, reachOf d = some r → x.peerCaps = some k → x.peerRecord = [] →
        resolve (capsOf (s.setPort p.val { x with echoed := true, reach := r }) p.val) k = .inr m →
        portGives (.linkEchoReply p a b now) s p.val (fun y => ∃ o, committed x y m [.caps o]))) ∧
    (∀ (a : W64) (b : W32) (now : W64), ¬negotiates x ∨ x.echoed = true → gives (.linkEchoReply p a b now) s (fun t => t = s)) ∧
    (∀ k : Caps, negotiates x →
      (x.echoed = false → portGives (.linkCaps p k) s p.val (fun y => y = { x with peerCaps := some k })) ∧
      (∀ r, x.echoed = true → resolve (capsOf s p.val) k = .inl r → portGives (.linkCaps p k) s p.val (wentDown r)) ∧
      (∀ m, x.echoed = true → x.peerRecord = [] → resolve (capsOf s p.val) k = .inr m → portGives (.linkCaps p k) s p.val (fun y =>
        committed x y m []))) ∧
    (∀ k : Caps, x.st = .up ∨ x.st = .keying → portGives (.linkCaps p k) s p.val (fun y => y.st = .renegotiating ∧ y.peerCaps = some k ∧
      y.session = false ∧ y.mode = none)) ∧
    (∀ (rcd : List Byte), negotiates x → rcd.length = 16 →
      (x.mode = none → portGives (.linkCommit p rcd) s p.val (fun y => y = { x with peerRecord := rcd })) ∧
      (∀ m, x.mode = some m → rcd = modeRecord m → portGives (.linkCommit p rcd) s p.val (fun y =>
        if m.enc then y.st = .keying else y.st = .up ∧ y.laneMap = bitsOf 9 m.map ∧ y.spare = m.spare)) ∧
      (∀ m, x.mode = some m → rcd ≠ modeRecord m → x.attempts < 2 → portGives (.linkCommit p rcd) s p.val (fun y =>
        y.attempts = x.attempts + 1 ∧ y.st = x.st ∧ y.mode = none ∧ y.sentMsgs = x.sentMsgs ++ [.echo false 0 0])) ∧
      (∀ m, x.mode = some m → rcd ≠ modeRecord m → 2 ≤ x.attempts → portGives (.linkCommit p rcd) s p.val (wentDown 5))) ∧
    (∀ (root : List Byte), x.st = .keying →
      (canKey s = false → portGives (.portSessionDone p root) s p.val (wentDown 7)) ∧
      (canKey s = true → takeToken s 0 = none → gives (.portSessionDone p root) s (fun t => t = s)) ∧
      (∀ t1, canKey s = true → takeToken s 0 = some t1 → signPair t1 root = none → gives (.portSessionDone p root) s (fun t => t = s)) ∧
      (∀ t1 a b s1, canKey s = true → takeToken s 0 = some t1 → signPair t1 root = some (a, b, s1) →
        (peerAllowed x root ((x.peerCaps.map (·.devId)).getD 0) = false → portGives (.portSessionDone p root) s p.val (wentDown 9)) ∧
        (∀ m, x.mode = some m → peerAllowed x root ((x.peerCaps.map (·.devId)).getD 0) = true →
          portGives (.portSessionDone p root) s p.val (fun y => y.st = .up ∧ y.session = true ∧ y.keyGen = x.keyGen + 1 ∧ y.txCount = 0 ∧
            y.rxCount = 0 ∧ y.laneMap = bitsOf 9 m.map)))) ∧
    (x.st = .keying → portGives (.talkoKeyingTimeout p) s p.val (wentDown 7)) ∧
    (x.st ≠ .keying → gives (.talkoKeyingTimeout p) s (fun t => t = s) ∧ ∀ root, gives (.portSessionDone p root) s (fun t => t = s)) ∧
    (x.st = .up → x.session = true →
      (requester s x = true → x.keyUpdate = false → gives (.keyUpdateDue p) s (fun t => t = s.setPort p.val { x with
        keyUpdate := true
        sentMsgs := x.sentMsgs ++ [.spdm true spdmKeyUpdate] })) ∧
      (requester s x = false → gives (.keyUpdateDue p) s (fun t => t = s)) ∧
      (∀ bs, gives (.linkSpdm p false bs) s (fun t => t = s.setPort p.val { x with spdmIn := x.spdmIn ++ bs })) ∧
      (∀ bs, fieldAt (x.spdmIn ++ bs) 1 1 = 0x69 → x.keyUpdate = true → portGives (.linkSpdm p true bs) s p.val (fun y => rekeyed x y ∧
        y.sentMsgs = x.sentMsgs ∧ y.spdmIn = [])) ∧
      (∀ bs, fieldAt (x.spdmIn ++ bs) 1 1 = 0xE9 → requester s x = false → portGives (.linkSpdm p true bs) s p.val (fun y => rekeyed x y ∧
        y.sentMsgs = x.sentMsgs ++ [.spdm true spdmKeyUpdateAck]))) ∧
    (x.st = .up → ∀ (lane : Fin 9) (q : Fin 4096),
      (∀ sp, x.spare = some sp → lane.val ∈ x.laneMap → portGives (.linkLaneRequest p lane q) s p.val (fun y =>
        y.laneMap = x.laneMap.map (fun l => if l = lane.val then sp else l) ∧ y.spare = none ∧ y.spareUsed = true ∧
        y.sentMsgs = x.sentMsgs ++ [.lane true lane.val q.val])) ∧
      (x.spare = none → lane.val ∈ x.laneMap → portGives (.linkLaneRequest p lane q) s p.val (fun y => y.st = .renegotiating)) ∧
      (∀ sp, x.laneDown = some lane.val → x.spare = some sp → portGives (.linkLaneConfirm p lane q) s p.val (fun y =>
        y.laneMap = x.laneMap.map (fun l => if l = lane.val then sp else l) ∧ y.laneDown = none ∧ y.spare = none)) ∧
      (x.laneDown ≠ some lane.val → gives (.linkLaneConfirm p lane q) s (fun t => t = s)) ∧
      (x.spare = some lane.val → portGives (.laneFailure p lane) s p.val (fun y => y.spare = none ∧ y.st = .up ∧ y.errLane = true)) ∧
      (∀ sp, lane.val ∈ x.laneMap → x.laneDown = none → x.spare = some sp → sp ≠ lane.val → portGives (.laneFailure p lane) s p.val (fun y =>
        y.laneDown = some lane.val ∧ y.st = .up ∧ y.sentMsgs = x.sentMsgs ++ [.lane false lane.val x.rxNext])) ∧
      (lane.val ∈ x.laneMap → x.spare = none → portGives (.laneFailure p lane) s p.val (fun y => y.st = .renegotiating ∧ y.errLane = true))) ∧
    (∀ r : Fin 16, (x.st ≠ .off → x.st ≠ .down → portGives (.linkDown p r) s p.val (wentDown r.val)) ∧
      (x.st = .off ∨ x.st = .down → gives (.linkDown p r) s (fun t => t = s)))

namespace Sys2Proof.Claims

def linkKey (f : LinkFn) : Nat :=
  match f with
  | .fn f => f.val
  | .c1 => 64
def absentFn (s : State) (f : LinkFn) : Prop :=
  match f with
  | .c1 => s.pcie.split = false
  | .fn f => f.val ≠ 0 ∧ s.boot.ready = true ∧ vfOn s f.val = false
/-- A mailbox of a function takes objects. -/
def doeOpen (s : State) (f : LinkFn) : Prop :=
  match f with
  | .c1 => s.pcie.split = true ∧ s.boot.ready = true
  | .fn f => fnOpen s f.val = true
/-- The VFs of a side are in reset and its VF Enable is clear. -/
def sideReset (s t : State) (c1 : Bool) : Prop :=
  (t.pf (if c1 then 64 else 0)).vfEn = false ∧ ∀ n ∈ vfsOf s c1, (t.fn n).resetting = true
def doeRefused (s t : State) (k : Nat) : Prop :=
  (t.pf k).doe.refused = (s.pf k).doe.refused + 1 ∧ (t.pf k).doe.rsp = (s.pf k).doe.rsp ++ [[]] ∧ (t.pf k).doe.intStatus = true
/-- The state once an access of BAR4 is counted. -/
def counted (s : State) (f a n : Nat) (rd wr : Bool) : State :=
  let s := countDev (countLink s f n) f a n wr
  let s := if rd then countTc2 s a n false else s
  if wr then countTc2 s a n true else s

end Sys2Proof.Claims

open Sys2Proof.Claims in
/-- The host link trains, resets and configures functions, and serves BAR4, mailboxes and completions. A half that exists
trains to a rate, width and mode. FLR of an enabled VF, of PF0, clearing VF Enable, Hot Reset and D3hot to D0 put the
functions they name in reset and clear VF Enable where they cover PF0 or C1. VF Enable sets up to TotalVFs. A
configuration request to an absent function is Unsupported, before readiness or in reset it is to be retried, else it
reads the register (a free value where the manual gives none) or writes it. Resizing BAR4 sets its size and clears
DV_WIN of its functions. Ending PRI clears its enable and refuses what waits. A DOE object is answered, waits, or is
refused and counted. BAR4 reads give the VD's bytes, all ones under SEALED, and mark poison; writes and AtomicOps store
under the VD's tag, are dropped and counted under SEALED, and are Unsupported outside the VD's memory. A failed
completion or a timeout puts a ring in ERROR; a success changes nothing. -/
def Obligations.HostLinkCommands : Prop :=
  (∀ (h : Fin 2) (r : LinkRate) (w : LinkWidth) (fl : Bool) (s : State),
    (h.val = 1 ∧ s.pcie.split = false → gives (.pcieLinkUp h r w fl) s (fun t => t = s) ∧ gives (.hotReset h) s (fun t => t = s)) ∧
    (h.val = 0 ∨ s.pcie.split = true → (h.val < s.pcie.halves.length → gives (.pcieLinkUp h r w fl) s (fun t =>
        t = { s with pcie := { s.pcie with halves := t.pcie.halves }, pow := { s.pow with log := t.pow.log } } ∧ (t.half h.val).up = true ∧ (t.half h.val).rate = rateOf r ∧
        (t.half h.val).width = (if s.pcie.split then min (widthOf w) 8 else widthOf w) ∧
        ((t.half h.val).flit = true ↔ 128 ≤ rateOf r ∨ (fl = true ∧ 64 ≤ rateOf r)) ∧ ∀ k, k ≠ h.val → t.half k = s.half k)) ∧
      gives (.hotReset h) s (fun t => sideReset s t (decide (h.val = 1)) ∧ (h.val = 0 → (t.fn 0).resetting = true) ∧
        (t.half h.val).up = false ∧ (t.half h.val).ideKeys = []))) ∧
  (∀ (s : State),
    gives .flrPf0 s (fun t => (t.fn 0).resetting = true ∧ sideReset s t false) ∧
    (∀ f : FnId, f.val ≠ 0 ∧ vfOn s f.val = true → gives (.flrVf f) s (fun t => t = under s (functionReset s f.val) ∧ (t.fn f.val).resetting = true)) ∧
    (∀ f : FnId, f.val = 0 ∨ vfOn s f.val = false → gives (.flrVf f) s (fun t => t = s)) ∧
    (∀ p : PhysFn, gives (.vfEnableClear p) s (fun t => sideReset s t (decide (p = .c1)))) ∧
    (∀ (p : PhysFn) (n : Fin 64), (n.val ≤ totalVfs s p → gives (.vfEnableSet p n) s (fun t => (t.pf (physKey p)).vfEn = true ∧
        (t.pf (physKey p)).numVfs = n.val ∧ t = { s with pcie := { s.pcie with fns := t.pcie.fns } })) ∧
      (totalVfs s p < n.val → gives (.vfEnableSet p n) s (fun t => t = s))) ∧
    (∀ p : PhysFn, ((s.pf (physKey p)).pm = .d3hot → gives (.d3hotToD0 p) s (fun t => (t.pf (physKey p)).pm = .d0 ∧
        (p = .pf0 → (t.fn 0).resetting = true))) ∧
      ((s.pf (physKey p)).pm = .d0 → gives (.d3hotToD0 p) s (fun t => t = s))) ∧
    (∀ (f : FnId) (reset : Bool), gives (.priDisable f reset) s (fun t => (t.pf f.val).priEn = ((s.pf f.val).priEn && reset) ∧
      ∀ q ∈ t.xlt.pageReqs, ¬(q.fn = f.val ∧ q.sent = true))) ∧
    (∀ n : Fin 10, gives (.bar4Resize .pf0 false n) s (fun t => t.pcie.bar4Log2 = 30 + n.val ∧ (t.pf 0).dvBase = 0) ∧
      gives (.bar4Resize .c1 false n) s (fun t => t = s) ∧
      gives (.bar4Resize .pf0 true n) s (fun t => t.pcie.vfBar4Log2 = 30 + n.val ∧ ∀ f, 1 ≤ f → f ≤ 63 → fnHalf s f = 0 → (t.pf f).dvBase = 0) ∧
      gives (.bar4Resize .c1 true n) s (fun t => t.pcie.c1Bar4Log2 = 30 + n.val ∧ ∀ f, 1 ≤ f → f ≤ 63 → fnHalf s f = 1 → (t.pf f).dvBase = 0))) ∧
  (∀ (f : LinkFn) (s : State),
    let k := linkKey f
    (absentFn s f → ∀ op, gives (.configRequest f op) s (fun t => t = complete s k .unsupported false [])) ∧
    (¬absentFn s f → s.boot.ready = false ∨ (s.fn k).resetting = true → ∀ op, gives (.configRequest f op) s (fun t => t = complete s k .retry false [])) ∧
    (¬absentFn s f → s.boot.ready = true → (s.fn k).resetting = false →
      (∀ (d : Fin 1024) v, cfgRead s k (4 * d.val) = some v → gives (.configRequest f (.read d)) s (fun t => t = complete s k .success false (natLe 4 v))) ∧
      (∀ d : Fin 1024, cfgRead s k (4 * d.val) = none → gives (.configRequest f (.read d)) s (fun t => t.free = s.free + 1 ∧
        t = complete { s with free := t.free } k .success false (natLe 4 (Config.cfgWord s.free).toNat))) ∧
      (∀ (d : Fin 1024) v, gives (.configRequest f (.write d v)) s (fun t => t = under s (complete (cfgWrite s k (4 * d.val) v.toNat) k .success false []))) ∧
      (∀ v, gives (.configRequest f (.write 65 v)) s (fun t => (t.pf k).aerUr = ((s.pf k).aerUr && !v.toNat.testBit 20) ∧
        (t.pf k).aerTimeout = ((s.pf k).aerTimeout && !v.toNat.testBit 14)))) ∧
    (doeOpen s f →
      (∀ n, gives (.doeObject f (.discovery n)) s (fun t => (t.pf k).doe.rsp = (s.pf k).doe.rsp ++ [doeObj 1 0 (doeDiscover k n.val)])) ∧
      gives (.doeObject f .spdm) s (fun t => t = s) ∧ (k = 0 ∨ k = 64 → gives (.doeObject f .secured) s (fun t => t = s)) ∧
      (∀ m, k ≠ 64 → (s.pf k).doe.dunir ≠ none → gives (.doeObject f (.dunir m)) s (fun t => t = s)) ∧
      (∀ m, k ≠ 64 → (s.pf k).doe.dunir = none → gives (.doeObject f (.dunir m)) s (fun t => (t.pf k).doe.dunir = some m ∧
        (t.pf k).doe.rsp = (s.pf k).doe.rsp)) ∧
      (∀ o : DoeKind, o = .other ∨ o = .tooLong ∨ (o = .secured ∧ k ≠ 0 ∧ k ≠ 64) ∨ (k = 64 ∧ ∃ m, o = .dunir m) →
        gives (.doeObject f o) s (fun t => doeRefused s t k)))) ∧
  (∀ (f : FnId) (off : W64) (s : State),
    (∀ n : Fin 4097, bar4Dpa s f.val off.toNat n.val = none → gives (.bar4Read f off n) s (fun t => t = complete s f.val .unsupported false [])) ∧
    (∀ (n : Fin 4097) a, bar4Dpa s f.val off.toNat n.val = some a →
      ((s.vd f.val).posSealed = true → gives (.bar4Read f off n) s (fun t =>
        t = complete (countLink s f.val n.val) f.val .success false (List.replicate n.val 0xFF))) ∧
      ((s.vd f.val).posSealed = false → (s.fn f.val).xlt.hotDev = 0 →
        ((∀ j < n.val, bytePoison s (s.vdTag f.val) (a + j) = false) → gives (.bar4Read f off n) s (fun t =>
          t = complete (counted s f.val a n.val true false) f.val .success false (readDpaVd s f.val a n.val).1)) ∧
        (∀ j < n.val, bytePoison s (s.vdTag f.val) (a + j) = true → gives (.bar4Read f off n) s (fun t =>
          (t.pf f.val).aerPoisonEgress = true ∧ ∃ r, t.pcie.cpl = some r ∧ r.poison = true ∧ r.status = .success)))) ∧
    (∀ (bs : List Byte) ep, bs.length ≤ 4096 →
      (bar4Dpa s f.val off.toNat bs.length = none → gives (.bar4Write f off bs ep) s (fun t => t = under s (logUr s f.val))) ∧
      (∀ a, bar4Dpa s f.val off.toNat bs.length = some a →
        ((s.vd f.val).posSealed = true → gives (.bar4Write f off bs ep) s (fun t => t.mem = s.mem ∧
          (t.pf f.val).sealedDrops = (s.pf f.val).sealedDrops + 1)) ∧
        ((s.vd f.val).posSealed = false → ep = false → gives (.bar4Write f off bs ep) s (fun t =>
          t = under s (logDev (writeDpaRaw (counted s f.val a bs.length false true) (s.vdTag f.val) a bs false) f.val a bs.length))) ∧
        ((s.vd f.val).posSealed = false → ep = true → gives (.bar4Write f off bs ep) s (fun t => (t.pf f.val).aerPoisonRx = true)))) ∧
    (∀ (bar : BarId) op sz, bar ≠ .bar4 ∨ atomicNew op (sizeOf_ sz) 0 = none ∨ bar4Dpa s f.val off.toNat (sizeOf_ sz) = none ∨ off.toNat % sizeOf_ sz ≠ 0 →
      gives (.bar4Atomic f bar off op sz) s (fun t => t = complete (logUr s f.val) f.val .unsupported false [])) ∧
    (∀ op sz a, bar4Dpa s f.val off.toNat (sizeOf_ sz) = some a → off.toNat % sizeOf_ sz = 0 → (s.vd f.val).posSealed = false →
      (s.fn f.val).xlt.hotDev = 0 → (∀ j < sizeOf_ sz, bytePoison s (s.vdTag f.val) (a + j) = false) →
      ∀ v, atomicNew op (sizeOf_ sz) (leNat (readDpaVd s f.val a (sizeOf_ sz)).1) = some v →
        gives (.bar4Atomic f .bar4 off op sz) s (fun t =>
          t = under s (complete (logDev (writeDpaRaw (counted s f.val a (sizeOf_ sz) true true) (s.vdTag f.val) a (natLe (sizeOf_ sz) v) false)
            f.val a (sizeOf_ sz)) f.val .success false (readDpaVd s f.val a (sizeOf_ sz)).1)))) ∧
  (∀ (g : HostAgent) (c : CplIn) (s : State),
    (c = .success → gives (.deviceReqCompletion g c) s (fun t => t = s)) ∧
    (c ≠ .success → gives (.deviceReqCompletion g c) s (fun t => t = under s (hostReqFails s g)) ∧
      ∀ r x, g = .ring r → s.ring? (refOf r) = some x → s.ready = [] → gives (.deviceReqCompletion g c) s (fun t =>
        t.ring? (refOf r) = some { x with sh := failedShake x.sh } ∧ (t.fn x.fn).gfe.fetchFault = true)) ∧
    gives (.completionTimeout g) s (fun t => t = under s (hostReqFails (s.modPf 0 (fun p => { p with aerTimeout := true })) g)) ∧
    (∀ r x, g = .ring r → s.ring? (refOf r) = some x → s.ready = [] → gives (.completionTimeout g) s (fun t =>
      (t.pf 0).aerTimeout = true ∧ t.ring? (refOf r) = some { x with sh := failedShake x.sh })))

namespace Sys2Proof.Claims

def onlyPow (s t : State) : Prop := t = { s with pow := t.pow }
def anyGlide (s : State) (g : Nat) : Prop := ∃ c ∈ cgCores g, ∃ k ∈ coreEngs c, (s.eng k).glide ≠ none
/-- A reading that is used: in range and near its neighbours. -/
def goodReading (x : SensorRead) (v : Int) : Prop := x = .reading v false ∧ -400 ≤ v ∧ v ≤ 1500
def allRefresh (t : State) : Prop := ∀ n < 8, (t.stack n).selfRefresh = true

end Sys2Proof.Claims

open Sys2Proof.Claims in
/-- Power windows, ticks, points, Glide, hints, sensors and pins act as the power controller's rules say. A window start
counts the window, records the board's power and each rail's readings, puts the written parameters in force, and leaves
every working core group's point, or the one it moves to, at 120 steps or below, 104 without boost. A finished change
of point sets step, voltage and log, only while the reference is valid. A control tick sets each working group's duty,
1 to 16. A reference alarm stops every change; its hold's expiry loses the clock and the stacks refresh themselves; a
valid clock ends it. GLIDE_ENTRY holds the current at the rule's fraction of the prior one, its hold's expiry lets it
ramp. A hint's phase starts, a COMPUTE phase ends the VD's MEMORY windows, a window ends. Good sensor readings are
stored, three discards mark it bad; a powered group at 105 degrees is throttled, below 100 released. Three AVS failures
leave the proxies alone, three PMBus failures lose the rail's control. A trip stops the clocks; THROTTLE_N acts where
an MPIO has it. -/
def Obligations.PowerClocksAndHeat : Prop :=
  (∀ (w : WindowReads) (s : State), gives (.powerWindowStart w) s (fun t => t.pow.window = (s.pow.window + 1) % 2 ^ 32 ∧
    t.pow.board = ((w.power.sum + 10 * s.pow.cur.laserAllow) :: s.pow.board).take 16 ∧ t.pow.cur = s.pow.written ∧ t.pow.hot = [] ∧
    (∀ r < 11, (t.rail r).current = w.amps.getD r 0 ∧ (t.rail r).power = w.power.getD r 0 ∧ (t.rail r).thrLast = (s.rail r).thrCount ∧
      (t.rail r).thrCount = 0 ∧ (t.rail r).hit10 = false) ∧
    (s.pow.ref = .valid → s.pow.tripped = false → ∀ g ∈ workingCgs s, (t.cgPow g).goal.getD (t.cgPow g).step ≤ 120 ∧
      (s.pow.written.boostEn = false → (t.cgPow g).goal.getD (t.cgPow g).step ≤ 104)))) ∧
  (∀ (g : CgId) (s : State),
    (∀ k, (s.cgPow g.val).goal = some k → s.pow.ref = .valid → gives (.opPointChangeDone g) s (fun t =>
      (t.cgPow g.val).step = k ∧ (t.cgPow g.val).volt = pointVolt k ∧ (t.cgPow g.val).goal = none ∧
      t.pow.log = s.pow.log ++ [(g.val, lookD s.pow.cycles g.val 0 / 64, k)] ∧ ∀ h, h ≠ g.val → t.cgPow h = s.cgPow h)) ∧
    ((s.cgPow g.val).goal = none ∨ s.pow.ref ≠ .valid → gives (.opPointChangeDone g) s (fun t => t = s)) ∧
    (anyGlide s g.val → gives (.glideHoldExpiry g) s (fun t => onlyPow s t ∧ t.cgPow g.val = { s.cgPow g.val with ramp := true })) ∧
    (¬anyGlide s g.val → gives (.glideHoldExpiry g) s (fun t => t = s))) ∧
  (∀ (k : RailTick) (s : State), gives (.railControlTick k) s (fun t => t.pow.ticks = s.pow.ticks + 1 ∧
    t = { s with pow := t.pow, trace := t.trace } ∧
    ∀ g, (t.cgPow g).duty = if g ∈ workingCgs s then tickDuty s k g else (s.cgPow g).duty) ∧ ∀ g, 1 ≤ tickDuty s k g ∧ tickDuty s k g ≤ 16) ∧
  (∀ (l : List (CgId × OpStep)) (s : State),
    (s.pow.ref = .valid → gives (.refclkAlarm l) s (fun t => onlyPow s t ∧ t.pow.ref = .alarm ∧ t.pow.alarm.testBit 7 = true ∧ ∀ g, (t.cgPow g).goal = none)) ∧
    (s.pow.ref ≠ .valid → gives (.refclkAlarm l) s (fun t => t = s)) ∧
    (s.pow.ref = .alarm → gives .refclkHoldExpiry s (fun t => t.pow.ref = .lost ∧ allRefresh t) ∧
      gives .refclkValidAgain s (fun t => t = { s with pow := { s.pow with ref := .valid } })) ∧
    (s.pow.ref ≠ .alarm → gives .refclkHoldExpiry s (fun t => t = s) ∧ gives .refclkValidAgain s (fun t => t = s))) ∧
  (∀ (e : EngId) (prior : Fin 1048576) (s : State),
    let g := coreCg (engCore e.val)
    let f := (glideRule s g).1
    (cgPowered s g = true → engWaits s e.val = true → (s.eng e.val).glide = none →
      gives (.glideEntry e prior) s (fun t => t.eng e.val = { s.eng e.val with glide := some (f / 255) } ∧
        (¬anyGlide s g → (t.cgPow g).prior = prior.val ∧ (t.cgPow g).glide = prior.val * f / 4080) ∧
        (anyGlide s g → (t.cgPow g).prior = (s.cgPow g).prior ∧ (t.cgPow g).glide = (s.cgPow g).prior * f / 4080) ∧
        ∀ k, k ≠ e.val → t.eng k = s.eng k)) ∧
    (cgPowered s g = false ∨ engWaits s e.val = false ∨ (s.eng e.val).glide ≠ none → gives (.glideEntry e prior) s (fun t => t = s))) ∧
  (∀ (v : VdId) (n : Fin 4) (m : Fin 8) (s : State),
    (∀ h, (s.hints.filter (fun y => y.vd = v.val && !y.active))[n.val]? = some h → gives (.hintPhaseStart v n) s (fun t =>
      t = { s with hints := t.hints } ∧ t.hints.getLast? = some { h with active := true } ∧ h ∉ t.hints ∧
      (h.phase = 1 → ∀ y ∈ t.hints, y.vd = v.val → y.active = true → y.phase ≠ 2))) ∧
    (∀ h, (s.hints.filter (fun y => y.vd = v.val && y.active))[m.val]? = some h → gives (.hintWindowEnd v m) s (fun t =>
      t = { s with hints := s.hints.erase h })) ∧
    ((s.hints.filter (fun y => y.vd = v.val && !y.active))[n.val]? = none → gives (.hintPhaseStart v n) s (fun t => t = s)) ∧
    ((s.hints.filter (fun y => y.vd = v.val && y.active))[m.val]? = none → gives (.hintWindowEnd v m) s (fun t => t = s))) ∧
  (∀ (d0 d1 : List SensorRead) (temps : List Int) (s : State), gives (.sensorSample d0 d1 temps) s (fun t =>
    (∀ b x, (b = 0 ∧ x = d0 ∨ b = 64 ∧ x = d1) → ∀ n < 64, ∀ y, x[n]? = some y →
      (∀ v, goodReading y v → (t.sensor (b + n)).temp = v ∧ (t.sensor (b + n)).discards = 0 ∧ (t.sensor (b + n)).bad = (s.sensor (b + n)).bad) ∧
      ((∀ v, ¬goodReading y v) → t.sensor (b + n) = { s.sensor (b + n) with
        discards := (s.sensor (b + n)).discards + 1
        bad := (s.sensor (b + n)).bad || decide (2 ≤ (s.sensor (b + n)).discards) })) ∧
    (∀ g < 48, cgPowered s g = true → (1050 ≤ cgTemp t g → (t.cgPow g).therm = true) ∧ (cgTemp t g < 1000 → (t.cgPow g).therm = false)) ∧
    (∀ n, n ∈ t.pow.hbmHot ↔ n < 8 ∧ 950 ≤ temps.getD n 0) ∧ (t.pow.hbmHot ≠ [] → t.pow.alarm.testBit 8 = true))) ∧
  (∀ (r : Fin 4) (s : State),
    gives (.avsSample r none) s (fun t => onlyPow s t ∧ (t.rail r.val).timeouts = (s.rail r.val).timeouts + 1 ∧
      (2 ≤ (s.rail r.val).timeouts → (t.rail r.val).proxyOnly = true ∧ t.pow.alarm.testBit 2 = true)) ∧
    (∀ a : AvsRead, gives (.avsSample r (some a)) s (fun t => onlyPow s t ∧ (t.rail r.val).timeouts = 0 ∧ (t.rail r.val).readMv = a.mv ∧
      (a.mv ≤ (s.rail r.val).setMv + 25 → (s.rail r.val).setMv ≤ a.mv + 25 → (t.rail r.val).off = 0 ∧ (t.rail r.val).voltBad = false) ∧
      ((s.rail r.val).setMv + 25 < a.mv ∨ a.mv + 25 < (s.rail r.val).setMv → (t.rail r.val).off = (s.rail r.val).off + 1 ∧
        (2 ≤ (s.rail r.val).off → (t.rail r.val).voltBad = true ∧ t.pow.alarm.testBit 3 = true))))) ∧
  (∀ (r : RailId) (s : State),
    gives (.pmbusPoll r none) s (fun t => onlyPow s t ∧ (t.rail r.val).pmbusFails = (s.rail r.val).pmbusFails + 1 ∧
      (2 ≤ (s.rail r.val).pmbusFails → (t.rail r.val).comm = false ∧ t.pow.alarm.testBit 4 = true)) ∧
    (∀ a : AvsRead, gives (.pmbusPoll r (some a)) s (fun t => onlyPow s t ∧ (t.rail r.val).pmbusFails = 0 ∧ (t.rail r.val).comm = true ∧
      (t.rail r.val).readMv = a.mv))) ∧
  (∀ (d : DieId) (c : Fin 16) (s : State), gives (.thermalTrip d c) s (fun t => t.pow = { s.pow with tripped := true } ∧ allRefresh t) ∧
    (s.pins.mpio.contains 3 = true → gives .throttleNAssert s (fun t => t = { s with pow := { s.pow with throttleIn := true } }) ∧
      gives .throttleNDeassert s (fun t => t = { s with pow := { s.pow with throttleIn := false } })) ∧
    (s.pins.mpio.contains 3 = false → gives .throttleNAssert s (fun t => t = s) ∧ gives .throttleNDeassert s (fun t => t = s)))

namespace Sys2Proof.Claims

/-- A state with the queue and the pool of another, once an operation's result is answered with OK. -/
def okKept (s s1 : State) (src : DSrc) (q : DReq) (data : List Byte) : State := under s (okAnswer s s1 src q data)
/-- The state once a request is refused with a status and DETAIL. -/
def refusedAnswer (s s1 : State) (src : DSrc) (q : DReq) (st det : Nat) : State :=
  under s (respond (keepRsp s1 q (rspBytes q st (natLe 2 det))) src (rspBytes q st (natLe 2 det)))
def otherLive (s : State) : Prop := ∃ p ∈ s.cmp.vds, p.1 ≠ 0 ∧ p.2.live = true
def lcMay (s : State) (q : DReq) (b : Nat) : Prop := lcAllowed s .operator b = true ∨ (q.role = 3 ∧ lcAllowed s .vendor b = true)
/-- A change of posture is under way: the VD is held and its row says so. -/
def posBegun (s : State) (v : Nat) (secret : Bool) : State :=
  ((setHeld s v).modVd v (fun x => { x with posture := some secret })).modSec (fun c => { c with postSt := put c.postSt v 1 })
def slotGood (s : State) (k : Nat) : Prop := k ∉ s.sec.failedSlots ∧ s.sec.tableFault = false
def blobOk (b : List Byte) : Prop :=
  fieldAt b 0 4 = 0x4B574B50 ∧ fieldAt b 4 2 = 1 ∧ fieldAt b 6 2 = 0 ∧ allZero (sliceB b 121 7) = true ∧ allZero (sliceB b 176 16) = true
/-- The pieces of an unseal's package and of its destination. -/
def pkgAt (s : State) (v ctx src dst : Nat) (hd : List Byte) (sp dp : List (Bool × Nat × Nat)) : Prop :=
  ∃ ps, vdRange s v ctx false src 64 = some ps ∧ hd = (readPieces s v ps).1 ∧ vdRange s v ctx false src (pkgBytes hd) = some sp ∧
    vdRange s v ctx true dst (pkgLen hd) = some dp

end Sys2Proof.Claims

open Sys2Proof.Claims in
/-- The life cycle, postures, sealed weights, the record ring, checkpoints and host time obey their chapters. For a request
past the checks of the dictionary. LC_REQUEST with a verified authorisation, or for SCRAP, of a transition the table
has, with no live VD but VD0, sets the state and runs a cold reset; otherwise it is refused. SVN_COMMIT raises the
counters; REVOCATION burns a key but never the last. A posture write of an absent VD or VD0, or SEALED outside FIELD,
is refused; with contexts or an open request it is noted BUSY; else it begins under a new tag. A good KEY_BLOB of a
SEALED VD fills a slot; UNSEAL of a good package runs, and completes with its load record or fails at the bad chunk.
CONS moves within the records; a first region and an enabled push ring take their rows. A batch closes where leaves
wait and signing can run, CLOSE_BATCH against a token; CHECKPOINT_NOW forms a leaf on an open chain. HOSTCOR T1 keeps
the time, T2 appends it and is refused without T1, a timeout drops it. RNG failure and refills set their state. -/
def Obligations.SecurityAndAudit : Prop :=
  (∀ (src : DSrc) (target : Fin 6) (good : Bool) (s s0 : State) (q : DReq), duAsked s s0 src 0x400101 q →
    ((good = true ∨ target.val = 5) → lcMay s0 q target.val → ¬otherLive s0 → gives (.lcRequest src target good) s (fun t =>
      t = { coldReset (okAnswer s (lcTransit s0 target.val q.data) src q []) 5 with pending := s.pending } ∧ t.otp.lc = target.val)) ∧
    (good = false → target.val ≠ 5 → gives (.lcRequest src target good) s (fun t => t = refusedAnswer s s0 src q duRange 0)) ∧
    ((good = true ∨ target.val = 5) → ¬lcMay s0 q target.val ∨ otherLive s0 → gives (.lcRequest src target good) s (fun t =>
      t = refusedAnswer s s0 src q duState 0))) ∧
  (∀ (src : DSrc) (s s0 : State) (q : DReq),
    (duAsked s s0 src 0x400102 q → leNat q.data = 1 → gives (.svnCommit src) s (fun t => t = okKept s (raiseSvn s0) src q [] ∧
      ∀ n x, s.otp.svn[n]? = some x → ∃ y, t.otp.svn[n]? = some y ∧ x ≤ y ∧ (activeImage s (n + 1)).svn ≤ y)) ∧
    (∀ k : Fin 4, duAsked s s0 src 0x400103 q →
      ((∃ j < 4, j ≠ k.val ∧ j ∉ s0.otp.revoked) → gives (.revocation src (some k)) s (fun t => k.val ∈ t.otp.revoked ∧
        ∀ j, j ≠ k.val → (j ∈ t.otp.revoked ↔ j ∈ s.otp.revoked))) ∧
      ((∀ j < 4, j ≠ k.val → j ∈ s0.otp.revoked) → gives (.revocation src (some k)) s (fun t => t = refusedAnswer s s0 src q duState 0xFFFF))) ∧
    (duAsked s s0 src 0x400103 q → gives (.revocation src none) s (fun t => t = refusedAnswer s s0 src q duRange 0))) ∧
  (∀ (src : DSrc) (s s0 : State) (q : DReq), duAsked s s0 src 0x400201 q → fieldAt q.data 0 1 ≤ 1 → fieldAt q.data 2 2 = 0 →
    let v := q.row
    let secret := decide (fieldAt q.data 0 1 = 1)
    let busy : Prop := s0.fnCtxs v ≠ [] ∨ (s0.vd v).req ≠ none ∨ ((look s0.sec.unseals v).map (·.st)).getD 0 = 1 ∨ (secret = true ∧ windowInto s0 v = true)
    (v = 0 ∨ (s0.vd v).live = false ∨ (secret = true ∧ s0.otp.lc ≠ 2) → gives (.postureWrite src true) s (fun t =>
      t = refusedAnswer s s0 src q duState 0)) ∧
    (v ≠ 0 → (s0.vd v).live = true → (secret = true → s0.otp.lc = 2) → (s0.vd v).posture = none →
      (busy → gives (.postureWrite src true) s (fun t => t = okKept s (postRefused s0 v coBusy) src q [] ∧
        lookD t.sec.postSt v 0 = 3 ∧ lookD t.sec.postWhy v 0 = coBusy)) ∧
      (∀ s1, ¬busy → canKey s0 = true → (secret = true → (s0.vd v).posSealed = false → (freePool s0).isSome = true) →
        issueTag (retireTag (posBegun s0 v secret) v) v = some s1 →
        gives (.postureWrite src true) s (fun t => t = okKept s (postureGo s1 v) src q [])))) ∧
  (∀ (src : DSrc) (s s0 : State) (q : DReq),
    (∀ p k h n, duAsked s s0 src 0x400801 q → (s0.vd q.fn).posSealed = true → (s0.vd q.fn).posture = none → blobOk q.data →
      importSlot s0 q.fn = some p → slotGood s0 p.1 → (List.range 8).find? (fun h => !((modelSlots s0 q.fn).map (·.2.handle)).contains h) = some h →
      freePool s0 = some n → gives (.keyBlob src true (some k)) s (fun t => ∃ x, look t.sec.slots n = some x ∧ x.key = sliceB k 0 32 ∧ x.type = 3 ∧
        x.owner = q.fn ∧ x.model = sliceB q.data 8 16 ∧ x.handle = h ∧ t = okKept s (setSlot s0 n x) src q (natLe 1 h))) ∧
    (∀ y k hd sp dp, duAsked s s0 src 0x400802 q →
      let v := q.fn
      let ctx := fieldAt q.data 0 2
      let u : Unseal := { st := 1, ctx := ctx, handle := fieldAt q.data 2 1, src := fieldAt q.data 8 8, dst := fieldAt q.data 16 8 }
      fieldAt q.data 3 1 = 0 → fieldAt q.data 4 4 = 0 → ctx ≤ 4095 → u.handle ≤ 7 → u.src % 64 = 0 → u.dst % 65536 = 0 →
      ((look s0.sec.unseals v).map (·.st)).getD 0 ≠ 1 → (s0.vd v).posture = none → s0.ctx? v ctx = some y → y.st = .live →
      modelKey s0 v u.handle = some k → slotGood s0 k.1 → pkgAt s0 v ctx u.src u.dst hd sp dp → pkgOk hd = true →
      sliceB hd 8 16 = k.2.model → overlap u.src (pkgBytes hd) u.dst (pkgLen hd) = false →
      gives (.unsealStart src true) s (fun t => t = okKept s (s0.modSec (fun c => { c with unseals := put c.unseals v u })) src q [] ∧
        look t.sec.unseals v = some u))) ∧
  (∀ (v : VdId) (s : State) (u : Unseal), look s.sec.unseals v.val = some u →
    (u.st ≠ 1 → ∀ bad, gives (.unsealComplete v bad) s (fun t => t = s)) ∧
    (∀ k hd sp dp, u.st = 1 → modelKey s v.val u.handle = some k → pkgAt s v.val u.ctx u.src u.dst hd sp dp → s.ready = [] →
      (chainTakes s v.val → gives (.unsealComplete v none) s (fun t => (t.chain v.val).seq = (s.chain v.val).seq + 1 ∧
        look t.sec.unseals v.val = some { u with st := 2, seq := (s.chain v.val).seq } ∧
        (t.chain v.val).loads.length = (s.chain v.val).loads.length + 1)) ∧
      (∀ n : W32, n.toNat < pkgChunks hd → gives (.unsealComplete v (some n)) s (fun t => look t.sec.unseals v.val = some { u with st := 3 })))) ∧
  (∀ (x : W64) (s : State), fnOpen s 0 = true → s.ready = [] →
    let v := s.sec.amberSel
    let c := s.chain v
    (c.cons ≤ x.toNat → x.toNat ≤ c.seq → c.held = [] → c.push.en = false → gives (.amberConsWrite x) s (fun t =>
      t = s.modChain v (fun c => { c with cons := x.toNat }))) ∧
    (x.toNat < c.cons ∨ c.seq < x.toNat → gives (.amberConsWrite x) s (fun t => t = s))) ∧
  (∀ (src : DSrc) (s s0 : State) (q : DReq), s.ready = [] →
    let v := q.row
    let c := s.chain v
    (duAsked s s0 src 0x400301 q →
      let a := fieldAt q.data 0 8
      let k := fieldAt q.data 8 1
      v ≠ 0 → (s0.vd v).live = false → allZero (sliceB q.data 10 6) = true → 22 ≤ k → k ≤ 32 → fieldAt q.data 9 1 ≤ 1 → a % 65536 = 0 →
      inVd0 s0 a (regionBytes k) = true → regionClash s0 v 2 a (regionBytes k) = false → c.sizeLog2 ≠ k →
      gives (.amberRegionWrite src) s (fun t => t.chain v = { c with dpa := a, sizeLog2 := k, drop := decide (fieldAt q.data 9 1 = 1) } ∧
        t.pool = s.pool)) ∧
    (duAsked s s0 src 0x400501 q → fieldAt q.data 12 4 = 0 → 6 ≤ fieldAt q.data 8 1 → fieldAt q.data 8 1 ≤ 20 → fieldAt q.data 10 2 ≤ 63 →
      fieldAt q.data 9 1 = 1 → c.push.en = false → c.held = [] → fieldAt q.data 16 8 ≤ c.seq →
      gives (.pushWrite src) s (fun t => t.chain v = { c with push := { en := true, base := fieldAt q.data 0 8, log2 := fieldAt q.data 8 1, vector := fieldAt q.data 10 2, pos := c.seq, cons := c.seq } } ∧
        t.pool = s.pool))) ∧
  (∀ s : State, (batchVds s ≠ [] → canSign s = true → gives .batchClose s (fun t => t.flash.batchNo = s.flash.batchNo + 1)) ∧
    (batchVds s = [] ∨ canSign s = false → gives .batchClose s (fun t => t = s)) ∧
    gives .rngHealthFail s (fun t => t = { s with sec := { s.sec with rngFault := true } }) ∧
    (∀ v : VdId, v.val = 0 → gives (.tokenRefill v) s (fun t => t = { s with sec := { s.sec with shared := min 256 (s.sec.shared + 1) } })) ∧
    (∀ v : VdId, v.val ≠ 0 → gives (.tokenRefill v) s (fun t => t = { s with sec := { s.sec with tokens := t.sec.tokens } } ∧
      lookD t.sec.tokens v.val 0 = min 16 (lookD s.sec.tokens v.val 0 + 1)))) ∧
  (∀ (src : DSrc) (s s0 : State) (q : DReq),
    (duAsked s s0 src 0x400303 q → leNat q.data = 1 → (batchVds s0 = [] → gives (.closeBatch src) s (fun t => t = okKept s s0 src q [])) ∧
      (batchVds s0 ≠ [] → takeToken s0 0 = none → gives (.closeBatch src) s (fun t => t = refusedAnswer s s0 src q duBusy 0)) ∧
      (∀ s1 s2, batchVds s0 ≠ [] → takeToken s0 0 = some s1 → signBatch s1 = some s2 → gives (.closeBatch src) s (fun t =>
        t = okKept s s2 src q [] ∧ t.flash.batchNo = s.flash.batchNo + 1))) ∧
    (duAsked s s0 src 0x400401 q → leNat q.data = 1 →
      ((s0.chain q.row).opened = true → (s0.chain q.row).closed = false → gives (.checkpointNow src) s (fun t =>
        t = okKept s (formLeaf s0 q.row 1) src q [] ∧ (t.chain q.row).lastLeaf = (t.chain q.row).seq)) ∧
      ((s0.chain q.row).opened = false ∨ (s0.chain q.row).closed = true → gives (.checkpointNow src) s (fun t =>
        t = refusedAnswer s s0 src q duState 0))) ∧
    (duAsked s s0 src 0x400701 q → gives (.hostcorT1 src) s (fun t =>
      (t.chain (ownVd q)).hostcor = some (fieldAt q.data 0 8, s.s0, fieldAt q.data 8 4) ∧
      t = okKept s (s0.modChain (ownVd q) (fun c => { c with hostcor := some (fieldAt q.data 0 8, s.s0, fieldAt q.data 8 4) })) src q (natLe 8 s.s0))) ∧
    (duAsked s s0 src 0x400702 q →
      ((s0.chain (ownVd q)).hostcor = none → gives (.hostcorT2 src) s (fun t => t = refusedAnswer s s0 src q duState 0)) ∧
      (∀ x, (s0.chain (ownVd q)).hostcor = some x → chainTakes s0 (ownVd q) → gives (.hostcorT2 src) s (fun t =>
        (t.chain (ownVd q)).hostcor = none ∧ (t.chain (ownVd q)).seq = (s.chain (ownVd q)).seq + 1))) ∧
    (∀ v : VdId, gives (.hostcorTimeout v) s (fun t => t = { s with chains := t.chains } ∧ t.chain v.val = { s.chain v.val with hostcor := none })))

namespace Sys2Proof.Claims

/-- The device answers SPDM at an end. -/
def spdmOn (s : State) (w : SpdmEnd) : Prop :=
  s.boot.ready = true ∧ s.otp.lc ≠ 0 ∧ s.otp.lc ≠ 5 ∧
    match w with
    | .fn f => f.val = 0 ∨ vfOn s f.val = true
    | .c1 => s.pcie.split = true
    | .mctp _ => True
/-- A response goes out with the connection as given, and nothing else than Garnet changes. -/
def speaksWith (c : Instr) (s : State) (w : SpdmEnd) (r : SpdmRsp) (x : SpdmConn) : Prop :=
  gives c s (fun t => t = { s with sec := t.sec } ∧ t.sec.spdmOut = some (w, r) ∧ spdmConn t w = x ∧ t.sec.slots = s.sec.slots ∧
    t.sec.shared = s.sec.shared ∧ t.sec.tokens = s.sec.tokens)
def speaks (c : Instr) (s : State) (w : SpdmEnd) (r : SpdmRsp) : Prop := speaksWith c s w r (spdmConn s w)
/-- A response that needs a signature over a message. -/
def signsFor (c : Instr) (s : State) (w : SpdmEnd) (msg : List Byte) (x : SpdmConn) (r : List Byte × List Byte → SpdmRsp) : Prop :=
  (takeToken s (spdmBucket w) = none → speaks c s w (.error .busy)) ∧
  (∀ t1, takeToken s (spdmBucket w) = some t1 → signPair t1 msg = none → speaks c s w (.error .unspecified)) ∧
  (∀ t1 a b s1, takeToken s (spdmBucket w) = some t1 → signPair t1 msg = some (a, b, s1) → gives c s (fun t =>
    t.sec.spdmOut = some (w, r (a, b)) ∧ spdmConn t w = x ∧ t.otp.hssTop = s1.otp.hssTop ∧ t.sec.lower = s1.sec.lower ∧
    t.flash.hssRes = s1.flash.hssRes ∧ t.sec.shared = s1.sec.shared ∧ t.sec.tokens = s1.sec.tokens))

end Sys2Proof.Claims

open Sys2Proof.Claims in
/-- The responder negotiates, gives certificates and measurements, signs against tokens and keeps sessions. Where the
device answers SPDM nothing but Garnet changes; elsewhere a message changes nothing, and one that comes before its
place in the negotiation is answered Unexpected Request. GET_VERSION starts anew with 1.2 and 1.3; capabilities in
either and the one suite advance the connection, others are Invalid. Digests of both chains, and portions of slot 0 or
1 with what is left, are given; other slots are Invalid. CHALLENGE, signed measurements and KEY_EXCHANGE take a token
and a signature: without a token they are Busy, without a signature an error. Measurements name only the requester's
VDs; signed ones are Busy while a named VD changes posture. KEY_EXCHANGE opens the lowest of 8 sessions or reports the
limit; FINISH establishes or ends it; KEY_UPDATE counts, HEARTBEAT is answered and END_SESSION ends an established
session, others are Unexpected. Chunks are gathered and counted. -/
def Obligations.SpdmConnectionsAndSessions : Prop :=
  ∀ (w : SpdmEnd) (s : State),
    let c := spdmConn s w
    (¬spdmOn s w → ∀ (m : Fin 16) (b : Bool) (sl n : Fin 8) (o l : W16) (x : List Byte) (a : MeasAsk) (k : SpdmChunk),
      ∀ i ∈ [Instr.spdmGetVersion w, .spdmGetCapabilities w m, .spdmNegotiateAlgorithms w b, .spdmGetDigests w, .spdmGetCertificate w sl o l, .spdmChallenge w sl x, .spdmGetMeasurements w a b x, .spdmKeyExchange w x, .spdmFinish w n b, .spdmKeyUpdate w n, .spdmHeartbeat w n, .spdmEndSession w n, .spdmChunk w k],
        gives i s (fun t => t = s)) ∧
    (spdmOn s w →
      speaksWith (.spdmGetVersion w) s w (.version [0x12, 0x13]) { stage := 1 } ∧
      (c.stage < 1 → ∀ m, speaks (.spdmGetCapabilities w m) s w (.error .unexpected)) ∧
      (1 ≤ c.stage → ∀ m : Fin 16, ((m.val = 2 ∨ m.val = 3) → speaksWith (.spdmGetCapabilities w m) s w .capabilities { c with stage := 2, minor := m.val }) ∧
        (m.val ≠ 2 → m.val ≠ 3 → speaks (.spdmGetCapabilities w m) s w (.error .invalid))) ∧
      (c.stage < 2 → (∀ b, speaks (.spdmNegotiateAlgorithms w b) s w (.error .unexpected)) ∧ ∀ k, speaks (.spdmChunk w k) s w (.error .unexpected)) ∧
      (2 ≤ c.stage → speaksWith (.spdmNegotiateAlgorithms w true) s w .algorithms { c with stage := 3 } ∧
        speaks (.spdmNegotiateAlgorithms w false) s w (.error .invalid) ∧
        (∀ x, speaksWith (.spdmChunk w (.send false x)) s w (.chunkSendAck c.chunks) { c with large := c.large ++ x, chunks := c.chunks + 1 }) ∧
        (∀ x, speaksWith (.spdmChunk w (.send true x)) s w (.chunkSendAck c.chunks) { c with large := [], chunks := 0 }) ∧
        speaksWith (.spdmChunk w .get) s w (.chunkResponse c.chunks) { c with chunks := c.chunks + 1 }) ∧
      (c.stage < 3 → ∀ (b : Bool) (sl n : Fin 8) (o l : W16) (x : List Byte) (a : MeasAsk),
        ∀ i ∈ [Instr.spdmGetDigests w, .spdmGetCertificate w sl o l, .spdmChallenge w sl x, .spdmGetMeasurements w a b x, .spdmKeyExchange w x, .spdmFinish w n b, .spdmKeyUpdate w n, .spdmHeartbeat w n, .spdmEndSession w n],
          speaks i s w (.error .unexpected)) ∧
      (3 ≤ c.stage →
        speaks (.spdmGetDigests w) s w (.digests [sha384 (Config.certChain 0 s.otp.lc), sha384 (Config.certChain 1 s.otp.lc)]) ∧
        (∀ (sl : Fin 8) (o l : W16),
          let d := Config.certChain sl.val s.otp.lc
          (1 < sl.val ∨ d.length < o.toNat → speaks (.spdmGetCertificate w sl o l) s w (.error .invalid)) ∧
          (sl.val ≤ 1 → o.toNat ≤ d.length → speaks (.spdmGetCertificate w sl o l) s w
            (.certificate ((d.drop o.toNat).take l.toNat) (d.length - (o.toNat + l.toNat))))) ∧
        (∀ (sl : Fin 8) x, (1 < sl.val → speaks (.spdmChallenge w sl x) s w (.error .invalid)) ∧
          (sl.val ≤ 1 → signsFor (.spdmChallenge w sl x) s w (x ++ (List.range 9).flatMap (fun k => (measOne s w (k + 1)).flatten)) c
            (fun g => .challengeAuth sl.val g))) ∧
        (∀ (a : MeasAsk) x,
          let blocks := (askIndices a).flatMap (measOne s w)
          speaks (.spdmGetMeasurements w a false x) s w (.measurements blocks none) ∧
          ((∃ v ∈ visibleVds s w, 0x20 + v ∈ askIndices a ∧ (s.vd v).posture ≠ none) → speaks (.spdmGetMeasurements w a true x) s w (.error .busy)) ∧
          ((∀ v ∈ visibleVds s w, 0x20 + v ∈ askIndices a → (s.vd v).posture = none) →
            signsFor (.spdmGetMeasurements w a true x) s w (x ++ blocks.flatten) c (fun g => .measurements blocks (some g)))) ∧
        (∀ x, (lowestFree c.sessions 0 8 = none → speaks (.spdmKeyExchange w x) s w (.error .sessionLimit)) ∧
          (∀ n, lowestFree c.sessions 0 8 = some n → (canKey s = false → speaks (.spdmKeyExchange w x) s w (.error .unspecified)) ∧
            (canKey s = true → signsFor (.spdmKeyExchange w x) s w x { c with sessions := put c.sessions n (false, 0) } (fun g => .keyExchange n g)))) ∧
        (∀ n : Fin 8,
          (∀ g, look c.sessions n.val = some (false, g) →
            speaksWith (.spdmFinish w n true) s w (.finish n.val) { c with sessions := put c.sessions n.val (true, g) } ∧
            speaksWith (.spdmFinish w n false) s w (.error .unspecified) { c with sessions := del c.sessions n.val }) ∧
          (∀ g, look c.sessions n.val = some (true, g) →
            speaksWith (.spdmKeyUpdate w n) s w (.keyUpdateAck n.val) { c with sessions := put c.sessions n.val (true, g + 1) } ∧
            speaks (.spdmHeartbeat w n) s w (.heartbeatAck n.val) ∧
            speaksWith (.spdmEndSession w n) s w (.endSessionAck n.val) { c with sessions := del c.sessions n.val } ∧
            ∀ b, speaks (.spdmFinish w n b) s w (.error .unexpected)) ∧
          ((∀ g, look c.sessions n.val ≠ some (true, g)) → ∀ i ∈ [Instr.spdmKeyUpdate w n, .spdmHeartbeat w n, .spdmEndSession w n],
            speaks i s w (.error .unexpected)) ∧
          (look c.sessions n.val = none → ∀ b, speaks (.spdmFinish w n b) s w (.error .unexpected)))))

namespace Sys2Proof.Claims

def bootOpen (s : State) (n : Nat) : Prop :=
  s.boot.running = true ∧ s.boot.halted = false ∧ n ∉ s.boot.done ∧ ∀ m ∈ bootAfter n, m ∈ s.boot.done
/-- A step has ended with one journal entry that carries its outcome. -/
def stepEnded (s t : State) (n out : Nat) : Prop :=
  t.boot.done = s.boot.done ++ [n] ∧ t.boot.halted = decide (out = 4) ∧ t.flash.nextEntry = s.flash.nextEntry + 1 ∧
    ∃ b, look t.flash.journal (s.flash.nextEntry % 65536) = some b ∧ fieldAt b 13 1 = n ∧ fieldAt b 15 1 = out
/-- A step has ended with an entry for each unit it degraded. -/
def stepEndedUnits (s t : State) (n : Nat) : Prop :=
  t.boot.done = s.boot.done ++ [n] ∧ t.boot.halted = false ∧ s.flash.nextEntry < t.flash.nextEntry
def bootCmd : Instr → Option Nat
  | .bootRom _ _ => some 1
  | .bootPufKeys _ _ _ => some 2
  | .bootImageVerify _ => some 3
  | .bootMgmtFirmware _ _ _ _ => some 4
  | .bootPlls _ _ _ _ => some 5
  | .bootHbmTraining _ _ _ => some 6
  | .bootCoreBist _ _ _ _ => some 7
  | .bootPcie _ _ _ _ => some 8
  | .bootPhotonics _ _ _ => some 9
  | .bootTalko _ => some 10
  | .bootCompositionRestore _ _ _ => some 11
  | .bootReady _ => some 12
  | _ => none
def allPairs (n : Nat) : BitVec 64 := stackPairs (BitVec.ofNat 8 (2 ^ n))
def halfRuns (s t : State) (h : Nat) (r : HalfRun) (held : Bool) : Prop :=
  (∀ rate width flit, r = .trained rate width flit → held = false → (t.half h).up = true ∧ (t.half h).rate = rateOf rate ∧
    (t.half h).width = if s.pcie.split then min (widthOf width) 8 else widthOf width) ∧
  ((∀ rate width flit, r ≠ .trained rate width flit) ∨ held = true → t.half h = s.half h)

end Sys2Proof.Claims

open Sys2Proof.Claims in
/-- Each boot step runs once, after the steps it comes after, does its work, and is journalled with its outcome. A boot
step does nothing unless a start runs that has not halted, the step has not ended, and every step it comes after has.
Else it ends: it counts as done and stands in the journal. ROM, three failed readouts of the PUF, two bad image sets, a
second failed start of Beryl with no good other set, an unserved PLL and a router map beyond repair halt the start.
Step 2 derives the four root keys, starts the HSS indices at their reservation and fails bad slots. Step 3 rejects a
trial set that was tried before and starts from a set that passes every check. Step 4 notes a bad table tag. Step 5
fences the groups and stacks whose PLLs fail. Step 6 trains stacks in full at the bin they start at; pairs of trained
stacks that are not fenced are ready, and rows that could not be repaired stay. Step 7 fences what fails. Step 8 brings
a half up where its host lets it. Step 9 lights or fails each tile. Step 10 trains the ports of tiles that are up, or
is skipped. Step 12 opens the host functions, confirms the set, and raises the counters at its second start in a row. -/
def Obligations.BootStepsRunInOrder : Prop :=
  (∀ (c : Instr) (n : Nat) (s : State), bootCmd c = some n → ¬bootOpen s n → gives c s (fun t => t = s)) ∧
  (∀ (ok : Bool) (us : W32) (s : State), bootOpen s 1 → gives (.bootRom ok us) s (fun t => stepEnded s t 1 (if ok then 0 else 4) ∧
    t = { s with boot := t.boot, flash := t.flash, free := t.free })) ∧
  (∀ (fails : Fin 4) (bad : List (Fin 128)) (us : W32) (s : State), bootOpen s 2 →
    (fails.val = 3 → gives (.bootPufKeys fails bad us) s (fun t => stepEnded s t 2 4 ∧ t.sec = s.sec)) ∧
    (fails.val ≠ 3 → s.otp.lc = 0 → gives (.bootPufKeys fails bad us) s (fun t => stepEnded s t 2 0 ∧ t.sec = s.sec)) ∧
    (fails.val ≠ 3 → s.otp.lc ≠ 0 → gives (.bootPufKeys fails bad us) s (fun t => stepEnded s t 2 0 ∧ t.sec.rootOk = true ∧
      t.sec.lower = s.flash.hssRes ∧
      (∀ p ∈ [(0, 48), (1, 48), (2, 48), (3, 32)], ∃ x, look t.sec.slots p.1 = some x ∧ x.key = sliceB (Config.rootKey s.otp.lc s.otp.transitions p.1) 0 p.2) ∧
      ∀ k ∈ bad, has s.sec.slots k.val = true → k.val ∈ t.sec.failedSlots))) ∧
  (∀ (us : W32) (s : State), bootOpen s 3 → gives (.bootImageVerify us) s (fun t => t = { s with boot := t.boot, flash := t.flash, free := t.free } ∧
    t.boot.done = s.boot.done ++ [3] ∧ (t.boot.halted = false → t.boot.active < 2 ∧ imgSetOk t t.boot.active = true) ∧
    (t.boot.halted = true → ∀ i < 2, imgSetOk t i = false) ∧
    (s.boot.kind ≠ 2 → ∀ i < 2, ∀ x, s.flash.sets[i]? = some x → x.trial = true → x.tried = true → (t.flash.sets.getD i {}).rejected = true))) ∧
  (∀ (fails : Fin 3) (other tagsOk : Bool) (us : W32) (s : State), bootOpen s 4 →
    (fails.val < 2 → gives (.bootMgmtFirmware fails other tagsOk us) s (fun t => stepEnded s t 4 0 ∧ t.boot.active = s.boot.active ∧
      t.sec.tableFault = (s.sec.tableFault || !tagsOk))) ∧
    (fails.val = 2 → other = true → imgSetOk s (1 - s.boot.active) = true → gives (.bootMgmtFirmware fails other tagsOk us) s (fun t =>
      stepEnded s t 4 3 ∧ t.boot.active = 1 - s.boot.active ∧ t.sec.tableFault = (s.sec.tableFault || !tagsOk))) ∧
    (fails.val = 2 → other = false ∨ imgSetOk s (1 - s.boot.active) = false → gives (.bootMgmtFirmware fails other tagsOk us) s (fun t =>
      stepEnded s t 4 4))) ∧
  (∀ (cgBad : BitVec 48) (stackBad : BitVec 8) (us : W32) (s : State), bootOpen s 5 →
    gives (.bootPlls cgBad stackBad true us) s (fun t => stepEnded s t 5 4 ∧ t.pool = s.pool ∧ t.pow = s.pow) ∧
    gives (.bootPlls cgBad stackBad false us) s (fun t => stepEndedUnits s t 5 ∧ t.pow.locked = true ∧
      t.pool = { s.pool with cgFenced := s.pool.cgFenced ||| cgBad, pairFenced := s.pool.pairFenced ||| stackPairs stackBad })) ∧
  (∀ (runs : List HbmRun) (left : List (ChanId × Fin 2 × W32)) (us : W32) (s : State), bootOpen s 6 →
    gives (.bootHbmTraining runs left us) s (fun t => stepEndedUnits s t 6 ∧
      t.pool.pairReady = stackPairs (BitVec.ofNat 8 (maskOf ((List.range 8).filter (fun n => (t.stack n).trained)))) &&& ~~~ t.pool.pairFenced ∧
      s.pool.pairFenced &&& t.pool.pairFenced = s.pool.pairFenced ∧
      (∀ p ∈ t.flash.repairs, p ∈ s.flash.repairs ∧ ∃ q ∈ left, q.1.val = p.1) ∧
      ∀ n < 8, ∀ r, (s.stack n).record = none → runs[n]? = some r → r.fails.val = 0 → wantBin s n ≤ 2 → s.pool.pairFenced &&& allPairs n ≠ allPairs n →
        (t.stack n).trained = true ∧ (t.stack n).bin = wantBin s n ∧ (t.stack n).serial = r.serial.toNat ∧ (t.stack n).record.isSome = true)) ∧
  (∀ (cgBad : BitVec 48) (routers : List CoreId) (eng : List (CoreId × BitVec 8)) (us : W32) (s : State), bootOpen s 7 →
    gives (.bootCoreBist cgBad routers eng us) s (fun t => t.boot.done = s.boot.done ++ [7] ∧ t.pool.cgReady = BitVec.ofNat 48 cgFused ∧
      (∀ g < 48, cgBit t.pool.cgFenced g = (cgBit s.pool.cgFenced g || (BitVec.ofNat 48 cgFused).getLsbD g &&
        (cgBad.getLsbD g || (routers.map (fun r => coreCg r.val)).contains g))) ∧
      (∀ n, n ∈ t.net.fenced ↔ n ∈ routers.map (·.val)) ∧ t.boot.halted = !bypassOk t.net.fenced ∧
      ∀ c m, eng = [(c, m)] → (t.core c.val).engOk = ~~~ m)) ∧
  (∀ (h0 h1 : HalfRun) (k : BitVec 8) (us : W32) (s : State), bootOpen s 8 → s.pcie.halves.length = 2 → gives (.bootPcie h0 h1 k us) s (fun t =>
    t.boot.done = s.boot.done ++ [8] ∧ t.boot.halted = false ∧ halfRuns s t 0 h0 s.boot.perst0 ∧
    (s.pcie.split = true → halfRuns s t 1 h1 s.boot.perst1) ∧ (s.pcie.split = false → t.half 1 = s.half 1))) ∧
  (∀ (tiles : List LaserRun) (bad : List (PortId × Fin 512)) (us : W32) (s : State), bootOpen s 9 → gives (.bootPhotonics tiles bad us) s (fun t =>
    stepEndedUnits s t 9 ∧
    (∀ n < 4, tiles[n]? = some .waiting → lookD t.talko.lasers n {} = { enabled := true }) ∧
    (∀ n < 4, ∀ l, tiles[n]? = some (.locked l) → lookD t.talko.lasers n {} = { enabled := true, locked := true, lines := (List.range 9).map (fun k => { failed := !l.val.testBit k }) }) ∧
    (∀ n < 4, tiles[n]? = some .failed → (lookD t.talko.lasers n {}).failed = true ∧
      ∀ p ∈ tilePorts n, (t.port p).st = .down ∧ (t.port p).reason = 8))) ∧
  (∀ (us : W32) (s : State), bootOpen s 10 →
    let d := if s.boot.kind = 2 then s.talko.devId else objValue s 0x5000 1 0xFFFF
    (4095 < d → gives (.bootTalko us) s (fun t => stepEnded s t 10 1 ∧ t.talko = { s.talko with devId := d })) ∧
    (d ≤ 4095 → gives (.bootTalko us) s (fun t => stepEndedUnits s t 10 ∧ t.talko.devId = d ∧
      ∀ p < 24, (tileUp s (p / 6) = true → (t.port p).st = .training ∧ (t.port p).session = false) ∧
        (tileUp s (p / 6) = false → t.port p = s.port p)))) ∧
  (∀ (seeds fill : BitVec 64) (us : W32) (s : State), bootOpen s 11 → gives (.bootCompositionRestore seeds fill us) s (fun t =>
    stepEndedUnits s t 11 ∧ (t.vd 0).live = true ∧ (∀ v, v ≠ 0 → (s.vd v).live = true → (s.vd v).teardown = true → (t.vd v).live = false))) ∧
  (∀ (us : W32) (s : State), bootOpen s 12 → gives (.bootReady us) s (fun t => stepEnded s t 12 0 ∧ t.boot.ready = true ∧
    (∀ x, s.flash.sets[s.boot.active]? = some x → t.flash.sets[s.boot.active]? = some { x with trial := false, tried := false, streak := s.flash.startNo }) ∧
    (s.flash.startNo < 2 ∨ (activeSet s).streak + 1 ≠ s.flash.startNo → t.otp = s.otp) ∧
    (2 ≤ s.flash.startNo → (activeSet s).streak + 1 = s.flash.startNo → ∀ n x, s.otp.svn[n]? = some x →
      ∃ y, t.otp.svn[n]? = some y ∧ x ≤ y ∧ (activeImage s (n + 1)).svn ≤ y)))

namespace Sys2Proof.Claims

def sliceIs (x : Slice) : BitVec 48 × BitVec 64 × BitVec 24 × Bool × SliceSt := (x.cgs, x.pairs, x.ports, x.isShared, x.st)
def slicesKept (s t : State) : Prop := ∀ k, (look t.pool.slices k).map sliceIs = (look s.pool.slices k).map sliceIs
/-- A cold reset of a state for a cause. -/
def coldState (s t : State) (cause : Nat) : Prop :=
  t.cores = [] ∧ t.engs = [] ∧ t.gfe = {} ∧ t.obj = {} ∧ t.fns = [] ∧ t.xlt = {} ∧ t.ready = [] ∧ t.mem.hbm = [] ∧ t.s0 = 0 ∧
    t.boot.kind = 1 ∧ t.boot.cause = cause ∧ t.boot.done = [] ∧ t.boot.ready = false ∧ t.boot.halted = false ∧
    t.boot.running = (s.boot.pwrOk && !s.boot.devRst) ∧ t.flash.startNo = (if t.boot.running then s.flash.startNo + 1 else s.flash.startNo) ∧
    t.otp = s.otp ∧ t.flash.objs = s.flash.objs ∧ t.flash.journal = s.flash.journal ∧ t.host = s.host ∧ slicesKept s t ∧
    t.pool.cgFenced = 0 ∧ t.pool.pairFenced = 0
/-- A warm reset of a state for a cause. -/
def warmState (s t : State) (cause : Nat) : Prop :=
  t.gfe = {} ∧ t.obj = {} ∧ t.fns = [] ∧ t.xlt = {} ∧ t.ready = [] ∧ t.hints = [] ∧ t.boot.kind = 2 ∧ t.boot.cause = cause ∧
    t.boot.running = true ∧ t.boot.ready = false ∧ t.boot.halted = false ∧ t.boot.done = (if 7 ∈ s.boot.done then [1, 7] else [1]) ∧
    t.flash.startNo = s.flash.startNo + 1 ∧ t.otp = s.otp ∧ t.flash.objs = s.flash.objs ∧ slicesKept s t ∧
    t.pool.cgFenced = s.pool.cgFenced ∧ t.pool.pairFenced = s.pool.pairFenced ∧ allRefresh t ∧
    (s.boot.ready = false → t.mem.hbm = s.mem.hbm ∧ t.s0 = s.s0 ∧ ∀ c, (t.core c).sp = (s.core c).sp)
def warmMerges (s : State) : Prop := s.boot.running = false ∨ (s.boot.kind = 2 ∧ s.boot.ready = false ∧ s.boot.halted = false)
/-- What a warm reset with a cause makes of a state. -/
def warmGives (c : Instr) (s : State) (cause : Nat) : Prop :=
  (¬warmMerges s → s.net.unroutable = false → gives c s (fun t => warmState s t cause)) ∧
  (¬warmMerges s → s.net.unroutable = true → gives c s (fun t => coldState s t 6))
def mayStart (s : State) : Prop := s.boot.pwrOk = true ∧ s.boot.devRst = false ∧ s.boot.perst0 = false ∧ s.boot.running = false
/-- A start begins where it may. -/
def startOr (s t : State) : Prop :=
  (mayStart s → t = { s with boot := { s.boot with running := true, done := if s.boot.kind = 2 then [1] else [] }, flash := t.flash } ∧
    t.flash.startNo = s.flash.startNo + 1 ∧ t.flash.objs = s.flash.objs) ∧ (¬mayStart s → t = s)
def withBoot (s : State) (f : Boot → Boot) : State := { s with boot := f s.boot }

end Sys2Proof.Claims

open Sys2Proof.Claims in
/-- Cold and warm resets of the device destroy and keep what the spec lists, by every trigger and pin. A cold reset (reset
input, lost reference, trip, loss of power, request) leaves no core, engine, context, queue or byte of device memory,
the counters of the start at zero, the slices with their units and states, OTP and the persistent objects; a start
begins at once only where power is good and the reset input is released, and is numbered. A warm reset (PERST0,
request, watchdogs, a table fault, an error in control state) of a running device takes function and queue state away,
keeps slices, fenced units, OTP and persistent objects, starts at step 2 with step 7 kept where it had ended, refreshes
every stack, and keeps device memory, scratchpads and the S0 count; during another warm start it merges, under
NET_UNROUTABLE it is a cold reset with cause 6. A pin's release or good power begins a start once all is released. A
first missed heartbeat is noted, a second within 1 s resets. Reset requests answer first; a request for a core resets
it, or is refused where it is off or fenced. (The keeping of memory is stated for a start that is not yet READY; before
READY nothing is flushed.) -/
def Obligations.DeviceResetsKeepWhatTheyMust : Prop :=
  (∀ s : State, gives (.coldReset .devRst) s (fun t => coldState (withBoot s (fun b => { b with devRst := true })) t 1) ∧
    (s.pow.ref = .lost → gives (.coldReset .refLoss) s (fun t => coldState s t 3)) ∧ (s.pow.ref ≠ .lost → gives (.coldReset .refLoss) s (fun t => t = s)) ∧
    (s.pow.tripped = true → gives (.coldReset .trip) s (fun t => coldState s t 4)) ∧ (s.pow.tripped = false → gives (.coldReset .trip) s (fun t => t = s)) ∧
    gives .pwrOkDeassert s (fun t => coldState (withBoot s (fun b => { b with pwrOk := false })) t 1)) ∧
  (∀ s : State, warmGives (.warmReset .request) s 2 ∧ warmGives (.warmReset .watchdog) s 3 ∧ warmGives .crossWatchdogTimeout s 3 ∧
    (s.sec.tableFault = true → warmGives (.warmReset .tableFault) s 4) ∧ (s.sec.tableFault = false → gives (.warmReset .tableFault) s (fun t => t = s)) ∧
    (s.boot.devRst = false → warmGives (.perstAssert 0) s 1) ∧ (∀ g : Bool, warmGives (.controlStateEccError g) s 3) ∧
    (warmMerges s → (∀ k : WarmCause, (k = .request ∨ k = .watchdog ∨ k = .tableFault) → gives (.warmReset k) s (fun t => t = s)) ∧ gives .crossWatchdogTimeout s (fun t => t = s) ∧
      gives (.perstAssert 0) s (fun t => t = withBoot s (fun b => { b with perst0 := true }))) ∧
    (s.boot.devRst = true → gives (.perstAssert 0) s (fun t => t = withBoot s (fun b => { b with perst0 := true }))) ∧
    (s.boot.running = false → ∀ g : Bool, gives (.controlStateEccError g) s (fun t => t = s)) ∧
    (s.pcie.split = false → gives (.perstAssert 1) s (fun t => t = withBoot s (fun b => { b with perst1 := true }))) ∧
    (s.pcie.split = true → gives (.perstAssert 1) s (fun t => t.boot.perst1 = true ∧ (t.half 1).up = false ∧ t.pool = s.pool))) ∧
  (∀ (c : Fin 4) (s : State), (s.boot.running = false → gives (.berylHeartbeatTimeout c) s (fun t => t = s)) ∧
    (s.boot.running = true → (∀ x, look s.boot.beryl c.val = some x → x + 800000000 ≤ s.s0) → gives (.berylHeartbeatTimeout c) s (fun t =>
      t = withBoot s (fun b => { b with beryl := put b.beryl c.val s.s0 }))) ∧
    (∀ x, look s.boot.beryl c.val = some x → s.s0 < x + 800000000 → warmGives (.berylHeartbeatTimeout c) s 3)) ∧
  (∀ s : State,
    gives (.resetRelease .devRst) s (fun t => startOr
      { withBoot s (fun b => { b with devRst := false }) with pow := { s.pow with tripped := if s.boot.devRst then false else s.pow.tripped } } t) ∧
    gives (.resetRelease .perst0) s (fun t => startOr (withBoot s (fun b => { b with perst0 := false })) t) ∧
    gives (.resetRelease .perst1) s (fun t => t = withBoot s (fun b => { b with perst1 := false })) ∧
    gives .pwrOkAssert s (fun t => startOr (withBoot s (fun b => { b with pwrOk := true })) t)) ∧
  (∀ (src : DSrc) (late : Bool) (s s0 : State) (q : DReq), duAsked s s0 src (resetRow 1) q →
    let u := fieldAt q.data 2 2
    (fieldAt q.data 1 1 ≠ 0 → gives (.resetRequestCore src late) s (fun t => t = refusedAnswer s s0 src q duRange 1)) ∧
    (fieldAt q.data 1 1 = 0 → 191 < u ∨ cgFused.testBit (coreCg u) = false → gives (.resetRequestCore src late) s (fun t =>
      t = refusedAnswer s s0 src q duRange 2)) ∧
    (fieldAt q.data 1 1 = 0 → u ≤ 191 → cgFused.testBit (coreCg u) = true →
      (s0.coreOn u = true → cgBit s0.pool.cgFenced (coreCg u) = false → gives (.resetRequestCore src late) s (fun t =>
        t = okAnswer s (coreResetNow s0 u late) src q [])) ∧
      (s0.coreOn u = false ∨ cgBit s0.pool.cgFenced (coreCg u) = true → gives (.resetRequestCore src late) s (fun t =>
        t = refusedAnswer s s0 src q duState 2)))) ∧
  (∀ (src : DSrc) (s s0 : State) (q : DReq),
    (duAsked s s0 src (resetRow 2) q → (fieldAt q.data 1 1 ≠ 0 → gives (.resetRequestWarm src) s (fun t => t = refusedAnswer s s0 src q duRange 1)) ∧
      (fieldAt q.data 1 1 = 0 → s0.net.unroutable = false → gives (.resetRequestWarm src) s (fun t => t.boot.kind = 2 ∧ t.boot.cause = 2 ∧
        t = { warmReset (okAnswer s s0 src q []) 2 with pending := s.pending } ∧ warmState (okAnswer s s0 src q []) t 2))) ∧
    (duAsked s s0 src (resetRow 3) q → (fieldAt q.data 1 1 ≠ 0 → gives (.resetRequestCold src) s (fun t => t = refusedAnswer s s0 src q duRange 1)) ∧
      (fieldAt q.data 1 1 = 0 → gives (.resetRequestCold src) s (fun t => coldState (okAnswer s s0 src q []) t 2))))

namespace Sys2Proof.Claims

/-- A request for a row of the table that fails one of the first five checks. -/
def duFails (s s0 : State) (src : DSrc) (row : Nat) (q : DReq) (st : Nat) : Prop :=
  (∃ m, takeMsg s src = (s0, some m) ∧ q = parseReq src m) ∧ rowOf q = row ∧ duServed s src = true ∧ keptRsp s0 q = none ∧ preCheck s0 q = .error st
/-- A RETRY of a request whose response is kept. -/
def duRetry (s s0 : State) (src : DSrc) (row : Nat) (q : DReq) (r : List Byte) : Prop :=
  (∃ m, takeMsg s src = (s0, some m) ∧ q = parseReq src m) ∧ rowOf q = row ∧ duServed s src = true ∧ keptRsp s0 q = some r
def objKeyOf (q : DReq) : Nat := q.idx * 256 + q.sub
def tableRows (q : DReq) : Nat := ((objAt q.idx q.sub).map (fun o => if o.type = tTab then o.rows else 0)).getD 0
def mbxOf (s : State) (f : Nat) : Mbx := lookD s.dun.mbx f {}
def mbxOpen (s : State) (f : Nat) : Prop := (f = 0 ∧ 8 ∈ s.boot.done) ∨ fnOpen s f = true
def regOpen (s : State) (f : Nat) (b : Blk) : Prop := fnOpen s f = true ∨ (b = .mbx ∧ f = 0 ∧ 8 ∈ s.boot.done)

end Sys2Proof.Claims

open Sys2Proof.Claims in
/-- Dunir requests read, write, describe and answer versions; actions, transports and register writes act as their rules
say. A request that passes the dictionary's checks is answered: a READ with the object's bytes or a table's row count,
an absent row with NO_OBJECT, a part of a sample that holds a SEALED VD's unit with POSTURE; a DESCRIBE with the
description; VERSION with 1.0 and 1.1; a WRITE out of range, or that clashes, is refused with the field's offset, and
else takes effect, a persistent object joining the queue of commits. A request that fails a check gets its status, and
a RETRY the response that was kept. A commit that is done stands in flash or sets FLASH_FAULT. The device ID,
PORT_POLICY with RENEG, SET_COMMIT and TRACE_CTL act. MBX_GO takes vector and enable and raises BUSY, or is counted
while busy; an incomplete MCTP message times out. A register write of a function that is open reaches its block,
PWR_RAIL_SEL and SEC_AMBER_SEL among them; one not aligned does nothing; one of a closed function is logged. -/
def Obligations.DunirRequestsAreServed : Prop :=
  (∀ (src : DSrc) (s s0 : State) (q : DReq), duAsked s s0 src opRead q →
    (q.row = max32 → tableRows q ≠ 0 → gives (.dunirRead src) s (fun t => t = okKept s s0 src q (natLe 4 (tableRows q)))) ∧
    (∀ b, q.row ≠ max32 ∨ tableRows q = 0 → objKeyOf q ∉ [0x700001, 0x800501, 0x400601] → readObj s0 q 0 = some b →
      gives (.dunirRead src) s (fun t => t = okKept s s0 src q b)) ∧
    (∀ b, q.row ≠ max32 → objKeyOf q = 0x700001 → readObj s0 q s0.free = some b →
      gives (.dunirRead src) s (fun t => t = okKept s { s0 with free := s0.free + 1 } src q b)) ∧
    (∀ x b, q.row ≠ max32 → objKeyOf q = 0x800501 → sampleIn s0 (q.row / 16 / 512) (q.row / 16 % 512) = some x → readObj s0 q 0 = some b →
      gives (.dunirRead src) s (fun t => t = if partSealed s0 x.bytes (q.row % 16) = true then refusedAnswer s s0 src q duPosture 0xFFFF else okKept s s0 src q b)) ∧
    (q.row ≠ max32 ∨ tableRows q = 0 → (∀ k, readObj s0 q k = none) → gives (.dunirRead src) s (fun t =>
      t = refusedAnswer s s0 src q duNoObject 0xFFFF)) ∧
    (q.idx = 0x1000 → q.sub = 1 → gives (.dunirRead src) s (fun t => t = okKept s s0 src q [0x7C, 0x1F]))) ∧
  (∀ (src : DSrc) (s s0 : State) (q : DReq),
    (∀ o, duAsked s s0 src opDescribe q → objAt q.idx q.sub = some o → gives (.dunirDescribe src) s (fun t => t = okKept s s0 src q (describe o))) ∧
    (∀ m, takeMsg s src = (s0, some m) → q = parseReq src m → rowOf q = opVersion → duServed s src = true → keptRsp s0 q = none →
      preCheck s0 q = .ok none → gives (.dunirVersion src) s (fun t => t = okKept s s0 src q [0x10, 0x11, 0, 0])) ∧
    (∀ st, (duFails s s0 src opRead q st → gives (.dunirRead src) s (fun t => t = refusedAnswer s s0 src q st 0xFFFF)) ∧
      (duFails s s0 src opDescribe q st → gives (.dunirDescribe src) s (fun t => t = refusedAnswer s s0 src q st 0xFFFF)) ∧
      (duFails s s0 src opVersion q st → gives (.dunirVersion src) s (fun t => t = refusedAnswer s s0 src q st 0xFFFF)) ∧
      (duFails s s0 src opWrite q st → gives (.dunirWrite src) s (fun t => t = refusedAnswer s s0 src q st 0xFFFF))) ∧
    (∀ r, (duRetry s s0 src opRead q r → gives (.dunirRead src) s (fun t => t = under s (respond s0 src r))) ∧
      (duRetry s s0 src opWrite q r → gives (.dunirWrite src) s (fun t => t = under s (respond s0 src r))))) ∧
  (∀ (src : DSrc) (s s0 : State) (q : DReq) (o : Obj), duAsked s s0 src opWrite q → objAt q.idx q.sub = some o → objKeyOf q ≠ 0x200001 →
    (objKeyOf q = 0x500401 → allZero q.data = true ∨ ((s0.vd (fieldAt q.data 0 1)).posSealed = false ∧ (s0.vd (fieldAt q.data 0 1)).posture ≠ some true)) →
    (∀ n, writeRange s0 q o = some n → gives (.dunirWrite src) s (fun t => t = refusedAnswer s s0 src q duRange n)) ∧
    (writeRange s0 q o = none → objKeyOf q = 0x900101 → q.row = 0 → gives (.dunirWrite src) s (fun t => t = refusedAnswer s s0 src q duState 0)) ∧
    (writeRange s0 q o = none → ¬(objKeyOf q = 0x900101 ∧ q.row = 0) → writeClash s0 q = true → gives (.dunirWrite src) s (fun t =>
      t = refusedAnswer s s0 src q duConflict 0)) ∧
    (writeRange s0 q o = none → ¬(objKeyOf q = 0x900101 ∧ q.row = 0) → writeClash s0 q = false → gives (.dunirWrite src) s (fun t =>
      t = okKept s (writePlain s0 q o) src q [])) ∧
    (q.idx = 0x3000 → q.sub = 1 → 700 ≤ leNat q.data → leNat q.data ≤ 2400 → gives (.dunirWrite src) s (fun t =>
      t.pow.written = { s.pow.written with opCap := leNat q.data } ∧ t.dun.commits = s.dun.commits ++ [(objKey 0x3000 1 0, q.data)]))) ∧
  (∀ (ok : Bool) (s : State), (s.dun.commits = [] → gives (.persistCommitDone ok) s (fun t => t = s)) ∧
    (∀ k b l, s.dun.commits = (k, b) :: l →
      gives (.persistCommitDone true) s (fun t => t = { s with dun := { s.dun with commits := l }, flash := { s.flash with objs := put s.flash.objs k b } }) ∧
      gives (.persistCommitDone false) s (fun t => t = { s with dun := { s.dun with commits := l, flashFault := true } }))) ∧
  (∀ (src : DSrc) (s s0 : State) (q : DReq), duAsked s s0 src 0x500001 q →
    let n := leNat q.data
    (n ≤ 4095 ∨ n = 0xFFFF → gives (.devIdWrite src) s (fun t => t.talko.devId = n ∧
      t = okAnswer s (commitObj (writeDevId s0 n) 0x5000 1 0 q.data) src q [])) ∧
    (4095 < n → n ≠ 0xFFFF → gives (.devIdWrite src) s (fun t => t = refusedAnswer s s0 src q duRange 0))) ∧
  (∀ (src : DSrc) (s s0 : State) (q : DReq) (o : Obj), duAsked s s0 src 0x500201 q → objAt 0x5002 1 = some o →
    let b := sliceB q.data 0 2 ++ [0, 0]
    let s1 := commitObj (setObj s0 0x5002 1 q.row b) 0x5002 1 q.row b
    (∀ n, writeRange s0 q o = some n → gives (.portReneg src) s (fun t => t = refusedAnswer s s0 src q duRange n)) ∧
    (writeRange s0 q o = none → gives (.portReneg src) s (fun t => t = okAnswer s (asidePort (manualReneg s1 q.row) q.row) src q []) ∧
      ((s.port q.row).st = .off ∨ (s.port q.row).st = .down → s.talko.devId ≤ 4095 → tileUp s (q.row / 6) = true →
        gives (.portReneg src) s (fun t => (t.port q.row).st = .training ∧ (t.port q.row).encPolicy = fieldAt q.data 0 1)))) ∧
  (∀ (src : DSrc) (good : List (Bool × Bool × Bool)) (s s0 : State) (q : DReq), duAsked s s0 src 0x800202 q →
    (leNat q.data = 1 → s.flash.sets.length = 2 → s.boot.active ≤ 1 → gives (.setCommit src good) s (fun t =>
      t.flash.sets[1 - s.boot.active]? = some (rawSet s good) ∧ t.flash.sets[s.boot.active]? = s.flash.sets[s.boot.active]? ∧
      (rawSet s good).trial = true ∧ (rawSet s good).seq = (activeSet s).seq + 1 ∧ t = okKept s { s0 with flash := t.flash } src q [])) ∧
    (leNat q.data = 0 → gives (.setCommit src good) s (fun t => t = okKept s s0 src q [])) ∧
    (1 < leNat q.data → gives (.setCommit src good) s (fun t => t = refusedAnswer s s0 src q duRange 0))) ∧
  (∀ (src : DSrc) (s s0 : State) (q : DReq), duAsked s s0 src 0x900401 q →
    let b := q.data
    let m := fieldAt b 4 8
    ((∃ g ∈ bitsOf 48 m, ∃ v, s0.cgVd g = some v ∧ (s0.vd v).posSealed = true) → gives (.traceCtlWrite src) s (fun t =>
      t = refusedAnswer s s0 src q duPosture 4)) ∧
    ((∀ g ∈ bitsOf 48 m, ∀ v, s0.cgVd g = some v → (s0.vd v).posSealed = false) → fieldAt b 0 1 ≤ 1 → fieldAt b 1 1 ≤ 1 → fieldAt b 2 2 = 0 →
      m < 2 ^ 48 → fieldAt b 12 4 < 2 ^ 13 → s.trace.dies.length = 2 → gives (.traceCtlWrite src) s (fun t => t.trace.cgMask.toNat = m ∧
        t.trace.events = fieldAt b 12 4 ∧ ∀ d < 2, (t.traceDie d).en = decide (fieldAt b d 1 = 1)))) ∧
  (∀ (f : FnId) (v : Fin 2048) (en : Bool) (s : State),
    (mbxOpen s f.val → v.val ≤ vectorMax f.val → gives (.mbxGo f v en) s (fun t => t = { s with dun := { s.dun with mbx := t.dun.mbx } } ∧
      mbxOf t f.val = { mbxOf s f.val with
        vector := v.val
        irqEn := en
        busy := true
        ignored := if (mbxOf s f.val).busy then satAdd 8 (mbxOf s f.val).ignored 1 else (mbxOf s f.val).ignored } ∧
      ∀ g, g ≠ f.val → mbxOf t g = mbxOf s g)) ∧
    (mbxOpen s f.val → vectorMax f.val < v.val → gives (.mbxGo f v en) s (fun t => t = s)) ∧
    (¬mbxOpen s f.val → gives (.mbxGo f v en) s (fun t => t = under s (logUr s f.val)))) ∧
  (∀ (ep : Fin 256) (tag : Fin 8) (s : State), gives (.mctpPacketTimeout ep tag) s (fun t =>
    t = { s with dun := { s.dun with parts := del s.dun.parts (partKey ep.val tag.val) } } ∧ look t.dun.parts (partKey ep.val tag.val) = none)) ∧
  (∀ (f : FnId) (off : BitVec 26) (v : W64) (s : State),
    (∀ b o, blockAt f.val off.toNat = some (b, o) → regOpen s f.val b →
      (o % 4 = 0 → gives (.registerWrite f off false v) s (fun t => t = under s (writeReg s f.val b o (v.toNat % 2 ^ 32)))) ∧
      (o % 8 = 0 → gives (.registerWrite f off true v) s (fun t => t = under s (writeWhole s f.val b o v.toNat))) ∧
      (o % 4 ≠ 0 → gives (.registerWrite f off false v) s (fun t => t = s)) ∧ (o % 8 ≠ 0 → gives (.registerWrite f off true v) s (fun t => t = s))) ∧
    (∀ wide : Bool, blockAt f.val off.toNat = none → fnOpen s f.val = true → gives (.registerWrite f off wide v) s (fun t => t = s)) ∧
    (∀ wide : Bool, fnOpen s f.val = false → (∀ b o, blockAt f.val off.toNat = some (b, o) → ¬regOpen s f.val b) →
      gives (.registerWrite f off wide v) s (fun t => t = under s (logUr s f.val))) ∧
    (f.val = 0 → off.toNat = 0x1000014 → fnOpen s 0 = true → gives (.registerWrite f off false v) s (fun t =>
      t = { s with pow := { s.pow with railSel := if v.toNat % 2 ^ 32 ≤ 10 then v.toNat % 2 ^ 32 else s.pow.railSel } })) ∧
    (f.val = 0 → off.toNat = 0x2800010 → fnOpen s 0 = true → gives (.registerWrite f off false v) s (fun t =>
      t = { s with sec := { s.sec with amberSel := if v.toNat % 2 ^ 32 ≤ 63 then v.toNat % 2 ^ 32 else s.sec.amberSel } })))

namespace Sys2Proof.Claims

/-- A row of a TABLE that is not of the Tenant's VD: another VD's number, or a unit bound to none or to another. -/
def foreignRow (s : State) (o : Obj) (v row : Nat) : Prop :=
  (o.own = 1 ∧ row ≠ v) ∨ (o.own = 2 ∧ s.pairVd (row / 2) ≠ some v) ∨ (o.own = 3 ∧ s.portVd row ≠ some v) ∨ (o.own = 4 ∧ s.cgVd row ≠ some v) ∨
  (o.own = 5 ∧ row / 64 ≠ v) ∨ (5 < o.own ∧ ownRow s o.own v row = false)
def ownTableRow (s : State) (o : Obj) (v row : Nat) : Prop :=
  o.own = 0 ∨ (o.own = 1 ∧ row = v) ∨ (o.own = 2 ∧ s.pairVd (row / 2) = some v) ∨ (o.own = 3 ∧ s.portVd row = some v) ∨ (o.own = 4 ∧ s.cgVd row = some v)
/-- The checks before the row's: the header, the version, the state of the service, and the index. -/
def headerPasses (s : State) (q : DReq) : Prop :=
  16 ≤ q.size ∧ q.len ≤ q.data.length ∧ q.status = 0 ∧ q.flags ≤ 1 ∧ q.rsvd = 0 ∧ (q.op = opRead ∨ q.op = opWrite) ∧ q.len ≤ 8192 ∧ q.ver / 16 = 1 ∧
    s.boot.ready = true ∧ idxOpen s q = true

end Sys2Proof.Claims

open Sys2Proof.Claims in
/-- A Tenant's request for a row that is not its own completes with NO_OBJECT, as for a row that does not exist. For a
request of a Tenant for a row of a TABLE: where the row is indexed by VD and names another VD, or is indexed by
channel, port, core group or another unit and the unit is not bound to the Tenant's VD, a READ or WRITE that passes the
checks before it completes with NO_OBJECT, and the checks answer exactly what they answer for a row beyond the table,
whatever the rest of the request holds. A row of the Tenant's own VD passes this check. -/
def Obligations.ForeignRowsLookAbsent : Prop :=
  (∀ (s : State) (q : DReq) (o : Obj), q.role = 2 → objAt q.idx q.sub = some o → o.type = tTab → q.row ≠ max32 →
    (foreignRow s o q.fn q.row →
      (headerPasses s q → preCheck s q = .error duNoObject) ∧
      ((q.op = opRead ∨ q.op = opWrite) → ∀ r, o.rows ≤ r → r ≠ max32 → preCheck s q = preCheck s { q with row := r })) ∧
    (ownTableRow s o q.fn q.row → headerPasses s q → q.row < o.rows → (rightsOf o 2).testBit (q.op - 1) = true →
      q.len = (if q.op = opRead then 0 else o.size) → preCheck s q = .ok (some o))) ∧
  (∀ (src : DSrc) (s s0 : State) (q : DReq) (o : Obj) (m : List Byte), takeMsg s src = (s0, some m) → q = parseReq src m → duServed s src = true →
    keptRsp s0 q = none → q.role = 2 → objAt q.idx q.sub = some o → o.type = tTab → q.row ≠ max32 → foreignRow s0 o q.fn q.row → headerPasses s0 q →
    (rowOf q = opRead → gives (.dunirRead src) s (fun t => t = refusedAnswer s s0 src q duNoObject 0xFFFF)) ∧
    (rowOf q = opWrite → gives (.dunirWrite src) s (fun t => t = refusedAnswer s s0 src q duNoObject 0xFFFF)))

namespace Sys2Proof.Claims

def at11 (q : DReq) : DReq := { q with ver := 0x11 }
def headerSound (q : DReq) : Prop := 16 ≤ q.size ∧ q.len ≤ q.data.length ∧ q.status = 0 ∧ q.flags ≤ 1 ∧ q.rsvd = 0 ∧ q.len ≤ 8192

end Sys2Proof.Claims

open Sys2Proof.Claims in
/-- Dunir 1.1 is implemented and 1.0 accepted; a later minor version is served at 1.1, and the response says so. A request
of version 1.0, read or write, passes the same checks and is served as one of 1.1; so is a request with major version 1
and a minor version above 1, and its response carries VER 0x11. Any other response carries the version of the request.
A DESCRIBE of version 1.0 whose header is sound completes with VERSION, one of 1.1 with the description. VERSION
answers 1.0 and 1.1. -/
def Obligations.DunirVersionsAreServed : Prop :=
  (∀ (s : State) (q : DReq), q.ver / 16 = 1 → 1 ≤ q.ver % 16 ∨ q.op ≠ opDescribe →
    preCheck s q = preCheck s (at11 q) ∧ readAct s q = readAct s (at11 q) ∧ writeAct s q = writeAct s (at11 q) ∧ rowOf q = rowOf (at11 q)) ∧
  (∀ (q : DReq) (st : Nat) (b : List Byte), (q.ver / 16 = 1 → 1 < q.ver % 16 → (rspBytes q st b)[0]? = some 0x11) ∧
    (q.ver / 16 ≠ 1 ∨ q.ver % 16 ≤ 1 → (rspBytes q st b)[0]? = some (BitVec.ofNat 8 q.ver))) ∧
  (∀ (s : State) (q : DReq), q.op = opDescribe → headerSound q → (q.ver = 0x10 → preCheck s q = .error duVersion) ∧
    (q.ver = 0x11 → s.boot.ready = true → ∀ o, objAt q.idx q.sub = some o → idxOpen s q = true → q.len = 0 → ∀ f : State → DReq → DRes,
      duAnswer s q f = { st := s, data := describe o })) ∧
  (∀ (s : State) (q : DReq), q.op = opVersion → headerSound q → q.ver / 16 = 1 → s.boot.ready = true → q.len = 0 → ∀ f : State → DReq → DRes,
    duAnswer s q f = { st := s, data := [0x10, 0x11, 0, 0] })

open Sys2Proof.Claims in
/-- A step runs the command at the front of the queue on its rest; every command answers; an empty queue counts one S0
cycle. With a command at the front of the queue, a step is the command's meaning on the state with the rest of the
queue, whatever the command, its operands and the state: the meaning answers a next state, never a fault or a refusal,
and the commands that wait stay as they are. On an empty queue the step is one cycle of domain S0, which is the model's
own choice (assumption log 1): it changes nothing where no start runs or no PLL is locked, and else counts one cycle of
S0 and leaves commands, contexts, memory and slices alone. -/
def Obligations.StepTakesTheFrontCommand : Prop :=
  (∀ (c : Instr) (s : State), step { s with pending := c :: s.pending } = exec c s) ∧
  (∀ (c : Instr) (s : State), gives c s (fun t => t.pending = s.pending)) ∧
  (∀ s : State, s.pending = [] → step s = .next (tick s) ∧
    (s.boot.running = false ∨ s.pow.locked = false → tick s = s) ∧
    (s.boot.running = true → s.pow.locked = true → (tick s).s0 = s.s0 + 1 ∧
      tick s = { s with s0 := s.s0 + 1, pow := (tick s).pow, cmp := (tick s).cmp, obj := (tick s).obj }))

namespace Sys2Proof.Claims

/-- Two slices have no unit in common (R244). -/
def apart (x y : Slice) : Prop := x.cgs &&& y.cgs = 0 ∧ x.pairs &&& y.pairs = 0 ∧ x.ports &&& y.ports = 0
/-- No unit belongs to two slices, and slices stand in the order of their numbers. -/
def slicesApart (s : State) : Prop :=
  sortedKeys s.pool.slices = true ∧ s.pool.slices.Pairwise (fun a b => apart a.2 b.2)

end Sys2Proof.Claims

open Sys2Proof.Claims in
/-- The units of two slices stay disjoint: every step keeps the slices sorted by number and without a unit in common. For
every state whose slices stand in rising order of their numbers and no core group, channel pair or port belongs to two
of them, every step, by whatever command or on an empty queue, leads to a state of the same kind. -/
def Obligations.SlicesStayApart : Prop :=
  ∀ s t : State, slicesApart s → step s = .next t → slicesApart t

open Sys2Proof.Claims in
/-- After reset nothing runs, nothing is bound or listed, parameters have their reset values, and no two slices share a
unit. The state after reset holds no command, no slice and no device memory, its slices are apart, no start runs, the
reset inputs are asserted and power is not good; the operator's and the manager's caps are 2,400 W and 2,200 W, the
boost is enabled, the S0 count, START_NO and the journal are at zero, every port is held aside, and the first image set
is in use. Values that the spec leaves open at reset (serial number, grade, fused sites, life-cycle state) are the
model's own, as the assumption log says, and are not stated. -/
def Obligations.ResetState : Prop :=
  slicesApart State.reset ∧ State.reset.pending = [] ∧ State.reset.pool.slices = [] ∧ State.reset.mem.hbm = [] ∧ State.reset.boot.running = false ∧
  State.reset.boot.devRst = true ∧ State.reset.boot.perst0 = true ∧ State.reset.boot.pwrOk = false ∧ State.reset.boot.ready = false ∧
  State.reset.pow.written.opCap = 2400 ∧ State.reset.pow.written.mgrCap = 2200 ∧ State.reset.pow.written.boostEn = true ∧ State.reset.s0 = 0 ∧
  State.reset.flash.startNo = 0 ∧ State.reset.flash.journal = [] ∧ State.reset.pool.portAside = 0xFFFFFF ∧ State.reset.boot.active = 0 ∧
  step State.reset = .next State.reset
end

