-- ==== Sys2Proof/Laws/Map.lean ====
section
/-! SUPPORT. Laws of sparse tables: what a read gives after a write, and that writes keep the canonical form. -/

namespace Sys2Proof.Machine

variable {α β : Type}

theorem look_del_self (m : Map α) (q : Nat) : look (del m q) q = none := by
  induction m with
  | nil => rfl
  | cons p m ih =>
    obtain ⟨k, v⟩ := p
    by_cases h : k = q <;> simp_all [del, look]

theorem look_del_ne (m : Map α) {q r : Nat} (h : r ≠ q) : look (del m q) r = look m r := by
  induction m with
  | nil => rfl
  | cons p m ih =>
    obtain ⟨k, v⟩ := p
    by_cases hk : k = q
    · subst hk
      have : look (del ((k, v) :: m) k) r = look (del m k) r := by simp [del]
      rw [this, ih]
      simp [look, Ne.symm h]
    · have : del ((k, v) :: m) q = (k, v) :: del m q := by simp [del, hk]
      rw [this]
      simp only [look]
      rw [ih]

theorem look_insertSorted_ne (m : Map α) {q r : Nat} (v : α) (h : r ≠ q) : look (insertSorted q v m) r = look m r := by
  induction m with
  | nil => simp [insertSorted, look, Ne.symm h]
  | cons p m ih =>
    obtain ⟨k, w⟩ := p
    by_cases hk : q < k
    · simp [insertSorted, hk, look, Ne.symm h]
    · simp only [insertSorted, hk, if_false, look]
      rw [ih]

theorem look_insertSorted_self (m : Map α) (q : Nat) (v : α) (h : look m q = none) : look (insertSorted q v m) q = some v := by
  induction m with
  | nil => simp [insertSorted, look]
  | cons p m ih =>
    obtain ⟨k, w⟩ := p
    by_cases hk : q < k
    · simp [insertSorted, hk, look]
    · by_cases he : k = q
      · simp [look, he] at h
      · simp only [look, he, if_false] at h
        simp only [insertSorted, hk, if_false, look, he]
        exact ih h

@[simp] theorem look_put_self (m : Map α) (q : Nat) (v : α) : look (put m q v) q = some v :=
  look_insertSorted_self _ _ _ (look_del_self m q)

theorem look_put_ne (m : Map α) {q r : Nat} (v : α) (h : r ≠ q) : look (put m q v) r = look m r := by
  rw [put, look_insertSorted_ne _ _ h, look_del_ne _ h]

@[simp] theorem lookD_put_self (m : Map α) (q : Nat) (v d : α) : lookD (put m q v) q d = v := by simp [lookD]

theorem lookD_put_ne (m : Map α) {q r : Nat} (v d : α) (h : r ≠ q) : lookD (put m q v) r d = lookD m r d := by
  simp [lookD, look_put_ne _ _ h]

@[simp] theorem lookD_putD_self [DecidableEq α] (m : Map α) (q : Nat) (v d : α) : lookD (putD m q v d) q d = v := by
  by_cases h : v = d <;> simp [putD, h, lookD, look_del_self]

theorem lookD_putD_ne [DecidableEq α] (m : Map α) {q r : Nat} (v d : α) (h : r ≠ q) : lookD (putD m q v d) r d = lookD m r d := by
  by_cases hv : v = d <;> simp [putD, hv, lookD, look_del_ne _ h, look_put_ne _ _ h]

theorem look_adjust_self (m : Map α) (q : Nat) (f : α → α) : look (adjust m q f) q = (look m q).map f := by
  induction m with
  | nil => rfl
  | cons p m ih =>
    obtain ⟨k, v⟩ := p
    by_cases h : k = q
    · simp [adjust, look, h]
    · simp only [adjust, List.map, h, if_false, look]
      exact ih

theorem look_adjust_ne (m : Map α) {q r : Nat} (f : α → α) (h : r ≠ q) : look (adjust m q f) r = look m r := by
  induction m with
  | nil => rfl
  | cons p m ih =>
    obtain ⟨k, v⟩ := p
    by_cases hk : k = q
    · subst hk
      simp only [adjust, List.map, if_true, look, Ne.symm h, if_false]
      exact ih
    · simp only [adjust, List.map, hk, if_false, look]
      split
      · rfl
      · exact ih

theorem look_mapVals (m : Map α) (f : Nat → α → β) (q : Nat) : look (mapVals m f) q = (look m q).map (f q) := by
  induction m with
  | nil => rfl
  | cons p m ih =>
    obtain ⟨k, v⟩ := p
    by_cases h : k = q
    · simp [mapVals, look, h]
    · simp only [mapVals, List.map, look, h, if_false]
      exact ih

/- The canonical form. -/

theorem sortedKeys_iff (m : Map α) : sortedKeys m = true ↔ m.Pairwise (fun a b => a.1 < b.1) := by
  induction m with
  | nil => simp [sortedKeys]
  | cons a m ih =>
    cases m with
    | nil => simp [sortedKeys]
    | cons b m =>
      simp only [sortedKeys, Bool.and_eq_true, decide_eq_true_eq, ih]
      constructor
      · rintro ⟨h, hp⟩
        refine List.pairwise_cons.2 ⟨?_, hp⟩
        intro c hc
        rcases List.mem_cons.1 hc with rfl | hc
        · exact h
        · exact Nat.lt_trans h ((List.pairwise_cons.1 hp).1 c hc)
      · intro hp
        have h := List.pairwise_cons.1 hp
        exact ⟨h.1 b (by simp), h.2⟩

theorem sortedKeys_del (m : Map α) (q : Nat) (h : sortedKeys m = true) : sortedKeys (del m q) = true := by
  rw [sortedKeys_iff] at *
  exact h.filter _

theorem mem_insertSorted (q : Nat) (v : α) (m : Map α) (p : Nat × α) : p ∈ insertSorted q v m ↔ p = (q, v) ∨ p ∈ m := by
  induction m with
  | nil => simp [insertSorted]
  | cons a m ih =>
    obtain ⟨k, w⟩ := a
    by_cases h : q < k
    · simp [insertSorted, h]
    · simp only [insertSorted, h, if_false, List.mem_cons, ih]
      exact or_left_comm

theorem sortedKeys_insertSorted (q : Nat) (v : α) (m : Map α) (h : sortedKeys m = true) (hq : ∀ p ∈ m, p.1 ≠ q) :
    sortedKeys (insertSorted q v m) = true := by
  rw [sortedKeys_iff] at *
  induction m with
  | nil => simp [insertSorted]
  | cons a m ih =>
    obtain ⟨k, w⟩ := a
    have hp := List.pairwise_cons.1 h
    by_cases hk : q < k
    · simp only [insertSorted, hk, if_true]
      refine List.pairwise_cons.2 ⟨?_, h⟩
      intro c hc
      rcases List.mem_cons.1 hc with rfl | hc
      · exact hk
      · exact Nat.lt_trans hk (hp.1 c hc)
    · simp only [insertSorted, hk, if_false]
      refine List.pairwise_cons.2 ⟨?_, ih hp.2 (fun p hp' => hq p (List.mem_cons_of_mem _ hp'))⟩
      intro c hc
      rcases (mem_insertSorted q v m c).1 hc with rfl | hc
      · have := hq (k, w) (by simp)
        simp only at this
        show k < q
        omega
      · exact hp.1 c hc

theorem sortedKeys_put (m : Map α) (q : Nat) (v : α) (h : sortedKeys m = true) : sortedKeys (put m q v) = true := by
  refine sortedKeys_insertSorted _ _ _ (sortedKeys_del m q h) ?_
  intro p hp
  have := (List.mem_filter.1 hp).2
  simpa using this

theorem sortedKeys_putD [DecidableEq α] (m : Map α) (q : Nat) (v d : α) (h : sortedKeys m = true) :
    sortedKeys (putD m q v d) = true := by
  by_cases hv : v = d
  · simp [putD, hv, sortedKeys_del m q h]
  · simp [putD, hv, sortedKeys_put m q v h]

/-- No entry of a table with a default equals the default after a write. -/
theorem putD_all_ne [DecidableEq α] (m : Map α) (q : Nat) (v d : α) (h : ∀ p ∈ m, p.2 ≠ d) : ∀ p ∈ putD m q v d, p.2 ≠ d := by
  intro p hp
  by_cases hv : v = d
  · simp only [putD, hv, if_true] at hp
    exact h p (List.mem_filter.1 hp).1
  · simp only [putD, hv, if_false, put] at hp
    rcases (mem_insertSorted _ _ _ _).1 hp with rfl | hp
    · exact hv
    · exact h p (List.mem_filter.1 hp).1

end Sys2Proof.Machine
end

