-- ==== Sys2Proof/Laws/State.lean ====
section
/-! SUPPORT. What each named update of State leaves alone, one lemma per field, and what its own record reads after it. -/

namespace Sys2Proof.Machine

@[simp] theorem State.setCore_pending (s : State) (c : Nat) (v : Core) : (s.setCore c v).pending = s.pending := rfl
@[simp] theorem State.setCore_free (s : State) (c : Nat) (v : Core) : (s.setCore c v).free = s.free := rfl
@[simp] theorem State.setCore_s0 (s : State) (c : Nat) (v : Core) : (s.setCore c v).s0 = s.s0 := rfl
@[simp] theorem State.setCore_engs (s : State) (c : Nat) (v : Core) : (s.setCore c v).engs = s.engs := rfl
@[simp] theorem State.setCore_xmsgs (s : State) (c : Nat) (v : Core) : (s.setCore c v).xmsgs = s.xmsgs := rfl
@[simp] theorem State.setCore_mem (s : State) (c : Nat) (v : Core) : (s.setCore c v).mem = s.mem := rfl
@[simp] theorem State.setCore_host (s : State) (c : Nat) (v : Core) : (s.setCore c v).host = s.host := rfl
@[simp] theorem State.setCore_xlt (s : State) (c : Nat) (v : Core) : (s.setCore c v).xlt = s.xlt := rfl
@[simp] theorem State.setCore_gfe (s : State) (c : Nat) (v : Core) : (s.setCore c v).gfe = s.gfe := rfl
@[simp] theorem State.setCore_obj (s : State) (c : Nat) (v : Core) : (s.setCore c v).obj = s.obj := rfl
@[simp] theorem State.setCore_fns (s : State) (c : Nat) (v : Core) : (s.setCore c v).fns = s.fns := rfl
@[simp] theorem State.setCore_pool (s : State) (c : Nat) (v : Core) : (s.setCore c v).pool = s.pool := rfl
@[simp] theorem State.setCore_cmp (s : State) (c : Nat) (v : Core) : (s.setCore c v).cmp = s.cmp := rfl
@[simp] theorem State.setCore_chains (s : State) (c : Nat) (v : Core) : (s.setCore c v).chains = s.chains := rfl
@[simp] theorem State.setCore_ready (s : State) (c : Nat) (v : Core) : (s.setCore c v).ready = s.ready := rfl
@[simp] theorem State.setCore_pcie (s : State) (c : Nat) (v : Core) : (s.setCore c v).pcie = s.pcie := rfl
@[simp] theorem State.setCore_net (s : State) (c : Nat) (v : Core) : (s.setCore c v).net = s.net := rfl
@[simp] theorem State.setCore_talko (s : State) (c : Nat) (v : Core) : (s.setCore c v).talko = s.talko := rfl
@[simp] theorem State.setCore_pow (s : State) (c : Nat) (v : Core) : (s.setCore c v).pow = s.pow := rfl
@[simp] theorem State.setCore_trace (s : State) (c : Nat) (v : Core) : (s.setCore c v).trace = s.trace := rfl
@[simp] theorem State.setCore_sec (s : State) (c : Nat) (v : Core) : (s.setCore c v).sec = s.sec := rfl
@[simp] theorem State.setCore_otp (s : State) (c : Nat) (v : Core) : (s.setCore c v).otp = s.otp := rfl
@[simp] theorem State.setCore_flash (s : State) (c : Nat) (v : Core) : (s.setCore c v).flash = s.flash := rfl
@[simp] theorem State.setCore_boot (s : State) (c : Nat) (v : Core) : (s.setCore c v).boot = s.boot := rfl
@[simp] theorem State.setCore_dump (s : State) (c : Nat) (v : Core) : (s.setCore c v).dump = s.dump := rfl
@[simp] theorem State.setCore_dun (s : State) (c : Nat) (v : Core) : (s.setCore c v).dun = s.dun := rfl
@[simp] theorem State.setCore_pins (s : State) (c : Nat) (v : Core) : (s.setCore c v).pins = s.pins := rfl
@[simp] theorem State.setCore_hints (s : State) (c : Nat) (v : Core) : (s.setCore c v).hints = s.hints := rfl
@[simp] theorem State.setCore_reports (s : State) (c : Nat) (v : Core) : (s.setCore c v).reports = s.reports := rfl

@[simp] theorem State.modCore_pending (s : State) (c : Nat) (f : Core → Core) : (s.modCore c f).pending = s.pending := rfl
@[simp] theorem State.modCore_free (s : State) (c : Nat) (f : Core → Core) : (s.modCore c f).free = s.free := rfl
@[simp] theorem State.modCore_s0 (s : State) (c : Nat) (f : Core → Core) : (s.modCore c f).s0 = s.s0 := rfl
@[simp] theorem State.modCore_engs (s : State) (c : Nat) (f : Core → Core) : (s.modCore c f).engs = s.engs := rfl
@[simp] theorem State.modCore_xmsgs (s : State) (c : Nat) (f : Core → Core) : (s.modCore c f).xmsgs = s.xmsgs := rfl
@[simp] theorem State.modCore_mem (s : State) (c : Nat) (f : Core → Core) : (s.modCore c f).mem = s.mem := rfl
@[simp] theorem State.modCore_host (s : State) (c : Nat) (f : Core → Core) : (s.modCore c f).host = s.host := rfl
@[simp] theorem State.modCore_xlt (s : State) (c : Nat) (f : Core → Core) : (s.modCore c f).xlt = s.xlt := rfl
@[simp] theorem State.modCore_gfe (s : State) (c : Nat) (f : Core → Core) : (s.modCore c f).gfe = s.gfe := rfl
@[simp] theorem State.modCore_obj (s : State) (c : Nat) (f : Core → Core) : (s.modCore c f).obj = s.obj := rfl
@[simp] theorem State.modCore_fns (s : State) (c : Nat) (f : Core → Core) : (s.modCore c f).fns = s.fns := rfl
@[simp] theorem State.modCore_pool (s : State) (c : Nat) (f : Core → Core) : (s.modCore c f).pool = s.pool := rfl
@[simp] theorem State.modCore_cmp (s : State) (c : Nat) (f : Core → Core) : (s.modCore c f).cmp = s.cmp := rfl
@[simp] theorem State.modCore_chains (s : State) (c : Nat) (f : Core → Core) : (s.modCore c f).chains = s.chains := rfl
@[simp] theorem State.modCore_ready (s : State) (c : Nat) (f : Core → Core) : (s.modCore c f).ready = s.ready := rfl
@[simp] theorem State.modCore_pcie (s : State) (c : Nat) (f : Core → Core) : (s.modCore c f).pcie = s.pcie := rfl
@[simp] theorem State.modCore_net (s : State) (c : Nat) (f : Core → Core) : (s.modCore c f).net = s.net := rfl
@[simp] theorem State.modCore_talko (s : State) (c : Nat) (f : Core → Core) : (s.modCore c f).talko = s.talko := rfl
@[simp] theorem State.modCore_pow (s : State) (c : Nat) (f : Core → Core) : (s.modCore c f).pow = s.pow := rfl
@[simp] theorem State.modCore_trace (s : State) (c : Nat) (f : Core → Core) : (s.modCore c f).trace = s.trace := rfl
@[simp] theorem State.modCore_sec (s : State) (c : Nat) (f : Core → Core) : (s.modCore c f).sec = s.sec := rfl
@[simp] theorem State.modCore_otp (s : State) (c : Nat) (f : Core → Core) : (s.modCore c f).otp = s.otp := rfl
@[simp] theorem State.modCore_flash (s : State) (c : Nat) (f : Core → Core) : (s.modCore c f).flash = s.flash := rfl
@[simp] theorem State.modCore_boot (s : State) (c : Nat) (f : Core → Core) : (s.modCore c f).boot = s.boot := rfl
@[simp] theorem State.modCore_dump (s : State) (c : Nat) (f : Core → Core) : (s.modCore c f).dump = s.dump := rfl
@[simp] theorem State.modCore_dun (s : State) (c : Nat) (f : Core → Core) : (s.modCore c f).dun = s.dun := rfl
@[simp] theorem State.modCore_pins (s : State) (c : Nat) (f : Core → Core) : (s.modCore c f).pins = s.pins := rfl
@[simp] theorem State.modCore_hints (s : State) (c : Nat) (f : Core → Core) : (s.modCore c f).hints = s.hints := rfl
@[simp] theorem State.modCore_reports (s : State) (c : Nat) (f : Core → Core) : (s.modCore c f).reports = s.reports := rfl

@[simp] theorem State.setEng_pending (s : State) (e : Nat) (v : Eng) : (s.setEng e v).pending = s.pending := rfl
@[simp] theorem State.setEng_free (s : State) (e : Nat) (v : Eng) : (s.setEng e v).free = s.free := rfl
@[simp] theorem State.setEng_s0 (s : State) (e : Nat) (v : Eng) : (s.setEng e v).s0 = s.s0 := rfl
@[simp] theorem State.setEng_cores (s : State) (e : Nat) (v : Eng) : (s.setEng e v).cores = s.cores := rfl
@[simp] theorem State.setEng_xmsgs (s : State) (e : Nat) (v : Eng) : (s.setEng e v).xmsgs = s.xmsgs := rfl
@[simp] theorem State.setEng_mem (s : State) (e : Nat) (v : Eng) : (s.setEng e v).mem = s.mem := rfl
@[simp] theorem State.setEng_host (s : State) (e : Nat) (v : Eng) : (s.setEng e v).host = s.host := rfl
@[simp] theorem State.setEng_xlt (s : State) (e : Nat) (v : Eng) : (s.setEng e v).xlt = s.xlt := rfl
@[simp] theorem State.setEng_gfe (s : State) (e : Nat) (v : Eng) : (s.setEng e v).gfe = s.gfe := rfl
@[simp] theorem State.setEng_obj (s : State) (e : Nat) (v : Eng) : (s.setEng e v).obj = s.obj := rfl
@[simp] theorem State.setEng_fns (s : State) (e : Nat) (v : Eng) : (s.setEng e v).fns = s.fns := rfl
@[simp] theorem State.setEng_pool (s : State) (e : Nat) (v : Eng) : (s.setEng e v).pool = s.pool := rfl
@[simp] theorem State.setEng_cmp (s : State) (e : Nat) (v : Eng) : (s.setEng e v).cmp = s.cmp := rfl
@[simp] theorem State.setEng_chains (s : State) (e : Nat) (v : Eng) : (s.setEng e v).chains = s.chains := rfl
@[simp] theorem State.setEng_ready (s : State) (e : Nat) (v : Eng) : (s.setEng e v).ready = s.ready := rfl
@[simp] theorem State.setEng_pcie (s : State) (e : Nat) (v : Eng) : (s.setEng e v).pcie = s.pcie := rfl
@[simp] theorem State.setEng_net (s : State) (e : Nat) (v : Eng) : (s.setEng e v).net = s.net := rfl
@[simp] theorem State.setEng_talko (s : State) (e : Nat) (v : Eng) : (s.setEng e v).talko = s.talko := rfl
@[simp] theorem State.setEng_pow (s : State) (e : Nat) (v : Eng) : (s.setEng e v).pow = s.pow := rfl
@[simp] theorem State.setEng_trace (s : State) (e : Nat) (v : Eng) : (s.setEng e v).trace = s.trace := rfl
@[simp] theorem State.setEng_sec (s : State) (e : Nat) (v : Eng) : (s.setEng e v).sec = s.sec := rfl
@[simp] theorem State.setEng_otp (s : State) (e : Nat) (v : Eng) : (s.setEng e v).otp = s.otp := rfl
@[simp] theorem State.setEng_flash (s : State) (e : Nat) (v : Eng) : (s.setEng e v).flash = s.flash := rfl
@[simp] theorem State.setEng_boot (s : State) (e : Nat) (v : Eng) : (s.setEng e v).boot = s.boot := rfl
@[simp] theorem State.setEng_dump (s : State) (e : Nat) (v : Eng) : (s.setEng e v).dump = s.dump := rfl
@[simp] theorem State.setEng_dun (s : State) (e : Nat) (v : Eng) : (s.setEng e v).dun = s.dun := rfl
@[simp] theorem State.setEng_pins (s : State) (e : Nat) (v : Eng) : (s.setEng e v).pins = s.pins := rfl
@[simp] theorem State.setEng_hints (s : State) (e : Nat) (v : Eng) : (s.setEng e v).hints = s.hints := rfl
@[simp] theorem State.setEng_reports (s : State) (e : Nat) (v : Eng) : (s.setEng e v).reports = s.reports := rfl

@[simp] theorem State.modEng_pending (s : State) (e : Nat) (f : Eng → Eng) : (s.modEng e f).pending = s.pending := rfl
@[simp] theorem State.modEng_free (s : State) (e : Nat) (f : Eng → Eng) : (s.modEng e f).free = s.free := rfl
@[simp] theorem State.modEng_s0 (s : State) (e : Nat) (f : Eng → Eng) : (s.modEng e f).s0 = s.s0 := rfl
@[simp] theorem State.modEng_cores (s : State) (e : Nat) (f : Eng → Eng) : (s.modEng e f).cores = s.cores := rfl
@[simp] theorem State.modEng_xmsgs (s : State) (e : Nat) (f : Eng → Eng) : (s.modEng e f).xmsgs = s.xmsgs := rfl
@[simp] theorem State.modEng_mem (s : State) (e : Nat) (f : Eng → Eng) : (s.modEng e f).mem = s.mem := rfl
@[simp] theorem State.modEng_host (s : State) (e : Nat) (f : Eng → Eng) : (s.modEng e f).host = s.host := rfl
@[simp] theorem State.modEng_xlt (s : State) (e : Nat) (f : Eng → Eng) : (s.modEng e f).xlt = s.xlt := rfl
@[simp] theorem State.modEng_gfe (s : State) (e : Nat) (f : Eng → Eng) : (s.modEng e f).gfe = s.gfe := rfl
@[simp] theorem State.modEng_obj (s : State) (e : Nat) (f : Eng → Eng) : (s.modEng e f).obj = s.obj := rfl
@[simp] theorem State.modEng_fns (s : State) (e : Nat) (f : Eng → Eng) : (s.modEng e f).fns = s.fns := rfl
@[simp] theorem State.modEng_pool (s : State) (e : Nat) (f : Eng → Eng) : (s.modEng e f).pool = s.pool := rfl
@[simp] theorem State.modEng_cmp (s : State) (e : Nat) (f : Eng → Eng) : (s.modEng e f).cmp = s.cmp := rfl
@[simp] theorem State.modEng_chains (s : State) (e : Nat) (f : Eng → Eng) : (s.modEng e f).chains = s.chains := rfl
@[simp] theorem State.modEng_ready (s : State) (e : Nat) (f : Eng → Eng) : (s.modEng e f).ready = s.ready := rfl
@[simp] theorem State.modEng_pcie (s : State) (e : Nat) (f : Eng → Eng) : (s.modEng e f).pcie = s.pcie := rfl
@[simp] theorem State.modEng_net (s : State) (e : Nat) (f : Eng → Eng) : (s.modEng e f).net = s.net := rfl
@[simp] theorem State.modEng_talko (s : State) (e : Nat) (f : Eng → Eng) : (s.modEng e f).talko = s.talko := rfl
@[simp] theorem State.modEng_pow (s : State) (e : Nat) (f : Eng → Eng) : (s.modEng e f).pow = s.pow := rfl
@[simp] theorem State.modEng_trace (s : State) (e : Nat) (f : Eng → Eng) : (s.modEng e f).trace = s.trace := rfl
@[simp] theorem State.modEng_sec (s : State) (e : Nat) (f : Eng → Eng) : (s.modEng e f).sec = s.sec := rfl
@[simp] theorem State.modEng_otp (s : State) (e : Nat) (f : Eng → Eng) : (s.modEng e f).otp = s.otp := rfl
@[simp] theorem State.modEng_flash (s : State) (e : Nat) (f : Eng → Eng) : (s.modEng e f).flash = s.flash := rfl
@[simp] theorem State.modEng_boot (s : State) (e : Nat) (f : Eng → Eng) : (s.modEng e f).boot = s.boot := rfl
@[simp] theorem State.modEng_dump (s : State) (e : Nat) (f : Eng → Eng) : (s.modEng e f).dump = s.dump := rfl
@[simp] theorem State.modEng_dun (s : State) (e : Nat) (f : Eng → Eng) : (s.modEng e f).dun = s.dun := rfl
@[simp] theorem State.modEng_pins (s : State) (e : Nat) (f : Eng → Eng) : (s.modEng e f).pins = s.pins := rfl
@[simp] theorem State.modEng_hints (s : State) (e : Nat) (f : Eng → Eng) : (s.modEng e f).hints = s.hints := rfl
@[simp] theorem State.modEng_reports (s : State) (e : Nat) (f : Eng → Eng) : (s.modEng e f).reports = s.reports := rfl

@[simp] theorem State.setFn_pending (s : State) (n : Nat) (v : Fn) : (s.setFn n v).pending = s.pending := rfl
@[simp] theorem State.setFn_free (s : State) (n : Nat) (v : Fn) : (s.setFn n v).free = s.free := rfl
@[simp] theorem State.setFn_s0 (s : State) (n : Nat) (v : Fn) : (s.setFn n v).s0 = s.s0 := rfl
@[simp] theorem State.setFn_cores (s : State) (n : Nat) (v : Fn) : (s.setFn n v).cores = s.cores := rfl
@[simp] theorem State.setFn_engs (s : State) (n : Nat) (v : Fn) : (s.setFn n v).engs = s.engs := rfl
@[simp] theorem State.setFn_xmsgs (s : State) (n : Nat) (v : Fn) : (s.setFn n v).xmsgs = s.xmsgs := rfl
@[simp] theorem State.setFn_mem (s : State) (n : Nat) (v : Fn) : (s.setFn n v).mem = s.mem := rfl
@[simp] theorem State.setFn_host (s : State) (n : Nat) (v : Fn) : (s.setFn n v).host = s.host := rfl
@[simp] theorem State.setFn_xlt (s : State) (n : Nat) (v : Fn) : (s.setFn n v).xlt = s.xlt := rfl
@[simp] theorem State.setFn_gfe (s : State) (n : Nat) (v : Fn) : (s.setFn n v).gfe = s.gfe := rfl
@[simp] theorem State.setFn_obj (s : State) (n : Nat) (v : Fn) : (s.setFn n v).obj = s.obj := rfl
@[simp] theorem State.setFn_pool (s : State) (n : Nat) (v : Fn) : (s.setFn n v).pool = s.pool := rfl
@[simp] theorem State.setFn_cmp (s : State) (n : Nat) (v : Fn) : (s.setFn n v).cmp = s.cmp := rfl
@[simp] theorem State.setFn_chains (s : State) (n : Nat) (v : Fn) : (s.setFn n v).chains = s.chains := rfl
@[simp] theorem State.setFn_ready (s : State) (n : Nat) (v : Fn) : (s.setFn n v).ready = s.ready := rfl
@[simp] theorem State.setFn_pcie (s : State) (n : Nat) (v : Fn) : (s.setFn n v).pcie = s.pcie := rfl
@[simp] theorem State.setFn_net (s : State) (n : Nat) (v : Fn) : (s.setFn n v).net = s.net := rfl
@[simp] theorem State.setFn_talko (s : State) (n : Nat) (v : Fn) : (s.setFn n v).talko = s.talko := rfl
@[simp] theorem State.setFn_pow (s : State) (n : Nat) (v : Fn) : (s.setFn n v).pow = s.pow := rfl
@[simp] theorem State.setFn_trace (s : State) (n : Nat) (v : Fn) : (s.setFn n v).trace = s.trace := rfl
@[simp] theorem State.setFn_sec (s : State) (n : Nat) (v : Fn) : (s.setFn n v).sec = s.sec := rfl
@[simp] theorem State.setFn_otp (s : State) (n : Nat) (v : Fn) : (s.setFn n v).otp = s.otp := rfl
@[simp] theorem State.setFn_flash (s : State) (n : Nat) (v : Fn) : (s.setFn n v).flash = s.flash := rfl
@[simp] theorem State.setFn_boot (s : State) (n : Nat) (v : Fn) : (s.setFn n v).boot = s.boot := rfl
@[simp] theorem State.setFn_dump (s : State) (n : Nat) (v : Fn) : (s.setFn n v).dump = s.dump := rfl
@[simp] theorem State.setFn_dun (s : State) (n : Nat) (v : Fn) : (s.setFn n v).dun = s.dun := rfl
@[simp] theorem State.setFn_pins (s : State) (n : Nat) (v : Fn) : (s.setFn n v).pins = s.pins := rfl
@[simp] theorem State.setFn_hints (s : State) (n : Nat) (v : Fn) : (s.setFn n v).hints = s.hints := rfl
@[simp] theorem State.setFn_reports (s : State) (n : Nat) (v : Fn) : (s.setFn n v).reports = s.reports := rfl

@[simp] theorem State.modFn_pending (s : State) (n : Nat) (f : Fn → Fn) : (s.modFn n f).pending = s.pending := rfl
@[simp] theorem State.modFn_free (s : State) (n : Nat) (f : Fn → Fn) : (s.modFn n f).free = s.free := rfl
@[simp] theorem State.modFn_s0 (s : State) (n : Nat) (f : Fn → Fn) : (s.modFn n f).s0 = s.s0 := rfl
@[simp] theorem State.modFn_cores (s : State) (n : Nat) (f : Fn → Fn) : (s.modFn n f).cores = s.cores := rfl
@[simp] theorem State.modFn_engs (s : State) (n : Nat) (f : Fn → Fn) : (s.modFn n f).engs = s.engs := rfl
@[simp] theorem State.modFn_xmsgs (s : State) (n : Nat) (f : Fn → Fn) : (s.modFn n f).xmsgs = s.xmsgs := rfl
@[simp] theorem State.modFn_mem (s : State) (n : Nat) (f : Fn → Fn) : (s.modFn n f).mem = s.mem := rfl
@[simp] theorem State.modFn_host (s : State) (n : Nat) (f : Fn → Fn) : (s.modFn n f).host = s.host := rfl
@[simp] theorem State.modFn_xlt (s : State) (n : Nat) (f : Fn → Fn) : (s.modFn n f).xlt = s.xlt := rfl
@[simp] theorem State.modFn_gfe (s : State) (n : Nat) (f : Fn → Fn) : (s.modFn n f).gfe = s.gfe := rfl
@[simp] theorem State.modFn_obj (s : State) (n : Nat) (f : Fn → Fn) : (s.modFn n f).obj = s.obj := rfl
@[simp] theorem State.modFn_pool (s : State) (n : Nat) (f : Fn → Fn) : (s.modFn n f).pool = s.pool := rfl
@[simp] theorem State.modFn_cmp (s : State) (n : Nat) (f : Fn → Fn) : (s.modFn n f).cmp = s.cmp := rfl
@[simp] theorem State.modFn_chains (s : State) (n : Nat) (f : Fn → Fn) : (s.modFn n f).chains = s.chains := rfl
@[simp] theorem State.modFn_ready (s : State) (n : Nat) (f : Fn → Fn) : (s.modFn n f).ready = s.ready := rfl
@[simp] theorem State.modFn_pcie (s : State) (n : Nat) (f : Fn → Fn) : (s.modFn n f).pcie = s.pcie := rfl
@[simp] theorem State.modFn_net (s : State) (n : Nat) (f : Fn → Fn) : (s.modFn n f).net = s.net := rfl
@[simp] theorem State.modFn_talko (s : State) (n : Nat) (f : Fn → Fn) : (s.modFn n f).talko = s.talko := rfl
@[simp] theorem State.modFn_pow (s : State) (n : Nat) (f : Fn → Fn) : (s.modFn n f).pow = s.pow := rfl
@[simp] theorem State.modFn_trace (s : State) (n : Nat) (f : Fn → Fn) : (s.modFn n f).trace = s.trace := rfl
@[simp] theorem State.modFn_sec (s : State) (n : Nat) (f : Fn → Fn) : (s.modFn n f).sec = s.sec := rfl
@[simp] theorem State.modFn_otp (s : State) (n : Nat) (f : Fn → Fn) : (s.modFn n f).otp = s.otp := rfl
@[simp] theorem State.modFn_flash (s : State) (n : Nat) (f : Fn → Fn) : (s.modFn n f).flash = s.flash := rfl
@[simp] theorem State.modFn_boot (s : State) (n : Nat) (f : Fn → Fn) : (s.modFn n f).boot = s.boot := rfl
@[simp] theorem State.modFn_dump (s : State) (n : Nat) (f : Fn → Fn) : (s.modFn n f).dump = s.dump := rfl
@[simp] theorem State.modFn_dun (s : State) (n : Nat) (f : Fn → Fn) : (s.modFn n f).dun = s.dun := rfl
@[simp] theorem State.modFn_pins (s : State) (n : Nat) (f : Fn → Fn) : (s.modFn n f).pins = s.pins := rfl
@[simp] theorem State.modFn_hints (s : State) (n : Nat) (f : Fn → Fn) : (s.modFn n f).hints = s.hints := rfl
@[simp] theorem State.modFn_reports (s : State) (n : Nat) (f : Fn → Fn) : (s.modFn n f).reports = s.reports := rfl

@[simp] theorem State.setVd_pending (s : State) (n : Nat) (v : Vd) : (s.setVd n v).pending = s.pending := rfl
@[simp] theorem State.setVd_free (s : State) (n : Nat) (v : Vd) : (s.setVd n v).free = s.free := rfl
@[simp] theorem State.setVd_s0 (s : State) (n : Nat) (v : Vd) : (s.setVd n v).s0 = s.s0 := rfl
@[simp] theorem State.setVd_cores (s : State) (n : Nat) (v : Vd) : (s.setVd n v).cores = s.cores := rfl
@[simp] theorem State.setVd_engs (s : State) (n : Nat) (v : Vd) : (s.setVd n v).engs = s.engs := rfl
@[simp] theorem State.setVd_xmsgs (s : State) (n : Nat) (v : Vd) : (s.setVd n v).xmsgs = s.xmsgs := rfl
@[simp] theorem State.setVd_mem (s : State) (n : Nat) (v : Vd) : (s.setVd n v).mem = s.mem := rfl
@[simp] theorem State.setVd_host (s : State) (n : Nat) (v : Vd) : (s.setVd n v).host = s.host := rfl
@[simp] theorem State.setVd_xlt (s : State) (n : Nat) (v : Vd) : (s.setVd n v).xlt = s.xlt := rfl
@[simp] theorem State.setVd_gfe (s : State) (n : Nat) (v : Vd) : (s.setVd n v).gfe = s.gfe := rfl
@[simp] theorem State.setVd_obj (s : State) (n : Nat) (v : Vd) : (s.setVd n v).obj = s.obj := rfl
@[simp] theorem State.setVd_fns (s : State) (n : Nat) (v : Vd) : (s.setVd n v).fns = s.fns := rfl
@[simp] theorem State.setVd_pool (s : State) (n : Nat) (v : Vd) : (s.setVd n v).pool = s.pool := rfl
@[simp] theorem State.setVd_chains (s : State) (n : Nat) (v : Vd) : (s.setVd n v).chains = s.chains := rfl
@[simp] theorem State.setVd_ready (s : State) (n : Nat) (v : Vd) : (s.setVd n v).ready = s.ready := rfl
@[simp] theorem State.setVd_pcie (s : State) (n : Nat) (v : Vd) : (s.setVd n v).pcie = s.pcie := rfl
@[simp] theorem State.setVd_net (s : State) (n : Nat) (v : Vd) : (s.setVd n v).net = s.net := rfl
@[simp] theorem State.setVd_talko (s : State) (n : Nat) (v : Vd) : (s.setVd n v).talko = s.talko := rfl
@[simp] theorem State.setVd_pow (s : State) (n : Nat) (v : Vd) : (s.setVd n v).pow = s.pow := rfl
@[simp] theorem State.setVd_trace (s : State) (n : Nat) (v : Vd) : (s.setVd n v).trace = s.trace := rfl
@[simp] theorem State.setVd_sec (s : State) (n : Nat) (v : Vd) : (s.setVd n v).sec = s.sec := rfl
@[simp] theorem State.setVd_otp (s : State) (n : Nat) (v : Vd) : (s.setVd n v).otp = s.otp := rfl
@[simp] theorem State.setVd_flash (s : State) (n : Nat) (v : Vd) : (s.setVd n v).flash = s.flash := rfl
@[simp] theorem State.setVd_boot (s : State) (n : Nat) (v : Vd) : (s.setVd n v).boot = s.boot := rfl
@[simp] theorem State.setVd_dump (s : State) (n : Nat) (v : Vd) : (s.setVd n v).dump = s.dump := rfl
@[simp] theorem State.setVd_dun (s : State) (n : Nat) (v : Vd) : (s.setVd n v).dun = s.dun := rfl
@[simp] theorem State.setVd_pins (s : State) (n : Nat) (v : Vd) : (s.setVd n v).pins = s.pins := rfl
@[simp] theorem State.setVd_hints (s : State) (n : Nat) (v : Vd) : (s.setVd n v).hints = s.hints := rfl
@[simp] theorem State.setVd_reports (s : State) (n : Nat) (v : Vd) : (s.setVd n v).reports = s.reports := rfl

@[simp] theorem State.modVd_pending (s : State) (n : Nat) (f : Vd → Vd) : (s.modVd n f).pending = s.pending := rfl
@[simp] theorem State.modVd_free (s : State) (n : Nat) (f : Vd → Vd) : (s.modVd n f).free = s.free := rfl
@[simp] theorem State.modVd_s0 (s : State) (n : Nat) (f : Vd → Vd) : (s.modVd n f).s0 = s.s0 := rfl
@[simp] theorem State.modVd_cores (s : State) (n : Nat) (f : Vd → Vd) : (s.modVd n f).cores = s.cores := rfl
@[simp] theorem State.modVd_engs (s : State) (n : Nat) (f : Vd → Vd) : (s.modVd n f).engs = s.engs := rfl
@[simp] theorem State.modVd_xmsgs (s : State) (n : Nat) (f : Vd → Vd) : (s.modVd n f).xmsgs = s.xmsgs := rfl
@[simp] theorem State.modVd_mem (s : State) (n : Nat) (f : Vd → Vd) : (s.modVd n f).mem = s.mem := rfl
@[simp] theorem State.modVd_host (s : State) (n : Nat) (f : Vd → Vd) : (s.modVd n f).host = s.host := rfl
@[simp] theorem State.modVd_xlt (s : State) (n : Nat) (f : Vd → Vd) : (s.modVd n f).xlt = s.xlt := rfl
@[simp] theorem State.modVd_gfe (s : State) (n : Nat) (f : Vd → Vd) : (s.modVd n f).gfe = s.gfe := rfl
@[simp] theorem State.modVd_obj (s : State) (n : Nat) (f : Vd → Vd) : (s.modVd n f).obj = s.obj := rfl
@[simp] theorem State.modVd_fns (s : State) (n : Nat) (f : Vd → Vd) : (s.modVd n f).fns = s.fns := rfl
@[simp] theorem State.modVd_pool (s : State) (n : Nat) (f : Vd → Vd) : (s.modVd n f).pool = s.pool := rfl
@[simp] theorem State.modVd_chains (s : State) (n : Nat) (f : Vd → Vd) : (s.modVd n f).chains = s.chains := rfl
@[simp] theorem State.modVd_ready (s : State) (n : Nat) (f : Vd → Vd) : (s.modVd n f).ready = s.ready := rfl
@[simp] theorem State.modVd_pcie (s : State) (n : Nat) (f : Vd → Vd) : (s.modVd n f).pcie = s.pcie := rfl
@[simp] theorem State.modVd_net (s : State) (n : Nat) (f : Vd → Vd) : (s.modVd n f).net = s.net := rfl
@[simp] theorem State.modVd_talko (s : State) (n : Nat) (f : Vd → Vd) : (s.modVd n f).talko = s.talko := rfl
@[simp] theorem State.modVd_pow (s : State) (n : Nat) (f : Vd → Vd) : (s.modVd n f).pow = s.pow := rfl
@[simp] theorem State.modVd_trace (s : State) (n : Nat) (f : Vd → Vd) : (s.modVd n f).trace = s.trace := rfl
@[simp] theorem State.modVd_sec (s : State) (n : Nat) (f : Vd → Vd) : (s.modVd n f).sec = s.sec := rfl
@[simp] theorem State.modVd_otp (s : State) (n : Nat) (f : Vd → Vd) : (s.modVd n f).otp = s.otp := rfl
@[simp] theorem State.modVd_flash (s : State) (n : Nat) (f : Vd → Vd) : (s.modVd n f).flash = s.flash := rfl
@[simp] theorem State.modVd_boot (s : State) (n : Nat) (f : Vd → Vd) : (s.modVd n f).boot = s.boot := rfl
@[simp] theorem State.modVd_dump (s : State) (n : Nat) (f : Vd → Vd) : (s.modVd n f).dump = s.dump := rfl
@[simp] theorem State.modVd_dun (s : State) (n : Nat) (f : Vd → Vd) : (s.modVd n f).dun = s.dun := rfl
@[simp] theorem State.modVd_pins (s : State) (n : Nat) (f : Vd → Vd) : (s.modVd n f).pins = s.pins := rfl
@[simp] theorem State.modVd_hints (s : State) (n : Nat) (f : Vd → Vd) : (s.modVd n f).hints = s.hints := rfl
@[simp] theorem State.modVd_reports (s : State) (n : Nat) (f : Vd → Vd) : (s.modVd n f).reports = s.reports := rfl

@[simp] theorem State.setChain_pending (s : State) (n : Nat) (v : Chain) : (s.setChain n v).pending = s.pending := rfl
@[simp] theorem State.setChain_free (s : State) (n : Nat) (v : Chain) : (s.setChain n v).free = s.free := rfl
@[simp] theorem State.setChain_s0 (s : State) (n : Nat) (v : Chain) : (s.setChain n v).s0 = s.s0 := rfl
@[simp] theorem State.setChain_cores (s : State) (n : Nat) (v : Chain) : (s.setChain n v).cores = s.cores := rfl
@[simp] theorem State.setChain_engs (s : State) (n : Nat) (v : Chain) : (s.setChain n v).engs = s.engs := rfl
@[simp] theorem State.setChain_xmsgs (s : State) (n : Nat) (v : Chain) : (s.setChain n v).xmsgs = s.xmsgs := rfl
@[simp] theorem State.setChain_mem (s : State) (n : Nat) (v : Chain) : (s.setChain n v).mem = s.mem := rfl
@[simp] theorem State.setChain_host (s : State) (n : Nat) (v : Chain) : (s.setChain n v).host = s.host := rfl
@[simp] theorem State.setChain_xlt (s : State) (n : Nat) (v : Chain) : (s.setChain n v).xlt = s.xlt := rfl
@[simp] theorem State.setChain_gfe (s : State) (n : Nat) (v : Chain) : (s.setChain n v).gfe = s.gfe := rfl
@[simp] theorem State.setChain_obj (s : State) (n : Nat) (v : Chain) : (s.setChain n v).obj = s.obj := rfl
@[simp] theorem State.setChain_fns (s : State) (n : Nat) (v : Chain) : (s.setChain n v).fns = s.fns := rfl
@[simp] theorem State.setChain_pool (s : State) (n : Nat) (v : Chain) : (s.setChain n v).pool = s.pool := rfl
@[simp] theorem State.setChain_cmp (s : State) (n : Nat) (v : Chain) : (s.setChain n v).cmp = s.cmp := rfl
@[simp] theorem State.setChain_ready (s : State) (n : Nat) (v : Chain) : (s.setChain n v).ready = s.ready := rfl
@[simp] theorem State.setChain_pcie (s : State) (n : Nat) (v : Chain) : (s.setChain n v).pcie = s.pcie := rfl
@[simp] theorem State.setChain_net (s : State) (n : Nat) (v : Chain) : (s.setChain n v).net = s.net := rfl
@[simp] theorem State.setChain_talko (s : State) (n : Nat) (v : Chain) : (s.setChain n v).talko = s.talko := rfl
@[simp] theorem State.setChain_pow (s : State) (n : Nat) (v : Chain) : (s.setChain n v).pow = s.pow := rfl
@[simp] theorem State.setChain_trace (s : State) (n : Nat) (v : Chain) : (s.setChain n v).trace = s.trace := rfl
@[simp] theorem State.setChain_sec (s : State) (n : Nat) (v : Chain) : (s.setChain n v).sec = s.sec := rfl
@[simp] theorem State.setChain_otp (s : State) (n : Nat) (v : Chain) : (s.setChain n v).otp = s.otp := rfl
@[simp] theorem State.setChain_flash (s : State) (n : Nat) (v : Chain) : (s.setChain n v).flash = s.flash := rfl
@[simp] theorem State.setChain_boot (s : State) (n : Nat) (v : Chain) : (s.setChain n v).boot = s.boot := rfl
@[simp] theorem State.setChain_dump (s : State) (n : Nat) (v : Chain) : (s.setChain n v).dump = s.dump := rfl
@[simp] theorem State.setChain_dun (s : State) (n : Nat) (v : Chain) : (s.setChain n v).dun = s.dun := rfl
@[simp] theorem State.setChain_pins (s : State) (n : Nat) (v : Chain) : (s.setChain n v).pins = s.pins := rfl
@[simp] theorem State.setChain_hints (s : State) (n : Nat) (v : Chain) : (s.setChain n v).hints = s.hints := rfl
@[simp] theorem State.setChain_reports (s : State) (n : Nat) (v : Chain) : (s.setChain n v).reports = s.reports := rfl

@[simp] theorem State.modChain_pending (s : State) (n : Nat) (f : Chain → Chain) : (s.modChain n f).pending = s.pending := rfl
@[simp] theorem State.modChain_free (s : State) (n : Nat) (f : Chain → Chain) : (s.modChain n f).free = s.free := rfl
@[simp] theorem State.modChain_s0 (s : State) (n : Nat) (f : Chain → Chain) : (s.modChain n f).s0 = s.s0 := rfl
@[simp] theorem State.modChain_cores (s : State) (n : Nat) (f : Chain → Chain) : (s.modChain n f).cores = s.cores := rfl
@[simp] theorem State.modChain_engs (s : State) (n : Nat) (f : Chain → Chain) : (s.modChain n f).engs = s.engs := rfl
@[simp] theorem State.modChain_xmsgs (s : State) (n : Nat) (f : Chain → Chain) : (s.modChain n f).xmsgs = s.xmsgs := rfl
@[simp] theorem State.modChain_mem (s : State) (n : Nat) (f : Chain → Chain) : (s.modChain n f).mem = s.mem := rfl
@[simp] theorem State.modChain_host (s : State) (n : Nat) (f : Chain → Chain) : (s.modChain n f).host = s.host := rfl
@[simp] theorem State.modChain_xlt (s : State) (n : Nat) (f : Chain → Chain) : (s.modChain n f).xlt = s.xlt := rfl
@[simp] theorem State.modChain_gfe (s : State) (n : Nat) (f : Chain → Chain) : (s.modChain n f).gfe = s.gfe := rfl
@[simp] theorem State.modChain_obj (s : State) (n : Nat) (f : Chain → Chain) : (s.modChain n f).obj = s.obj := rfl
@[simp] theorem State.modChain_fns (s : State) (n : Nat) (f : Chain → Chain) : (s.modChain n f).fns = s.fns := rfl
@[simp] theorem State.modChain_pool (s : State) (n : Nat) (f : Chain → Chain) : (s.modChain n f).pool = s.pool := rfl
@[simp] theorem State.modChain_cmp (s : State) (n : Nat) (f : Chain → Chain) : (s.modChain n f).cmp = s.cmp := rfl
@[simp] theorem State.modChain_ready (s : State) (n : Nat) (f : Chain → Chain) : (s.modChain n f).ready = s.ready := rfl
@[simp] theorem State.modChain_pcie (s : State) (n : Nat) (f : Chain → Chain) : (s.modChain n f).pcie = s.pcie := rfl
@[simp] theorem State.modChain_net (s : State) (n : Nat) (f : Chain → Chain) : (s.modChain n f).net = s.net := rfl
@[simp] theorem State.modChain_talko (s : State) (n : Nat) (f : Chain → Chain) : (s.modChain n f).talko = s.talko := rfl
@[simp] theorem State.modChain_pow (s : State) (n : Nat) (f : Chain → Chain) : (s.modChain n f).pow = s.pow := rfl
@[simp] theorem State.modChain_trace (s : State) (n : Nat) (f : Chain → Chain) : (s.modChain n f).trace = s.trace := rfl
@[simp] theorem State.modChain_sec (s : State) (n : Nat) (f : Chain → Chain) : (s.modChain n f).sec = s.sec := rfl
@[simp] theorem State.modChain_otp (s : State) (n : Nat) (f : Chain → Chain) : (s.modChain n f).otp = s.otp := rfl
@[simp] theorem State.modChain_flash (s : State) (n : Nat) (f : Chain → Chain) : (s.modChain n f).flash = s.flash := rfl
@[simp] theorem State.modChain_boot (s : State) (n : Nat) (f : Chain → Chain) : (s.modChain n f).boot = s.boot := rfl
@[simp] theorem State.modChain_dump (s : State) (n : Nat) (f : Chain → Chain) : (s.modChain n f).dump = s.dump := rfl
@[simp] theorem State.modChain_dun (s : State) (n : Nat) (f : Chain → Chain) : (s.modChain n f).dun = s.dun := rfl
@[simp] theorem State.modChain_pins (s : State) (n : Nat) (f : Chain → Chain) : (s.modChain n f).pins = s.pins := rfl
@[simp] theorem State.modChain_hints (s : State) (n : Nat) (f : Chain → Chain) : (s.modChain n f).hints = s.hints := rfl
@[simp] theorem State.modChain_reports (s : State) (n : Nat) (f : Chain → Chain) : (s.modChain n f).reports = s.reports := rfl

@[simp] theorem State.setPf_pending (s : State) (n : Nat) (v : PcieFn) : (s.setPf n v).pending = s.pending := rfl
@[simp] theorem State.setPf_free (s : State) (n : Nat) (v : PcieFn) : (s.setPf n v).free = s.free := rfl
@[simp] theorem State.setPf_s0 (s : State) (n : Nat) (v : PcieFn) : (s.setPf n v).s0 = s.s0 := rfl
@[simp] theorem State.setPf_cores (s : State) (n : Nat) (v : PcieFn) : (s.setPf n v).cores = s.cores := rfl
@[simp] theorem State.setPf_engs (s : State) (n : Nat) (v : PcieFn) : (s.setPf n v).engs = s.engs := rfl
@[simp] theorem State.setPf_xmsgs (s : State) (n : Nat) (v : PcieFn) : (s.setPf n v).xmsgs = s.xmsgs := rfl
@[simp] theorem State.setPf_mem (s : State) (n : Nat) (v : PcieFn) : (s.setPf n v).mem = s.mem := rfl
@[simp] theorem State.setPf_host (s : State) (n : Nat) (v : PcieFn) : (s.setPf n v).host = s.host := rfl
@[simp] theorem State.setPf_xlt (s : State) (n : Nat) (v : PcieFn) : (s.setPf n v).xlt = s.xlt := rfl
@[simp] theorem State.setPf_gfe (s : State) (n : Nat) (v : PcieFn) : (s.setPf n v).gfe = s.gfe := rfl
@[simp] theorem State.setPf_obj (s : State) (n : Nat) (v : PcieFn) : (s.setPf n v).obj = s.obj := rfl
@[simp] theorem State.setPf_fns (s : State) (n : Nat) (v : PcieFn) : (s.setPf n v).fns = s.fns := rfl
@[simp] theorem State.setPf_pool (s : State) (n : Nat) (v : PcieFn) : (s.setPf n v).pool = s.pool := rfl
@[simp] theorem State.setPf_cmp (s : State) (n : Nat) (v : PcieFn) : (s.setPf n v).cmp = s.cmp := rfl
@[simp] theorem State.setPf_chains (s : State) (n : Nat) (v : PcieFn) : (s.setPf n v).chains = s.chains := rfl
@[simp] theorem State.setPf_ready (s : State) (n : Nat) (v : PcieFn) : (s.setPf n v).ready = s.ready := rfl
@[simp] theorem State.setPf_net (s : State) (n : Nat) (v : PcieFn) : (s.setPf n v).net = s.net := rfl
@[simp] theorem State.setPf_talko (s : State) (n : Nat) (v : PcieFn) : (s.setPf n v).talko = s.talko := rfl
@[simp] theorem State.setPf_pow (s : State) (n : Nat) (v : PcieFn) : (s.setPf n v).pow = s.pow := rfl
@[simp] theorem State.setPf_trace (s : State) (n : Nat) (v : PcieFn) : (s.setPf n v).trace = s.trace := rfl
@[simp] theorem State.setPf_sec (s : State) (n : Nat) (v : PcieFn) : (s.setPf n v).sec = s.sec := rfl
@[simp] theorem State.setPf_otp (s : State) (n : Nat) (v : PcieFn) : (s.setPf n v).otp = s.otp := rfl
@[simp] theorem State.setPf_flash (s : State) (n : Nat) (v : PcieFn) : (s.setPf n v).flash = s.flash := rfl
@[simp] theorem State.setPf_boot (s : State) (n : Nat) (v : PcieFn) : (s.setPf n v).boot = s.boot := rfl
@[simp] theorem State.setPf_dump (s : State) (n : Nat) (v : PcieFn) : (s.setPf n v).dump = s.dump := rfl
@[simp] theorem State.setPf_dun (s : State) (n : Nat) (v : PcieFn) : (s.setPf n v).dun = s.dun := rfl
@[simp] theorem State.setPf_pins (s : State) (n : Nat) (v : PcieFn) : (s.setPf n v).pins = s.pins := rfl
@[simp] theorem State.setPf_hints (s : State) (n : Nat) (v : PcieFn) : (s.setPf n v).hints = s.hints := rfl
@[simp] theorem State.setPf_reports (s : State) (n : Nat) (v : PcieFn) : (s.setPf n v).reports = s.reports := rfl

@[simp] theorem State.modPf_pending (s : State) (n : Nat) (f : PcieFn → PcieFn) : (s.modPf n f).pending = s.pending := rfl
@[simp] theorem State.modPf_free (s : State) (n : Nat) (f : PcieFn → PcieFn) : (s.modPf n f).free = s.free := rfl
@[simp] theorem State.modPf_s0 (s : State) (n : Nat) (f : PcieFn → PcieFn) : (s.modPf n f).s0 = s.s0 := rfl
@[simp] theorem State.modPf_cores (s : State) (n : Nat) (f : PcieFn → PcieFn) : (s.modPf n f).cores = s.cores := rfl
@[simp] theorem State.modPf_engs (s : State) (n : Nat) (f : PcieFn → PcieFn) : (s.modPf n f).engs = s.engs := rfl
@[simp] theorem State.modPf_xmsgs (s : State) (n : Nat) (f : PcieFn → PcieFn) : (s.modPf n f).xmsgs = s.xmsgs := rfl
@[simp] theorem State.modPf_mem (s : State) (n : Nat) (f : PcieFn → PcieFn) : (s.modPf n f).mem = s.mem := rfl
@[simp] theorem State.modPf_host (s : State) (n : Nat) (f : PcieFn → PcieFn) : (s.modPf n f).host = s.host := rfl
@[simp] theorem State.modPf_xlt (s : State) (n : Nat) (f : PcieFn → PcieFn) : (s.modPf n f).xlt = s.xlt := rfl
@[simp] theorem State.modPf_gfe (s : State) (n : Nat) (f : PcieFn → PcieFn) : (s.modPf n f).gfe = s.gfe := rfl
@[simp] theorem State.modPf_obj (s : State) (n : Nat) (f : PcieFn → PcieFn) : (s.modPf n f).obj = s.obj := rfl
@[simp] theorem State.modPf_fns (s : State) (n : Nat) (f : PcieFn → PcieFn) : (s.modPf n f).fns = s.fns := rfl
@[simp] theorem State.modPf_pool (s : State) (n : Nat) (f : PcieFn → PcieFn) : (s.modPf n f).pool = s.pool := rfl
@[simp] theorem State.modPf_cmp (s : State) (n : Nat) (f : PcieFn → PcieFn) : (s.modPf n f).cmp = s.cmp := rfl
@[simp] theorem State.modPf_chains (s : State) (n : Nat) (f : PcieFn → PcieFn) : (s.modPf n f).chains = s.chains := rfl
@[simp] theorem State.modPf_ready (s : State) (n : Nat) (f : PcieFn → PcieFn) : (s.modPf n f).ready = s.ready := rfl
@[simp] theorem State.modPf_net (s : State) (n : Nat) (f : PcieFn → PcieFn) : (s.modPf n f).net = s.net := rfl
@[simp] theorem State.modPf_talko (s : State) (n : Nat) (f : PcieFn → PcieFn) : (s.modPf n f).talko = s.talko := rfl
@[simp] theorem State.modPf_pow (s : State) (n : Nat) (f : PcieFn → PcieFn) : (s.modPf n f).pow = s.pow := rfl
@[simp] theorem State.modPf_trace (s : State) (n : Nat) (f : PcieFn → PcieFn) : (s.modPf n f).trace = s.trace := rfl
@[simp] theorem State.modPf_sec (s : State) (n : Nat) (f : PcieFn → PcieFn) : (s.modPf n f).sec = s.sec := rfl
@[simp] theorem State.modPf_otp (s : State) (n : Nat) (f : PcieFn → PcieFn) : (s.modPf n f).otp = s.otp := rfl
@[simp] theorem State.modPf_flash (s : State) (n : Nat) (f : PcieFn → PcieFn) : (s.modPf n f).flash = s.flash := rfl
@[simp] theorem State.modPf_boot (s : State) (n : Nat) (f : PcieFn → PcieFn) : (s.modPf n f).boot = s.boot := rfl
@[simp] theorem State.modPf_dump (s : State) (n : Nat) (f : PcieFn → PcieFn) : (s.modPf n f).dump = s.dump := rfl
@[simp] theorem State.modPf_dun (s : State) (n : Nat) (f : PcieFn → PcieFn) : (s.modPf n f).dun = s.dun := rfl
@[simp] theorem State.modPf_pins (s : State) (n : Nat) (f : PcieFn → PcieFn) : (s.modPf n f).pins = s.pins := rfl
@[simp] theorem State.modPf_hints (s : State) (n : Nat) (f : PcieFn → PcieFn) : (s.modPf n f).hints = s.hints := rfl
@[simp] theorem State.modPf_reports (s : State) (n : Nat) (f : PcieFn → PcieFn) : (s.modPf n f).reports = s.reports := rfl

@[simp] theorem State.modChan_pending (s : State) (n : Nat) (f : Chan → Chan) : (s.modChan n f).pending = s.pending := rfl
@[simp] theorem State.modChan_free (s : State) (n : Nat) (f : Chan → Chan) : (s.modChan n f).free = s.free := rfl
@[simp] theorem State.modChan_s0 (s : State) (n : Nat) (f : Chan → Chan) : (s.modChan n f).s0 = s.s0 := rfl
@[simp] theorem State.modChan_cores (s : State) (n : Nat) (f : Chan → Chan) : (s.modChan n f).cores = s.cores := rfl
@[simp] theorem State.modChan_engs (s : State) (n : Nat) (f : Chan → Chan) : (s.modChan n f).engs = s.engs := rfl
@[simp] theorem State.modChan_xmsgs (s : State) (n : Nat) (f : Chan → Chan) : (s.modChan n f).xmsgs = s.xmsgs := rfl
@[simp] theorem State.modChan_host (s : State) (n : Nat) (f : Chan → Chan) : (s.modChan n f).host = s.host := rfl
@[simp] theorem State.modChan_xlt (s : State) (n : Nat) (f : Chan → Chan) : (s.modChan n f).xlt = s.xlt := rfl
@[simp] theorem State.modChan_gfe (s : State) (n : Nat) (f : Chan → Chan) : (s.modChan n f).gfe = s.gfe := rfl
@[simp] theorem State.modChan_obj (s : State) (n : Nat) (f : Chan → Chan) : (s.modChan n f).obj = s.obj := rfl
@[simp] theorem State.modChan_fns (s : State) (n : Nat) (f : Chan → Chan) : (s.modChan n f).fns = s.fns := rfl
@[simp] theorem State.modChan_pool (s : State) (n : Nat) (f : Chan → Chan) : (s.modChan n f).pool = s.pool := rfl
@[simp] theorem State.modChan_cmp (s : State) (n : Nat) (f : Chan → Chan) : (s.modChan n f).cmp = s.cmp := rfl
@[simp] theorem State.modChan_chains (s : State) (n : Nat) (f : Chan → Chan) : (s.modChan n f).chains = s.chains := rfl
@[simp] theorem State.modChan_ready (s : State) (n : Nat) (f : Chan → Chan) : (s.modChan n f).ready = s.ready := rfl
@[simp] theorem State.modChan_pcie (s : State) (n : Nat) (f : Chan → Chan) : (s.modChan n f).pcie = s.pcie := rfl
@[simp] theorem State.modChan_net (s : State) (n : Nat) (f : Chan → Chan) : (s.modChan n f).net = s.net := rfl
@[simp] theorem State.modChan_talko (s : State) (n : Nat) (f : Chan → Chan) : (s.modChan n f).talko = s.talko := rfl
@[simp] theorem State.modChan_pow (s : State) (n : Nat) (f : Chan → Chan) : (s.modChan n f).pow = s.pow := rfl
@[simp] theorem State.modChan_trace (s : State) (n : Nat) (f : Chan → Chan) : (s.modChan n f).trace = s.trace := rfl
@[simp] theorem State.modChan_sec (s : State) (n : Nat) (f : Chan → Chan) : (s.modChan n f).sec = s.sec := rfl
@[simp] theorem State.modChan_otp (s : State) (n : Nat) (f : Chan → Chan) : (s.modChan n f).otp = s.otp := rfl
@[simp] theorem State.modChan_flash (s : State) (n : Nat) (f : Chan → Chan) : (s.modChan n f).flash = s.flash := rfl
@[simp] theorem State.modChan_boot (s : State) (n : Nat) (f : Chan → Chan) : (s.modChan n f).boot = s.boot := rfl
@[simp] theorem State.modChan_dump (s : State) (n : Nat) (f : Chan → Chan) : (s.modChan n f).dump = s.dump := rfl
@[simp] theorem State.modChan_dun (s : State) (n : Nat) (f : Chan → Chan) : (s.modChan n f).dun = s.dun := rfl
@[simp] theorem State.modChan_pins (s : State) (n : Nat) (f : Chan → Chan) : (s.modChan n f).pins = s.pins := rfl
@[simp] theorem State.modChan_hints (s : State) (n : Nat) (f : Chan → Chan) : (s.modChan n f).hints = s.hints := rfl
@[simp] theorem State.modChan_reports (s : State) (n : Nat) (f : Chan → Chan) : (s.modChan n f).reports = s.reports := rfl

@[simp] theorem State.modPair_pending (s : State) (n : Nat) (f : PairMem → PairMem) : (s.modPair n f).pending = s.pending := rfl
@[simp] theorem State.modPair_free (s : State) (n : Nat) (f : PairMem → PairMem) : (s.modPair n f).free = s.free := rfl
@[simp] theorem State.modPair_s0 (s : State) (n : Nat) (f : PairMem → PairMem) : (s.modPair n f).s0 = s.s0 := rfl
@[simp] theorem State.modPair_cores (s : State) (n : Nat) (f : PairMem → PairMem) : (s.modPair n f).cores = s.cores := rfl
@[simp] theorem State.modPair_engs (s : State) (n : Nat) (f : PairMem → PairMem) : (s.modPair n f).engs = s.engs := rfl
@[simp] theorem State.modPair_xmsgs (s : State) (n : Nat) (f : PairMem → PairMem) : (s.modPair n f).xmsgs = s.xmsgs := rfl
@[simp] theorem State.modPair_host (s : State) (n : Nat) (f : PairMem → PairMem) : (s.modPair n f).host = s.host := rfl
@[simp] theorem State.modPair_xlt (s : State) (n : Nat) (f : PairMem → PairMem) : (s.modPair n f).xlt = s.xlt := rfl
@[simp] theorem State.modPair_gfe (s : State) (n : Nat) (f : PairMem → PairMem) : (s.modPair n f).gfe = s.gfe := rfl
@[simp] theorem State.modPair_obj (s : State) (n : Nat) (f : PairMem → PairMem) : (s.modPair n f).obj = s.obj := rfl
@[simp] theorem State.modPair_fns (s : State) (n : Nat) (f : PairMem → PairMem) : (s.modPair n f).fns = s.fns := rfl
@[simp] theorem State.modPair_pool (s : State) (n : Nat) (f : PairMem → PairMem) : (s.modPair n f).pool = s.pool := rfl
@[simp] theorem State.modPair_cmp (s : State) (n : Nat) (f : PairMem → PairMem) : (s.modPair n f).cmp = s.cmp := rfl
@[simp] theorem State.modPair_chains (s : State) (n : Nat) (f : PairMem → PairMem) : (s.modPair n f).chains = s.chains := rfl
@[simp] theorem State.modPair_ready (s : State) (n : Nat) (f : PairMem → PairMem) : (s.modPair n f).ready = s.ready := rfl
@[simp] theorem State.modPair_pcie (s : State) (n : Nat) (f : PairMem → PairMem) : (s.modPair n f).pcie = s.pcie := rfl
@[simp] theorem State.modPair_net (s : State) (n : Nat) (f : PairMem → PairMem) : (s.modPair n f).net = s.net := rfl
@[simp] theorem State.modPair_talko (s : State) (n : Nat) (f : PairMem → PairMem) : (s.modPair n f).talko = s.talko := rfl
@[simp] theorem State.modPair_pow (s : State) (n : Nat) (f : PairMem → PairMem) : (s.modPair n f).pow = s.pow := rfl
@[simp] theorem State.modPair_trace (s : State) (n : Nat) (f : PairMem → PairMem) : (s.modPair n f).trace = s.trace := rfl
@[simp] theorem State.modPair_sec (s : State) (n : Nat) (f : PairMem → PairMem) : (s.modPair n f).sec = s.sec := rfl
@[simp] theorem State.modPair_otp (s : State) (n : Nat) (f : PairMem → PairMem) : (s.modPair n f).otp = s.otp := rfl
@[simp] theorem State.modPair_flash (s : State) (n : Nat) (f : PairMem → PairMem) : (s.modPair n f).flash = s.flash := rfl
@[simp] theorem State.modPair_boot (s : State) (n : Nat) (f : PairMem → PairMem) : (s.modPair n f).boot = s.boot := rfl
@[simp] theorem State.modPair_dump (s : State) (n : Nat) (f : PairMem → PairMem) : (s.modPair n f).dump = s.dump := rfl
@[simp] theorem State.modPair_dun (s : State) (n : Nat) (f : PairMem → PairMem) : (s.modPair n f).dun = s.dun := rfl
@[simp] theorem State.modPair_pins (s : State) (n : Nat) (f : PairMem → PairMem) : (s.modPair n f).pins = s.pins := rfl
@[simp] theorem State.modPair_hints (s : State) (n : Nat) (f : PairMem → PairMem) : (s.modPair n f).hints = s.hints := rfl
@[simp] theorem State.modPair_reports (s : State) (n : Nat) (f : PairMem → PairMem) : (s.modPair n f).reports = s.reports := rfl

@[simp] theorem State.modStack_pending (s : State) (n : Nat) (f : Stack → Stack) : (s.modStack n f).pending = s.pending := rfl
@[simp] theorem State.modStack_free (s : State) (n : Nat) (f : Stack → Stack) : (s.modStack n f).free = s.free := rfl
@[simp] theorem State.modStack_s0 (s : State) (n : Nat) (f : Stack → Stack) : (s.modStack n f).s0 = s.s0 := rfl
@[simp] theorem State.modStack_cores (s : State) (n : Nat) (f : Stack → Stack) : (s.modStack n f).cores = s.cores := rfl
@[simp] theorem State.modStack_engs (s : State) (n : Nat) (f : Stack → Stack) : (s.modStack n f).engs = s.engs := rfl
@[simp] theorem State.modStack_xmsgs (s : State) (n : Nat) (f : Stack → Stack) : (s.modStack n f).xmsgs = s.xmsgs := rfl
@[simp] theorem State.modStack_host (s : State) (n : Nat) (f : Stack → Stack) : (s.modStack n f).host = s.host := rfl
@[simp] theorem State.modStack_xlt (s : State) (n : Nat) (f : Stack → Stack) : (s.modStack n f).xlt = s.xlt := rfl
@[simp] theorem State.modStack_gfe (s : State) (n : Nat) (f : Stack → Stack) : (s.modStack n f).gfe = s.gfe := rfl
@[simp] theorem State.modStack_obj (s : State) (n : Nat) (f : Stack → Stack) : (s.modStack n f).obj = s.obj := rfl
@[simp] theorem State.modStack_fns (s : State) (n : Nat) (f : Stack → Stack) : (s.modStack n f).fns = s.fns := rfl
@[simp] theorem State.modStack_pool (s : State) (n : Nat) (f : Stack → Stack) : (s.modStack n f).pool = s.pool := rfl
@[simp] theorem State.modStack_cmp (s : State) (n : Nat) (f : Stack → Stack) : (s.modStack n f).cmp = s.cmp := rfl
@[simp] theorem State.modStack_chains (s : State) (n : Nat) (f : Stack → Stack) : (s.modStack n f).chains = s.chains := rfl
@[simp] theorem State.modStack_ready (s : State) (n : Nat) (f : Stack → Stack) : (s.modStack n f).ready = s.ready := rfl
@[simp] theorem State.modStack_pcie (s : State) (n : Nat) (f : Stack → Stack) : (s.modStack n f).pcie = s.pcie := rfl
@[simp] theorem State.modStack_net (s : State) (n : Nat) (f : Stack → Stack) : (s.modStack n f).net = s.net := rfl
@[simp] theorem State.modStack_talko (s : State) (n : Nat) (f : Stack → Stack) : (s.modStack n f).talko = s.talko := rfl
@[simp] theorem State.modStack_pow (s : State) (n : Nat) (f : Stack → Stack) : (s.modStack n f).pow = s.pow := rfl
@[simp] theorem State.modStack_trace (s : State) (n : Nat) (f : Stack → Stack) : (s.modStack n f).trace = s.trace := rfl
@[simp] theorem State.modStack_sec (s : State) (n : Nat) (f : Stack → Stack) : (s.modStack n f).sec = s.sec := rfl
@[simp] theorem State.modStack_otp (s : State) (n : Nat) (f : Stack → Stack) : (s.modStack n f).otp = s.otp := rfl
@[simp] theorem State.modStack_flash (s : State) (n : Nat) (f : Stack → Stack) : (s.modStack n f).flash = s.flash := rfl
@[simp] theorem State.modStack_boot (s : State) (n : Nat) (f : Stack → Stack) : (s.modStack n f).boot = s.boot := rfl
@[simp] theorem State.modStack_dump (s : State) (n : Nat) (f : Stack → Stack) : (s.modStack n f).dump = s.dump := rfl
@[simp] theorem State.modStack_dun (s : State) (n : Nat) (f : Stack → Stack) : (s.modStack n f).dun = s.dun := rfl
@[simp] theorem State.modStack_pins (s : State) (n : Nat) (f : Stack → Stack) : (s.modStack n f).pins = s.pins := rfl
@[simp] theorem State.modStack_hints (s : State) (n : Nat) (f : Stack → Stack) : (s.modStack n f).hints = s.hints := rfl
@[simp] theorem State.modStack_reports (s : State) (n : Nat) (f : Stack → Stack) : (s.modStack n f).reports = s.reports := rfl

@[simp] theorem State.setFence_pending (s : State) (n i : Nat) (v : Fence) : (s.setFence n i v).pending = s.pending := rfl
@[simp] theorem State.setFence_free (s : State) (n i : Nat) (v : Fence) : (s.setFence n i v).free = s.free := rfl
@[simp] theorem State.setFence_s0 (s : State) (n i : Nat) (v : Fence) : (s.setFence n i v).s0 = s.s0 := rfl
@[simp] theorem State.setFence_cores (s : State) (n i : Nat) (v : Fence) : (s.setFence n i v).cores = s.cores := rfl
@[simp] theorem State.setFence_engs (s : State) (n i : Nat) (v : Fence) : (s.setFence n i v).engs = s.engs := rfl
@[simp] theorem State.setFence_xmsgs (s : State) (n i : Nat) (v : Fence) : (s.setFence n i v).xmsgs = s.xmsgs := rfl
@[simp] theorem State.setFence_mem (s : State) (n i : Nat) (v : Fence) : (s.setFence n i v).mem = s.mem := rfl
@[simp] theorem State.setFence_host (s : State) (n i : Nat) (v : Fence) : (s.setFence n i v).host = s.host := rfl
@[simp] theorem State.setFence_xlt (s : State) (n i : Nat) (v : Fence) : (s.setFence n i v).xlt = s.xlt := rfl
@[simp] theorem State.setFence_gfe (s : State) (n i : Nat) (v : Fence) : (s.setFence n i v).gfe = s.gfe := rfl
@[simp] theorem State.setFence_fns (s : State) (n i : Nat) (v : Fence) : (s.setFence n i v).fns = s.fns := rfl
@[simp] theorem State.setFence_pool (s : State) (n i : Nat) (v : Fence) : (s.setFence n i v).pool = s.pool := rfl
@[simp] theorem State.setFence_cmp (s : State) (n i : Nat) (v : Fence) : (s.setFence n i v).cmp = s.cmp := rfl
@[simp] theorem State.setFence_chains (s : State) (n i : Nat) (v : Fence) : (s.setFence n i v).chains = s.chains := rfl
@[simp] theorem State.setFence_ready (s : State) (n i : Nat) (v : Fence) : (s.setFence n i v).ready = s.ready := rfl
@[simp] theorem State.setFence_pcie (s : State) (n i : Nat) (v : Fence) : (s.setFence n i v).pcie = s.pcie := rfl
@[simp] theorem State.setFence_net (s : State) (n i : Nat) (v : Fence) : (s.setFence n i v).net = s.net := rfl
@[simp] theorem State.setFence_talko (s : State) (n i : Nat) (v : Fence) : (s.setFence n i v).talko = s.talko := rfl
@[simp] theorem State.setFence_pow (s : State) (n i : Nat) (v : Fence) : (s.setFence n i v).pow = s.pow := rfl
@[simp] theorem State.setFence_trace (s : State) (n i : Nat) (v : Fence) : (s.setFence n i v).trace = s.trace := rfl
@[simp] theorem State.setFence_sec (s : State) (n i : Nat) (v : Fence) : (s.setFence n i v).sec = s.sec := rfl
@[simp] theorem State.setFence_otp (s : State) (n i : Nat) (v : Fence) : (s.setFence n i v).otp = s.otp := rfl
@[simp] theorem State.setFence_flash (s : State) (n i : Nat) (v : Fence) : (s.setFence n i v).flash = s.flash := rfl
@[simp] theorem State.setFence_boot (s : State) (n i : Nat) (v : Fence) : (s.setFence n i v).boot = s.boot := rfl
@[simp] theorem State.setFence_dump (s : State) (n i : Nat) (v : Fence) : (s.setFence n i v).dump = s.dump := rfl
@[simp] theorem State.setFence_dun (s : State) (n i : Nat) (v : Fence) : (s.setFence n i v).dun = s.dun := rfl
@[simp] theorem State.setFence_pins (s : State) (n i : Nat) (v : Fence) : (s.setFence n i v).pins = s.pins := rfl
@[simp] theorem State.setFence_hints (s : State) (n i : Nat) (v : Fence) : (s.setFence n i v).hints = s.hints := rfl
@[simp] theorem State.setFence_reports (s : State) (n i : Nat) (v : Fence) : (s.setFence n i v).reports = s.reports := rfl

@[simp] theorem State.setCtx_pending (s : State) (n c : Nat) (v : Ctx) : (s.setCtx n c v).pending = s.pending := rfl
@[simp] theorem State.setCtx_free (s : State) (n c : Nat) (v : Ctx) : (s.setCtx n c v).free = s.free := rfl
@[simp] theorem State.setCtx_s0 (s : State) (n c : Nat) (v : Ctx) : (s.setCtx n c v).s0 = s.s0 := rfl
@[simp] theorem State.setCtx_cores (s : State) (n c : Nat) (v : Ctx) : (s.setCtx n c v).cores = s.cores := rfl
@[simp] theorem State.setCtx_engs (s : State) (n c : Nat) (v : Ctx) : (s.setCtx n c v).engs = s.engs := rfl
@[simp] theorem State.setCtx_xmsgs (s : State) (n c : Nat) (v : Ctx) : (s.setCtx n c v).xmsgs = s.xmsgs := rfl
@[simp] theorem State.setCtx_mem (s : State) (n c : Nat) (v : Ctx) : (s.setCtx n c v).mem = s.mem := rfl
@[simp] theorem State.setCtx_host (s : State) (n c : Nat) (v : Ctx) : (s.setCtx n c v).host = s.host := rfl
@[simp] theorem State.setCtx_xlt (s : State) (n c : Nat) (v : Ctx) : (s.setCtx n c v).xlt = s.xlt := rfl
@[simp] theorem State.setCtx_gfe (s : State) (n c : Nat) (v : Ctx) : (s.setCtx n c v).gfe = s.gfe := rfl
@[simp] theorem State.setCtx_fns (s : State) (n c : Nat) (v : Ctx) : (s.setCtx n c v).fns = s.fns := rfl
@[simp] theorem State.setCtx_pool (s : State) (n c : Nat) (v : Ctx) : (s.setCtx n c v).pool = s.pool := rfl
@[simp] theorem State.setCtx_cmp (s : State) (n c : Nat) (v : Ctx) : (s.setCtx n c v).cmp = s.cmp := rfl
@[simp] theorem State.setCtx_chains (s : State) (n c : Nat) (v : Ctx) : (s.setCtx n c v).chains = s.chains := rfl
@[simp] theorem State.setCtx_ready (s : State) (n c : Nat) (v : Ctx) : (s.setCtx n c v).ready = s.ready := rfl
@[simp] theorem State.setCtx_pcie (s : State) (n c : Nat) (v : Ctx) : (s.setCtx n c v).pcie = s.pcie := rfl
@[simp] theorem State.setCtx_net (s : State) (n c : Nat) (v : Ctx) : (s.setCtx n c v).net = s.net := rfl
@[simp] theorem State.setCtx_talko (s : State) (n c : Nat) (v : Ctx) : (s.setCtx n c v).talko = s.talko := rfl
@[simp] theorem State.setCtx_pow (s : State) (n c : Nat) (v : Ctx) : (s.setCtx n c v).pow = s.pow := rfl
@[simp] theorem State.setCtx_trace (s : State) (n c : Nat) (v : Ctx) : (s.setCtx n c v).trace = s.trace := rfl
@[simp] theorem State.setCtx_sec (s : State) (n c : Nat) (v : Ctx) : (s.setCtx n c v).sec = s.sec := rfl
@[simp] theorem State.setCtx_otp (s : State) (n c : Nat) (v : Ctx) : (s.setCtx n c v).otp = s.otp := rfl
@[simp] theorem State.setCtx_flash (s : State) (n c : Nat) (v : Ctx) : (s.setCtx n c v).flash = s.flash := rfl
@[simp] theorem State.setCtx_boot (s : State) (n c : Nat) (v : Ctx) : (s.setCtx n c v).boot = s.boot := rfl
@[simp] theorem State.setCtx_dump (s : State) (n c : Nat) (v : Ctx) : (s.setCtx n c v).dump = s.dump := rfl
@[simp] theorem State.setCtx_dun (s : State) (n c : Nat) (v : Ctx) : (s.setCtx n c v).dun = s.dun := rfl
@[simp] theorem State.setCtx_pins (s : State) (n c : Nat) (v : Ctx) : (s.setCtx n c v).pins = s.pins := rfl
@[simp] theorem State.setCtx_hints (s : State) (n c : Nat) (v : Ctx) : (s.setCtx n c v).hints = s.hints := rfl
@[simp] theorem State.setCtx_reports (s : State) (n c : Nat) (v : Ctx) : (s.setCtx n c v).reports = s.reports := rfl

@[simp] theorem State.setLlc_pending (s : State) (n : Nat) (v : LlcLine) : (s.setLlc n v).pending = s.pending := rfl
@[simp] theorem State.setLlc_free (s : State) (n : Nat) (v : LlcLine) : (s.setLlc n v).free = s.free := rfl
@[simp] theorem State.setLlc_s0 (s : State) (n : Nat) (v : LlcLine) : (s.setLlc n v).s0 = s.s0 := rfl
@[simp] theorem State.setLlc_cores (s : State) (n : Nat) (v : LlcLine) : (s.setLlc n v).cores = s.cores := rfl
@[simp] theorem State.setLlc_engs (s : State) (n : Nat) (v : LlcLine) : (s.setLlc n v).engs = s.engs := rfl
@[simp] theorem State.setLlc_xmsgs (s : State) (n : Nat) (v : LlcLine) : (s.setLlc n v).xmsgs = s.xmsgs := rfl
@[simp] theorem State.setLlc_host (s : State) (n : Nat) (v : LlcLine) : (s.setLlc n v).host = s.host := rfl
@[simp] theorem State.setLlc_xlt (s : State) (n : Nat) (v : LlcLine) : (s.setLlc n v).xlt = s.xlt := rfl
@[simp] theorem State.setLlc_gfe (s : State) (n : Nat) (v : LlcLine) : (s.setLlc n v).gfe = s.gfe := rfl
@[simp] theorem State.setLlc_obj (s : State) (n : Nat) (v : LlcLine) : (s.setLlc n v).obj = s.obj := rfl
@[simp] theorem State.setLlc_fns (s : State) (n : Nat) (v : LlcLine) : (s.setLlc n v).fns = s.fns := rfl
@[simp] theorem State.setLlc_pool (s : State) (n : Nat) (v : LlcLine) : (s.setLlc n v).pool = s.pool := rfl
@[simp] theorem State.setLlc_cmp (s : State) (n : Nat) (v : LlcLine) : (s.setLlc n v).cmp = s.cmp := rfl
@[simp] theorem State.setLlc_chains (s : State) (n : Nat) (v : LlcLine) : (s.setLlc n v).chains = s.chains := rfl
@[simp] theorem State.setLlc_ready (s : State) (n : Nat) (v : LlcLine) : (s.setLlc n v).ready = s.ready := rfl
@[simp] theorem State.setLlc_pcie (s : State) (n : Nat) (v : LlcLine) : (s.setLlc n v).pcie = s.pcie := rfl
@[simp] theorem State.setLlc_net (s : State) (n : Nat) (v : LlcLine) : (s.setLlc n v).net = s.net := rfl
@[simp] theorem State.setLlc_talko (s : State) (n : Nat) (v : LlcLine) : (s.setLlc n v).talko = s.talko := rfl
@[simp] theorem State.setLlc_pow (s : State) (n : Nat) (v : LlcLine) : (s.setLlc n v).pow = s.pow := rfl
@[simp] theorem State.setLlc_trace (s : State) (n : Nat) (v : LlcLine) : (s.setLlc n v).trace = s.trace := rfl
@[simp] theorem State.setLlc_sec (s : State) (n : Nat) (v : LlcLine) : (s.setLlc n v).sec = s.sec := rfl
@[simp] theorem State.setLlc_otp (s : State) (n : Nat) (v : LlcLine) : (s.setLlc n v).otp = s.otp := rfl
@[simp] theorem State.setLlc_flash (s : State) (n : Nat) (v : LlcLine) : (s.setLlc n v).flash = s.flash := rfl
@[simp] theorem State.setLlc_boot (s : State) (n : Nat) (v : LlcLine) : (s.setLlc n v).boot = s.boot := rfl
@[simp] theorem State.setLlc_dump (s : State) (n : Nat) (v : LlcLine) : (s.setLlc n v).dump = s.dump := rfl
@[simp] theorem State.setLlc_dun (s : State) (n : Nat) (v : LlcLine) : (s.setLlc n v).dun = s.dun := rfl
@[simp] theorem State.setLlc_pins (s : State) (n : Nat) (v : LlcLine) : (s.setLlc n v).pins = s.pins := rfl
@[simp] theorem State.setLlc_hints (s : State) (n : Nat) (v : LlcLine) : (s.setLlc n v).hints = s.hints := rfl
@[simp] theorem State.setLlc_reports (s : State) (n : Nat) (v : LlcLine) : (s.setLlc n v).reports = s.reports := rfl

@[simp] theorem State.setDc_pending (s : State) (c n : Nat) (v : CacheLine) : (s.setDc c n v).pending = s.pending := rfl
@[simp] theorem State.setDc_free (s : State) (c n : Nat) (v : CacheLine) : (s.setDc c n v).free = s.free := rfl
@[simp] theorem State.setDc_s0 (s : State) (c n : Nat) (v : CacheLine) : (s.setDc c n v).s0 = s.s0 := rfl
@[simp] theorem State.setDc_engs (s : State) (c n : Nat) (v : CacheLine) : (s.setDc c n v).engs = s.engs := rfl
@[simp] theorem State.setDc_xmsgs (s : State) (c n : Nat) (v : CacheLine) : (s.setDc c n v).xmsgs = s.xmsgs := rfl
@[simp] theorem State.setDc_mem (s : State) (c n : Nat) (v : CacheLine) : (s.setDc c n v).mem = s.mem := rfl
@[simp] theorem State.setDc_host (s : State) (c n : Nat) (v : CacheLine) : (s.setDc c n v).host = s.host := rfl
@[simp] theorem State.setDc_xlt (s : State) (c n : Nat) (v : CacheLine) : (s.setDc c n v).xlt = s.xlt := rfl
@[simp] theorem State.setDc_gfe (s : State) (c n : Nat) (v : CacheLine) : (s.setDc c n v).gfe = s.gfe := rfl
@[simp] theorem State.setDc_obj (s : State) (c n : Nat) (v : CacheLine) : (s.setDc c n v).obj = s.obj := rfl
@[simp] theorem State.setDc_fns (s : State) (c n : Nat) (v : CacheLine) : (s.setDc c n v).fns = s.fns := rfl
@[simp] theorem State.setDc_pool (s : State) (c n : Nat) (v : CacheLine) : (s.setDc c n v).pool = s.pool := rfl
@[simp] theorem State.setDc_cmp (s : State) (c n : Nat) (v : CacheLine) : (s.setDc c n v).cmp = s.cmp := rfl
@[simp] theorem State.setDc_chains (s : State) (c n : Nat) (v : CacheLine) : (s.setDc c n v).chains = s.chains := rfl
@[simp] theorem State.setDc_ready (s : State) (c n : Nat) (v : CacheLine) : (s.setDc c n v).ready = s.ready := rfl
@[simp] theorem State.setDc_pcie (s : State) (c n : Nat) (v : CacheLine) : (s.setDc c n v).pcie = s.pcie := rfl
@[simp] theorem State.setDc_net (s : State) (c n : Nat) (v : CacheLine) : (s.setDc c n v).net = s.net := rfl
@[simp] theorem State.setDc_talko (s : State) (c n : Nat) (v : CacheLine) : (s.setDc c n v).talko = s.talko := rfl
@[simp] theorem State.setDc_pow (s : State) (c n : Nat) (v : CacheLine) : (s.setDc c n v).pow = s.pow := rfl
@[simp] theorem State.setDc_trace (s : State) (c n : Nat) (v : CacheLine) : (s.setDc c n v).trace = s.trace := rfl
@[simp] theorem State.setDc_sec (s : State) (c n : Nat) (v : CacheLine) : (s.setDc c n v).sec = s.sec := rfl
@[simp] theorem State.setDc_otp (s : State) (c n : Nat) (v : CacheLine) : (s.setDc c n v).otp = s.otp := rfl
@[simp] theorem State.setDc_flash (s : State) (c n : Nat) (v : CacheLine) : (s.setDc c n v).flash = s.flash := rfl
@[simp] theorem State.setDc_boot (s : State) (c n : Nat) (v : CacheLine) : (s.setDc c n v).boot = s.boot := rfl
@[simp] theorem State.setDc_dump (s : State) (c n : Nat) (v : CacheLine) : (s.setDc c n v).dump = s.dump := rfl
@[simp] theorem State.setDc_dun (s : State) (c n : Nat) (v : CacheLine) : (s.setDc c n v).dun = s.dun := rfl
@[simp] theorem State.setDc_pins (s : State) (c n : Nat) (v : CacheLine) : (s.setDc c n v).pins = s.pins := rfl
@[simp] theorem State.setDc_hints (s : State) (c n : Nat) (v : CacheLine) : (s.setDc c n v).hints = s.hints := rfl
@[simp] theorem State.setDc_reports (s : State) (c n : Nat) (v : CacheLine) : (s.setDc c n v).reports = s.reports := rfl

@[simp] theorem State.modTrace_pending (s : State) (n : Nat) (f : TraceDie → TraceDie) : (s.modTrace n f).pending = s.pending := rfl
@[simp] theorem State.modTrace_free (s : State) (n : Nat) (f : TraceDie → TraceDie) : (s.modTrace n f).free = s.free := rfl
@[simp] theorem State.modTrace_s0 (s : State) (n : Nat) (f : TraceDie → TraceDie) : (s.modTrace n f).s0 = s.s0 := rfl
@[simp] theorem State.modTrace_cores (s : State) (n : Nat) (f : TraceDie → TraceDie) : (s.modTrace n f).cores = s.cores := rfl
@[simp] theorem State.modTrace_engs (s : State) (n : Nat) (f : TraceDie → TraceDie) : (s.modTrace n f).engs = s.engs := rfl
@[simp] theorem State.modTrace_xmsgs (s : State) (n : Nat) (f : TraceDie → TraceDie) : (s.modTrace n f).xmsgs = s.xmsgs := rfl
@[simp] theorem State.modTrace_mem (s : State) (n : Nat) (f : TraceDie → TraceDie) : (s.modTrace n f).mem = s.mem := rfl
@[simp] theorem State.modTrace_host (s : State) (n : Nat) (f : TraceDie → TraceDie) : (s.modTrace n f).host = s.host := rfl
@[simp] theorem State.modTrace_xlt (s : State) (n : Nat) (f : TraceDie → TraceDie) : (s.modTrace n f).xlt = s.xlt := rfl
@[simp] theorem State.modTrace_gfe (s : State) (n : Nat) (f : TraceDie → TraceDie) : (s.modTrace n f).gfe = s.gfe := rfl
@[simp] theorem State.modTrace_obj (s : State) (n : Nat) (f : TraceDie → TraceDie) : (s.modTrace n f).obj = s.obj := rfl
@[simp] theorem State.modTrace_fns (s : State) (n : Nat) (f : TraceDie → TraceDie) : (s.modTrace n f).fns = s.fns := rfl
@[simp] theorem State.modTrace_pool (s : State) (n : Nat) (f : TraceDie → TraceDie) : (s.modTrace n f).pool = s.pool := rfl
@[simp] theorem State.modTrace_cmp (s : State) (n : Nat) (f : TraceDie → TraceDie) : (s.modTrace n f).cmp = s.cmp := rfl
@[simp] theorem State.modTrace_chains (s : State) (n : Nat) (f : TraceDie → TraceDie) : (s.modTrace n f).chains = s.chains := rfl
@[simp] theorem State.modTrace_ready (s : State) (n : Nat) (f : TraceDie → TraceDie) : (s.modTrace n f).ready = s.ready := rfl
@[simp] theorem State.modTrace_pcie (s : State) (n : Nat) (f : TraceDie → TraceDie) : (s.modTrace n f).pcie = s.pcie := rfl
@[simp] theorem State.modTrace_net (s : State) (n : Nat) (f : TraceDie → TraceDie) : (s.modTrace n f).net = s.net := rfl
@[simp] theorem State.modTrace_talko (s : State) (n : Nat) (f : TraceDie → TraceDie) : (s.modTrace n f).talko = s.talko := rfl
@[simp] theorem State.modTrace_pow (s : State) (n : Nat) (f : TraceDie → TraceDie) : (s.modTrace n f).pow = s.pow := rfl
@[simp] theorem State.modTrace_sec (s : State) (n : Nat) (f : TraceDie → TraceDie) : (s.modTrace n f).sec = s.sec := rfl
@[simp] theorem State.modTrace_otp (s : State) (n : Nat) (f : TraceDie → TraceDie) : (s.modTrace n f).otp = s.otp := rfl
@[simp] theorem State.modTrace_flash (s : State) (n : Nat) (f : TraceDie → TraceDie) : (s.modTrace n f).flash = s.flash := rfl
@[simp] theorem State.modTrace_boot (s : State) (n : Nat) (f : TraceDie → TraceDie) : (s.modTrace n f).boot = s.boot := rfl
@[simp] theorem State.modTrace_dump (s : State) (n : Nat) (f : TraceDie → TraceDie) : (s.modTrace n f).dump = s.dump := rfl
@[simp] theorem State.modTrace_dun (s : State) (n : Nat) (f : TraceDie → TraceDie) : (s.modTrace n f).dun = s.dun := rfl
@[simp] theorem State.modTrace_pins (s : State) (n : Nat) (f : TraceDie → TraceDie) : (s.modTrace n f).pins = s.pins := rfl
@[simp] theorem State.modTrace_hints (s : State) (n : Nat) (f : TraceDie → TraceDie) : (s.modTrace n f).hints = s.hints := rfl
@[simp] theorem State.modTrace_reports (s : State) (n : Nat) (f : TraceDie → TraceDie) : (s.modTrace n f).reports = s.reports := rfl

@[simp] theorem State.core_setCore_self (s : State) (k : Nat) (v : Core) : (s.setCore k v).core k = v := lookD_putD_self _ _ _ _
theorem State.core_setCore_ne (s : State) {k q : Nat} (v : Core) (h : q ≠ k) : (s.setCore k v).core q = s.core q := lookD_putD_ne _ _ _ h
@[simp] theorem State.core_modCore_self (s : State) (k : Nat) (f : Core → Core) : (s.modCore k f).core k = f (s.core k) :=
  lookD_putD_self _ _ _ _
theorem State.core_modCore_ne (s : State) {k q : Nat} (f : Core → Core) (h : q ≠ k) : (s.modCore k f).core q = s.core q :=
  lookD_putD_ne _ _ _ h

@[simp] theorem State.eng_setEng_self (s : State) (k : Nat) (v : Eng) : (s.setEng k v).eng k = v := lookD_putD_self _ _ _ _
theorem State.eng_setEng_ne (s : State) {k q : Nat} (v : Eng) (h : q ≠ k) : (s.setEng k v).eng q = s.eng q := lookD_putD_ne _ _ _ h
@[simp] theorem State.eng_modEng_self (s : State) (k : Nat) (f : Eng → Eng) : (s.modEng k f).eng k = f (s.eng k) :=
  lookD_putD_self _ _ _ _
theorem State.eng_modEng_ne (s : State) {k q : Nat} (f : Eng → Eng) (h : q ≠ k) : (s.modEng k f).eng q = s.eng q :=
  lookD_putD_ne _ _ _ h

@[simp] theorem State.fn_setFn_self (s : State) (k : Nat) (v : Fn) : (s.setFn k v).fn k = v := lookD_putD_self _ _ _ _
theorem State.fn_setFn_ne (s : State) {k q : Nat} (v : Fn) (h : q ≠ k) : (s.setFn k v).fn q = s.fn q := lookD_putD_ne _ _ _ h
@[simp] theorem State.fn_modFn_self (s : State) (k : Nat) (f : Fn → Fn) : (s.modFn k f).fn k = f (s.fn k) :=
  lookD_putD_self _ _ _ _
theorem State.fn_modFn_ne (s : State) {k q : Nat} (f : Fn → Fn) (h : q ≠ k) : (s.modFn k f).fn q = s.fn q :=
  lookD_putD_ne _ _ _ h

@[simp] theorem State.vd_setVd_self (s : State) (k : Nat) (v : Vd) : (s.setVd k v).vd k = v := lookD_putD_self _ _ _ _
theorem State.vd_setVd_ne (s : State) {k q : Nat} (v : Vd) (h : q ≠ k) : (s.setVd k v).vd q = s.vd q := lookD_putD_ne _ _ _ h
@[simp] theorem State.vd_modVd_self (s : State) (k : Nat) (f : Vd → Vd) : (s.modVd k f).vd k = f (s.vd k) :=
  lookD_putD_self _ _ _ _
theorem State.vd_modVd_ne (s : State) {k q : Nat} (f : Vd → Vd) (h : q ≠ k) : (s.modVd k f).vd q = s.vd q :=
  lookD_putD_ne _ _ _ h

@[simp] theorem State.chain_setChain_self (s : State) (k : Nat) (v : Chain) : (s.setChain k v).chain k = v := lookD_putD_self _ _ _ _
theorem State.chain_setChain_ne (s : State) {k q : Nat} (v : Chain) (h : q ≠ k) : (s.setChain k v).chain q = s.chain q := lookD_putD_ne _ _ _ h
@[simp] theorem State.chain_modChain_self (s : State) (k : Nat) (f : Chain → Chain) : (s.modChain k f).chain k = f (s.chain k) :=
  lookD_putD_self _ _ _ _
theorem State.chain_modChain_ne (s : State) {k q : Nat} (f : Chain → Chain) (h : q ≠ k) : (s.modChain k f).chain q = s.chain q :=
  lookD_putD_ne _ _ _ h

@[simp] theorem State.pf_setPf_self (s : State) (k : Nat) (v : PcieFn) : (s.setPf k v).pf k = v := lookD_putD_self _ _ _ _
theorem State.pf_setPf_ne (s : State) {k q : Nat} (v : PcieFn) (h : q ≠ k) : (s.setPf k v).pf q = s.pf q := lookD_putD_ne _ _ _ h
@[simp] theorem State.pf_modPf_self (s : State) (k : Nat) (f : PcieFn → PcieFn) : (s.modPf k f).pf k = f (s.pf k) :=
  lookD_putD_self _ _ _ _
theorem State.pf_modPf_ne (s : State) {k q : Nat} (f : PcieFn → PcieFn) (h : q ≠ k) : (s.modPf k f).pf q = s.pf q :=
  lookD_putD_ne _ _ _ h

@[simp] theorem State.eng_setCore (s : State) (c : Nat) (v : Core) (k : Nat) : (s.setCore c v).eng k = s.eng k := rfl
@[simp] theorem State.fn_setCore (s : State) (c : Nat) (v : Core) (k : Nat) : (s.setCore c v).fn k = s.fn k := rfl
@[simp] theorem State.vd_setCore (s : State) (c : Nat) (v : Core) (k : Nat) : (s.setCore c v).vd k = s.vd k := rfl
@[simp] theorem State.chain_setCore (s : State) (c : Nat) (v : Core) (k : Nat) : (s.setCore c v).chain k = s.chain k := rfl
@[simp] theorem State.pf_setCore (s : State) (c : Nat) (v : Core) (k : Nat) : (s.setCore c v).pf k = s.pf k := rfl
@[simp] theorem State.chan_setCore (s : State) (c : Nat) (v : Core) (k : Nat) : (s.setCore c v).chan k = s.chan k := rfl
@[simp] theorem State.pairMem_setCore (s : State) (c : Nat) (v : Core) (k : Nat) : (s.setCore c v).pairMem k = s.pairMem k := rfl
@[simp] theorem State.stack_setCore (s : State) (c : Nat) (v : Core) (k : Nat) : (s.setCore c v).stack k = s.stack k := rfl
@[simp] theorem State.llcLine_setCore (s : State) (c : Nat) (v : Core) (k : Nat) : (s.setCore c v).llcLine k = s.llcLine k := rfl
@[simp] theorem State.eng_modCore (s : State) (c : Nat) (f : Core → Core) (k : Nat) : (s.modCore c f).eng k = s.eng k := rfl
@[simp] theorem State.fn_modCore (s : State) (c : Nat) (f : Core → Core) (k : Nat) : (s.modCore c f).fn k = s.fn k := rfl
@[simp] theorem State.vd_modCore (s : State) (c : Nat) (f : Core → Core) (k : Nat) : (s.modCore c f).vd k = s.vd k := rfl
@[simp] theorem State.chain_modCore (s : State) (c : Nat) (f : Core → Core) (k : Nat) : (s.modCore c f).chain k = s.chain k := rfl
@[simp] theorem State.pf_modCore (s : State) (c : Nat) (f : Core → Core) (k : Nat) : (s.modCore c f).pf k = s.pf k := rfl
@[simp] theorem State.chan_modCore (s : State) (c : Nat) (f : Core → Core) (k : Nat) : (s.modCore c f).chan k = s.chan k := rfl
@[simp] theorem State.pairMem_modCore (s : State) (c : Nat) (f : Core → Core) (k : Nat) : (s.modCore c f).pairMem k = s.pairMem k := rfl
@[simp] theorem State.stack_modCore (s : State) (c : Nat) (f : Core → Core) (k : Nat) : (s.modCore c f).stack k = s.stack k := rfl
@[simp] theorem State.llcLine_modCore (s : State) (c : Nat) (f : Core → Core) (k : Nat) : (s.modCore c f).llcLine k = s.llcLine k := rfl
@[simp] theorem State.core_setEng (s : State) (e : Nat) (v : Eng) (k : Nat) : (s.setEng e v).core k = s.core k := rfl
@[simp] theorem State.fn_setEng (s : State) (e : Nat) (v : Eng) (k : Nat) : (s.setEng e v).fn k = s.fn k := rfl
@[simp] theorem State.vd_setEng (s : State) (e : Nat) (v : Eng) (k : Nat) : (s.setEng e v).vd k = s.vd k := rfl
@[simp] theorem State.chain_setEng (s : State) (e : Nat) (v : Eng) (k : Nat) : (s.setEng e v).chain k = s.chain k := rfl
@[simp] theorem State.pf_setEng (s : State) (e : Nat) (v : Eng) (k : Nat) : (s.setEng e v).pf k = s.pf k := rfl
@[simp] theorem State.chan_setEng (s : State) (e : Nat) (v : Eng) (k : Nat) : (s.setEng e v).chan k = s.chan k := rfl
@[simp] theorem State.pairMem_setEng (s : State) (e : Nat) (v : Eng) (k : Nat) : (s.setEng e v).pairMem k = s.pairMem k := rfl
@[simp] theorem State.stack_setEng (s : State) (e : Nat) (v : Eng) (k : Nat) : (s.setEng e v).stack k = s.stack k := rfl
@[simp] theorem State.llcLine_setEng (s : State) (e : Nat) (v : Eng) (k : Nat) : (s.setEng e v).llcLine k = s.llcLine k := rfl
@[simp] theorem State.core_modEng (s : State) (e : Nat) (f : Eng → Eng) (k : Nat) : (s.modEng e f).core k = s.core k := rfl
@[simp] theorem State.fn_modEng (s : State) (e : Nat) (f : Eng → Eng) (k : Nat) : (s.modEng e f).fn k = s.fn k := rfl
@[simp] theorem State.vd_modEng (s : State) (e : Nat) (f : Eng → Eng) (k : Nat) : (s.modEng e f).vd k = s.vd k := rfl
@[simp] theorem State.chain_modEng (s : State) (e : Nat) (f : Eng → Eng) (k : Nat) : (s.modEng e f).chain k = s.chain k := rfl
@[simp] theorem State.pf_modEng (s : State) (e : Nat) (f : Eng → Eng) (k : Nat) : (s.modEng e f).pf k = s.pf k := rfl
@[simp] theorem State.chan_modEng (s : State) (e : Nat) (f : Eng → Eng) (k : Nat) : (s.modEng e f).chan k = s.chan k := rfl
@[simp] theorem State.pairMem_modEng (s : State) (e : Nat) (f : Eng → Eng) (k : Nat) : (s.modEng e f).pairMem k = s.pairMem k := rfl
@[simp] theorem State.stack_modEng (s : State) (e : Nat) (f : Eng → Eng) (k : Nat) : (s.modEng e f).stack k = s.stack k := rfl
@[simp] theorem State.llcLine_modEng (s : State) (e : Nat) (f : Eng → Eng) (k : Nat) : (s.modEng e f).llcLine k = s.llcLine k := rfl
@[simp] theorem State.core_setFn (s : State) (n : Nat) (v : Fn) (k : Nat) : (s.setFn n v).core k = s.core k := rfl
@[simp] theorem State.eng_setFn (s : State) (n : Nat) (v : Fn) (k : Nat) : (s.setFn n v).eng k = s.eng k := rfl
@[simp] theorem State.vd_setFn (s : State) (n : Nat) (v : Fn) (k : Nat) : (s.setFn n v).vd k = s.vd k := rfl
@[simp] theorem State.chain_setFn (s : State) (n : Nat) (v : Fn) (k : Nat) : (s.setFn n v).chain k = s.chain k := rfl
@[simp] theorem State.pf_setFn (s : State) (n : Nat) (v : Fn) (k : Nat) : (s.setFn n v).pf k = s.pf k := rfl
@[simp] theorem State.chan_setFn (s : State) (n : Nat) (v : Fn) (k : Nat) : (s.setFn n v).chan k = s.chan k := rfl
@[simp] theorem State.pairMem_setFn (s : State) (n : Nat) (v : Fn) (k : Nat) : (s.setFn n v).pairMem k = s.pairMem k := rfl
@[simp] theorem State.stack_setFn (s : State) (n : Nat) (v : Fn) (k : Nat) : (s.setFn n v).stack k = s.stack k := rfl
@[simp] theorem State.llcLine_setFn (s : State) (n : Nat) (v : Fn) (k : Nat) : (s.setFn n v).llcLine k = s.llcLine k := rfl
@[simp] theorem State.core_modFn (s : State) (n : Nat) (f : Fn → Fn) (k : Nat) : (s.modFn n f).core k = s.core k := rfl
@[simp] theorem State.eng_modFn (s : State) (n : Nat) (f : Fn → Fn) (k : Nat) : (s.modFn n f).eng k = s.eng k := rfl
@[simp] theorem State.vd_modFn (s : State) (n : Nat) (f : Fn → Fn) (k : Nat) : (s.modFn n f).vd k = s.vd k := rfl
@[simp] theorem State.chain_modFn (s : State) (n : Nat) (f : Fn → Fn) (k : Nat) : (s.modFn n f).chain k = s.chain k := rfl
@[simp] theorem State.pf_modFn (s : State) (n : Nat) (f : Fn → Fn) (k : Nat) : (s.modFn n f).pf k = s.pf k := rfl
@[simp] theorem State.chan_modFn (s : State) (n : Nat) (f : Fn → Fn) (k : Nat) : (s.modFn n f).chan k = s.chan k := rfl
@[simp] theorem State.pairMem_modFn (s : State) (n : Nat) (f : Fn → Fn) (k : Nat) : (s.modFn n f).pairMem k = s.pairMem k := rfl
@[simp] theorem State.stack_modFn (s : State) (n : Nat) (f : Fn → Fn) (k : Nat) : (s.modFn n f).stack k = s.stack k := rfl
@[simp] theorem State.llcLine_modFn (s : State) (n : Nat) (f : Fn → Fn) (k : Nat) : (s.modFn n f).llcLine k = s.llcLine k := rfl
@[simp] theorem State.core_setVd (s : State) (n : Nat) (v : Vd) (k : Nat) : (s.setVd n v).core k = s.core k := rfl
@[simp] theorem State.eng_setVd (s : State) (n : Nat) (v : Vd) (k : Nat) : (s.setVd n v).eng k = s.eng k := rfl
@[simp] theorem State.fn_setVd (s : State) (n : Nat) (v : Vd) (k : Nat) : (s.setVd n v).fn k = s.fn k := rfl
@[simp] theorem State.chain_setVd (s : State) (n : Nat) (v : Vd) (k : Nat) : (s.setVd n v).chain k = s.chain k := rfl
@[simp] theorem State.pf_setVd (s : State) (n : Nat) (v : Vd) (k : Nat) : (s.setVd n v).pf k = s.pf k := rfl
@[simp] theorem State.chan_setVd (s : State) (n : Nat) (v : Vd) (k : Nat) : (s.setVd n v).chan k = s.chan k := rfl
@[simp] theorem State.pairMem_setVd (s : State) (n : Nat) (v : Vd) (k : Nat) : (s.setVd n v).pairMem k = s.pairMem k := rfl
@[simp] theorem State.stack_setVd (s : State) (n : Nat) (v : Vd) (k : Nat) : (s.setVd n v).stack k = s.stack k := rfl
@[simp] theorem State.llcLine_setVd (s : State) (n : Nat) (v : Vd) (k : Nat) : (s.setVd n v).llcLine k = s.llcLine k := rfl
@[simp] theorem State.core_modVd (s : State) (n : Nat) (f : Vd → Vd) (k : Nat) : (s.modVd n f).core k = s.core k := rfl
@[simp] theorem State.eng_modVd (s : State) (n : Nat) (f : Vd → Vd) (k : Nat) : (s.modVd n f).eng k = s.eng k := rfl
@[simp] theorem State.fn_modVd (s : State) (n : Nat) (f : Vd → Vd) (k : Nat) : (s.modVd n f).fn k = s.fn k := rfl
@[simp] theorem State.chain_modVd (s : State) (n : Nat) (f : Vd → Vd) (k : Nat) : (s.modVd n f).chain k = s.chain k := rfl
@[simp] theorem State.pf_modVd (s : State) (n : Nat) (f : Vd → Vd) (k : Nat) : (s.modVd n f).pf k = s.pf k := rfl
@[simp] theorem State.chan_modVd (s : State) (n : Nat) (f : Vd → Vd) (k : Nat) : (s.modVd n f).chan k = s.chan k := rfl
@[simp] theorem State.pairMem_modVd (s : State) (n : Nat) (f : Vd → Vd) (k : Nat) : (s.modVd n f).pairMem k = s.pairMem k := rfl
@[simp] theorem State.stack_modVd (s : State) (n : Nat) (f : Vd → Vd) (k : Nat) : (s.modVd n f).stack k = s.stack k := rfl
@[simp] theorem State.llcLine_modVd (s : State) (n : Nat) (f : Vd → Vd) (k : Nat) : (s.modVd n f).llcLine k = s.llcLine k := rfl
@[simp] theorem State.core_setChain (s : State) (n : Nat) (v : Chain) (k : Nat) : (s.setChain n v).core k = s.core k := rfl
@[simp] theorem State.eng_setChain (s : State) (n : Nat) (v : Chain) (k : Nat) : (s.setChain n v).eng k = s.eng k := rfl
@[simp] theorem State.fn_setChain (s : State) (n : Nat) (v : Chain) (k : Nat) : (s.setChain n v).fn k = s.fn k := rfl
@[simp] theorem State.vd_setChain (s : State) (n : Nat) (v : Chain) (k : Nat) : (s.setChain n v).vd k = s.vd k := rfl
@[simp] theorem State.pf_setChain (s : State) (n : Nat) (v : Chain) (k : Nat) : (s.setChain n v).pf k = s.pf k := rfl
@[simp] theorem State.chan_setChain (s : State) (n : Nat) (v : Chain) (k : Nat) : (s.setChain n v).chan k = s.chan k := rfl
@[simp] theorem State.pairMem_setChain (s : State) (n : Nat) (v : Chain) (k : Nat) : (s.setChain n v).pairMem k = s.pairMem k := rfl
@[simp] theorem State.stack_setChain (s : State) (n : Nat) (v : Chain) (k : Nat) : (s.setChain n v).stack k = s.stack k := rfl
@[simp] theorem State.llcLine_setChain (s : State) (n : Nat) (v : Chain) (k : Nat) : (s.setChain n v).llcLine k = s.llcLine k := rfl
@[simp] theorem State.core_modChain (s : State) (n : Nat) (f : Chain → Chain) (k : Nat) : (s.modChain n f).core k = s.core k := rfl
@[simp] theorem State.eng_modChain (s : State) (n : Nat) (f : Chain → Chain) (k : Nat) : (s.modChain n f).eng k = s.eng k := rfl
@[simp] theorem State.fn_modChain (s : State) (n : Nat) (f : Chain → Chain) (k : Nat) : (s.modChain n f).fn k = s.fn k := rfl
@[simp] theorem State.vd_modChain (s : State) (n : Nat) (f : Chain → Chain) (k : Nat) : (s.modChain n f).vd k = s.vd k := rfl
@[simp] theorem State.pf_modChain (s : State) (n : Nat) (f : Chain → Chain) (k : Nat) : (s.modChain n f).pf k = s.pf k := rfl
@[simp] theorem State.chan_modChain (s : State) (n : Nat) (f : Chain → Chain) (k : Nat) : (s.modChain n f).chan k = s.chan k := rfl
@[simp] theorem State.pairMem_modChain (s : State) (n : Nat) (f : Chain → Chain) (k : Nat) : (s.modChain n f).pairMem k = s.pairMem k := rfl
@[simp] theorem State.stack_modChain (s : State) (n : Nat) (f : Chain → Chain) (k : Nat) : (s.modChain n f).stack k = s.stack k := rfl
@[simp] theorem State.llcLine_modChain (s : State) (n : Nat) (f : Chain → Chain) (k : Nat) : (s.modChain n f).llcLine k = s.llcLine k := rfl
@[simp] theorem State.core_setPf (s : State) (n : Nat) (v : PcieFn) (k : Nat) : (s.setPf n v).core k = s.core k := rfl
@[simp] theorem State.eng_setPf (s : State) (n : Nat) (v : PcieFn) (k : Nat) : (s.setPf n v).eng k = s.eng k := rfl
@[simp] theorem State.fn_setPf (s : State) (n : Nat) (v : PcieFn) (k : Nat) : (s.setPf n v).fn k = s.fn k := rfl
@[simp] theorem State.vd_setPf (s : State) (n : Nat) (v : PcieFn) (k : Nat) : (s.setPf n v).vd k = s.vd k := rfl
@[simp] theorem State.chain_setPf (s : State) (n : Nat) (v : PcieFn) (k : Nat) : (s.setPf n v).chain k = s.chain k := rfl
@[simp] theorem State.chan_setPf (s : State) (n : Nat) (v : PcieFn) (k : Nat) : (s.setPf n v).chan k = s.chan k := rfl
@[simp] theorem State.pairMem_setPf (s : State) (n : Nat) (v : PcieFn) (k : Nat) : (s.setPf n v).pairMem k = s.pairMem k := rfl
@[simp] theorem State.stack_setPf (s : State) (n : Nat) (v : PcieFn) (k : Nat) : (s.setPf n v).stack k = s.stack k := rfl
@[simp] theorem State.llcLine_setPf (s : State) (n : Nat) (v : PcieFn) (k : Nat) : (s.setPf n v).llcLine k = s.llcLine k := rfl
@[simp] theorem State.core_modPf (s : State) (n : Nat) (f : PcieFn → PcieFn) (k : Nat) : (s.modPf n f).core k = s.core k := rfl
@[simp] theorem State.eng_modPf (s : State) (n : Nat) (f : PcieFn → PcieFn) (k : Nat) : (s.modPf n f).eng k = s.eng k := rfl
@[simp] theorem State.fn_modPf (s : State) (n : Nat) (f : PcieFn → PcieFn) (k : Nat) : (s.modPf n f).fn k = s.fn k := rfl
@[simp] theorem State.vd_modPf (s : State) (n : Nat) (f : PcieFn → PcieFn) (k : Nat) : (s.modPf n f).vd k = s.vd k := rfl
@[simp] theorem State.chain_modPf (s : State) (n : Nat) (f : PcieFn → PcieFn) (k : Nat) : (s.modPf n f).chain k = s.chain k := rfl
@[simp] theorem State.chan_modPf (s : State) (n : Nat) (f : PcieFn → PcieFn) (k : Nat) : (s.modPf n f).chan k = s.chan k := rfl
@[simp] theorem State.pairMem_modPf (s : State) (n : Nat) (f : PcieFn → PcieFn) (k : Nat) : (s.modPf n f).pairMem k = s.pairMem k := rfl
@[simp] theorem State.stack_modPf (s : State) (n : Nat) (f : PcieFn → PcieFn) (k : Nat) : (s.modPf n f).stack k = s.stack k := rfl
@[simp] theorem State.llcLine_modPf (s : State) (n : Nat) (f : PcieFn → PcieFn) (k : Nat) : (s.modPf n f).llcLine k = s.llcLine k := rfl
@[simp] theorem State.core_modChan (s : State) (n : Nat) (f : Chan → Chan) (k : Nat) : (s.modChan n f).core k = s.core k := rfl
@[simp] theorem State.eng_modChan (s : State) (n : Nat) (f : Chan → Chan) (k : Nat) : (s.modChan n f).eng k = s.eng k := rfl
@[simp] theorem State.fn_modChan (s : State) (n : Nat) (f : Chan → Chan) (k : Nat) : (s.modChan n f).fn k = s.fn k := rfl
@[simp] theorem State.vd_modChan (s : State) (n : Nat) (f : Chan → Chan) (k : Nat) : (s.modChan n f).vd k = s.vd k := rfl
@[simp] theorem State.chain_modChan (s : State) (n : Nat) (f : Chan → Chan) (k : Nat) : (s.modChan n f).chain k = s.chain k := rfl
@[simp] theorem State.pf_modChan (s : State) (n : Nat) (f : Chan → Chan) (k : Nat) : (s.modChan n f).pf k = s.pf k := rfl
@[simp] theorem State.core_modPair (s : State) (n : Nat) (f : PairMem → PairMem) (k : Nat) : (s.modPair n f).core k = s.core k := rfl
@[simp] theorem State.eng_modPair (s : State) (n : Nat) (f : PairMem → PairMem) (k : Nat) : (s.modPair n f).eng k = s.eng k := rfl
@[simp] theorem State.fn_modPair (s : State) (n : Nat) (f : PairMem → PairMem) (k : Nat) : (s.modPair n f).fn k = s.fn k := rfl
@[simp] theorem State.vd_modPair (s : State) (n : Nat) (f : PairMem → PairMem) (k : Nat) : (s.modPair n f).vd k = s.vd k := rfl
@[simp] theorem State.chain_modPair (s : State) (n : Nat) (f : PairMem → PairMem) (k : Nat) : (s.modPair n f).chain k = s.chain k := rfl
@[simp] theorem State.pf_modPair (s : State) (n : Nat) (f : PairMem → PairMem) (k : Nat) : (s.modPair n f).pf k = s.pf k := rfl
@[simp] theorem State.core_modStack (s : State) (n : Nat) (f : Stack → Stack) (k : Nat) : (s.modStack n f).core k = s.core k := rfl
@[simp] theorem State.eng_modStack (s : State) (n : Nat) (f : Stack → Stack) (k : Nat) : (s.modStack n f).eng k = s.eng k := rfl
@[simp] theorem State.fn_modStack (s : State) (n : Nat) (f : Stack → Stack) (k : Nat) : (s.modStack n f).fn k = s.fn k := rfl
@[simp] theorem State.vd_modStack (s : State) (n : Nat) (f : Stack → Stack) (k : Nat) : (s.modStack n f).vd k = s.vd k := rfl
@[simp] theorem State.chain_modStack (s : State) (n : Nat) (f : Stack → Stack) (k : Nat) : (s.modStack n f).chain k = s.chain k := rfl
@[simp] theorem State.pf_modStack (s : State) (n : Nat) (f : Stack → Stack) (k : Nat) : (s.modStack n f).pf k = s.pf k := rfl
@[simp] theorem State.core_setFence (s : State) (n i : Nat) (v : Fence) (k : Nat) : (s.setFence n i v).core k = s.core k := rfl
@[simp] theorem State.eng_setFence (s : State) (n i : Nat) (v : Fence) (k : Nat) : (s.setFence n i v).eng k = s.eng k := rfl
@[simp] theorem State.fn_setFence (s : State) (n i : Nat) (v : Fence) (k : Nat) : (s.setFence n i v).fn k = s.fn k := rfl
@[simp] theorem State.vd_setFence (s : State) (n i : Nat) (v : Fence) (k : Nat) : (s.setFence n i v).vd k = s.vd k := rfl
@[simp] theorem State.chain_setFence (s : State) (n i : Nat) (v : Fence) (k : Nat) : (s.setFence n i v).chain k = s.chain k := rfl
@[simp] theorem State.pf_setFence (s : State) (n i : Nat) (v : Fence) (k : Nat) : (s.setFence n i v).pf k = s.pf k := rfl
@[simp] theorem State.chan_setFence (s : State) (n i : Nat) (v : Fence) (k : Nat) : (s.setFence n i v).chan k = s.chan k := rfl
@[simp] theorem State.pairMem_setFence (s : State) (n i : Nat) (v : Fence) (k : Nat) : (s.setFence n i v).pairMem k = s.pairMem k := rfl
@[simp] theorem State.stack_setFence (s : State) (n i : Nat) (v : Fence) (k : Nat) : (s.setFence n i v).stack k = s.stack k := rfl
@[simp] theorem State.llcLine_setFence (s : State) (n i : Nat) (v : Fence) (k : Nat) : (s.setFence n i v).llcLine k = s.llcLine k := rfl
@[simp] theorem State.core_setCtx (s : State) (n c : Nat) (v : Ctx) (k : Nat) : (s.setCtx n c v).core k = s.core k := rfl
@[simp] theorem State.eng_setCtx (s : State) (n c : Nat) (v : Ctx) (k : Nat) : (s.setCtx n c v).eng k = s.eng k := rfl
@[simp] theorem State.fn_setCtx (s : State) (n c : Nat) (v : Ctx) (k : Nat) : (s.setCtx n c v).fn k = s.fn k := rfl
@[simp] theorem State.vd_setCtx (s : State) (n c : Nat) (v : Ctx) (k : Nat) : (s.setCtx n c v).vd k = s.vd k := rfl
@[simp] theorem State.chain_setCtx (s : State) (n c : Nat) (v : Ctx) (k : Nat) : (s.setCtx n c v).chain k = s.chain k := rfl
@[simp] theorem State.pf_setCtx (s : State) (n c : Nat) (v : Ctx) (k : Nat) : (s.setCtx n c v).pf k = s.pf k := rfl
@[simp] theorem State.chan_setCtx (s : State) (n c : Nat) (v : Ctx) (k : Nat) : (s.setCtx n c v).chan k = s.chan k := rfl
@[simp] theorem State.pairMem_setCtx (s : State) (n c : Nat) (v : Ctx) (k : Nat) : (s.setCtx n c v).pairMem k = s.pairMem k := rfl
@[simp] theorem State.stack_setCtx (s : State) (n c : Nat) (v : Ctx) (k : Nat) : (s.setCtx n c v).stack k = s.stack k := rfl
@[simp] theorem State.llcLine_setCtx (s : State) (n c : Nat) (v : Ctx) (k : Nat) : (s.setCtx n c v).llcLine k = s.llcLine k := rfl
@[simp] theorem State.core_setLlc (s : State) (n : Nat) (v : LlcLine) (k : Nat) : (s.setLlc n v).core k = s.core k := rfl
@[simp] theorem State.eng_setLlc (s : State) (n : Nat) (v : LlcLine) (k : Nat) : (s.setLlc n v).eng k = s.eng k := rfl
@[simp] theorem State.fn_setLlc (s : State) (n : Nat) (v : LlcLine) (k : Nat) : (s.setLlc n v).fn k = s.fn k := rfl
@[simp] theorem State.vd_setLlc (s : State) (n : Nat) (v : LlcLine) (k : Nat) : (s.setLlc n v).vd k = s.vd k := rfl
@[simp] theorem State.chain_setLlc (s : State) (n : Nat) (v : LlcLine) (k : Nat) : (s.setLlc n v).chain k = s.chain k := rfl
@[simp] theorem State.pf_setLlc (s : State) (n : Nat) (v : LlcLine) (k : Nat) : (s.setLlc n v).pf k = s.pf k := rfl
@[simp] theorem State.eng_setDc (s : State) (c n : Nat) (v : CacheLine) (k : Nat) : (s.setDc c n v).eng k = s.eng k := rfl
@[simp] theorem State.fn_setDc (s : State) (c n : Nat) (v : CacheLine) (k : Nat) : (s.setDc c n v).fn k = s.fn k := rfl
@[simp] theorem State.vd_setDc (s : State) (c n : Nat) (v : CacheLine) (k : Nat) : (s.setDc c n v).vd k = s.vd k := rfl
@[simp] theorem State.chain_setDc (s : State) (c n : Nat) (v : CacheLine) (k : Nat) : (s.setDc c n v).chain k = s.chain k := rfl
@[simp] theorem State.pf_setDc (s : State) (c n : Nat) (v : CacheLine) (k : Nat) : (s.setDc c n v).pf k = s.pf k := rfl
@[simp] theorem State.chan_setDc (s : State) (c n : Nat) (v : CacheLine) (k : Nat) : (s.setDc c n v).chan k = s.chan k := rfl
@[simp] theorem State.pairMem_setDc (s : State) (c n : Nat) (v : CacheLine) (k : Nat) : (s.setDc c n v).pairMem k = s.pairMem k := rfl
@[simp] theorem State.stack_setDc (s : State) (c n : Nat) (v : CacheLine) (k : Nat) : (s.setDc c n v).stack k = s.stack k := rfl
@[simp] theorem State.llcLine_setDc (s : State) (c n : Nat) (v : CacheLine) (k : Nat) : (s.setDc c n v).llcLine k = s.llcLine k := rfl
@[simp] theorem State.core_modTrace (s : State) (n : Nat) (f : TraceDie → TraceDie) (k : Nat) : (s.modTrace n f).core k = s.core k := rfl
@[simp] theorem State.eng_modTrace (s : State) (n : Nat) (f : TraceDie → TraceDie) (k : Nat) : (s.modTrace n f).eng k = s.eng k := rfl
@[simp] theorem State.fn_modTrace (s : State) (n : Nat) (f : TraceDie → TraceDie) (k : Nat) : (s.modTrace n f).fn k = s.fn k := rfl
@[simp] theorem State.vd_modTrace (s : State) (n : Nat) (f : TraceDie → TraceDie) (k : Nat) : (s.modTrace n f).vd k = s.vd k := rfl
@[simp] theorem State.chain_modTrace (s : State) (n : Nat) (f : TraceDie → TraceDie) (k : Nat) : (s.modTrace n f).chain k = s.chain k := rfl
@[simp] theorem State.pf_modTrace (s : State) (n : Nat) (f : TraceDie → TraceDie) (k : Nat) : (s.modTrace n f).pf k = s.pf k := rfl
@[simp] theorem State.chan_modTrace (s : State) (n : Nat) (f : TraceDie → TraceDie) (k : Nat) : (s.modTrace n f).chan k = s.chan k := rfl
@[simp] theorem State.pairMem_modTrace (s : State) (n : Nat) (f : TraceDie → TraceDie) (k : Nat) : (s.modTrace n f).pairMem k = s.pairMem k := rfl
@[simp] theorem State.stack_modTrace (s : State) (n : Nat) (f : TraceDie → TraceDie) (k : Nat) : (s.modTrace n f).stack k = s.stack k := rfl
@[simp] theorem State.llcLine_modTrace (s : State) (n : Nat) (f : TraceDie → TraceDie) (k : Nat) : (s.modTrace n f).llcLine k = s.llcLine k := rfl

@[simp] theorem State.chan_modChan_self (s : State) (k : Nat) (f : Chan → Chan) : (s.modChan k f).chan k = f (s.chan k) :=
  lookD_putD_self _ _ _ _
theorem State.chan_modChan_ne (s : State) {k q : Nat} (f : Chan → Chan) (h : q ≠ k) : (s.modChan k f).chan q = s.chan q :=
  lookD_putD_ne _ _ _ h
@[simp] theorem State.pairMem_modPair_self (s : State) (k : Nat) (f : PairMem → PairMem) : (s.modPair k f).pairMem k = f (s.pairMem k) :=
  lookD_putD_self _ _ _ _
theorem State.pairMem_modPair_ne (s : State) {k q : Nat} (f : PairMem → PairMem) (h : q ≠ k) : (s.modPair k f).pairMem q = s.pairMem q :=
  lookD_putD_ne _ _ _ h
@[simp] theorem State.stack_modStack_self (s : State) (k : Nat) (f : Stack → Stack) : (s.modStack k f).stack k = f (s.stack k) :=
  lookD_putD_self _ _ _ _
theorem State.stack_modStack_ne (s : State) {k q : Nat} (f : Stack → Stack) (h : q ≠ k) : (s.modStack k f).stack q = s.stack q :=
  lookD_putD_ne _ _ _ h
@[simp] theorem State.llcLine_setLlc_self (s : State) (k : Nat) (v : LlcLine) : (s.setLlc k v).llcLine k = v := lookD_putD_self _ _ _ _
theorem State.llcLine_setLlc_ne (s : State) {k q : Nat} (v : LlcLine) (h : q ≠ k) : (s.setLlc k v).llcLine q = s.llcLine q :=
  lookD_putD_ne _ _ _ h
@[simp] theorem State.dcLine_setDc_self (s : State) (c k : Nat) (v : CacheLine) : (s.setDc c k v).dcLine c k = v := by
  simp [State.dcLine, State.setDc]
@[simp] theorem State.fence_setFence_self (s : State) (n i : Nat) (v : Fence) : (s.setFence n i v).fence n i = v := lookD_putD_self _ _ _ _
@[simp] theorem State.ctx_setCtx_self (s : State) (n c : Nat) (v : Ctx) : (s.setCtx n c v).ctx? n c = some v := look_put_self _ _ _

end Sys2Proof.Machine
end

