-- ==== Sys2Proof/Laws/Engine.lean ====
section
/-! SUPPORT. What the engine's register operations read and change. -/

namespace Sys2Proof.Machine

@[simp] theorem vlane_setVreg_self (x : Eng) (r i : Nat) (v : List W32) : vlane (setVreg x r v) r i = v.getD i 0 := by
  unfold vlane setVreg
  by_cases h : v.all (· == 0)
  · simp only [h, if_true, lookD, look_del_self, Option.getD_none]
    simp only [List.all_eq_true, beq_iff_eq] at h
    by_cases hi : i < v.length
    · simp [hi, h _ (List.getElem_mem hi)]
    · simp [hi]
  · simp only [h]
    simp

theorem vlane_setVreg_ne (x : Eng) {r q : Nat} (i : Nat) (v : List W32) (h : q ≠ r) : vlane (setVreg x r v) q i = vlane x q i := by
  unfold vlane setVreg
  dsimp only
  split <;> simp [lookD, look_del_ne _ h, look_put_ne _ _ h]

/-- A vector write changes the vector registers alone. -/
@[simp] theorem setVreg_rest (x : Eng) (r : Nat) (v : List W32) : { setVreg x r v with vregs := x.vregs } = x := rfl

@[simp] theorem maskReg_setMask_self (x : Eng) (m : Nat) (v : W64) : maskReg (setMask x m v) m = v := lookD_putD_self _ _ _ _
theorem maskReg_setMask_ne (x : Eng) {m q : Nat} (v : W64) (h : q ≠ m) : maskReg (setMask x m v) q = maskReg x q := lookD_putD_ne _ _ _ h
@[simp] theorem sreg_setSreg_self (x : Eng) (m : Nat) (v : W64) : sreg (setSreg x m v) m = v := lookD_putD_self _ _ _ _
theorem sreg_setSreg_ne (x : Eng) {m q : Nat} (v : W64) (h : q ≠ m) : sreg (setSreg x m v) q = sreg x q := lookD_putD_ne _ _ _ h

/-- A command on one engine answers a next state that differs in that engine alone. -/
theorem doneKeep_onEng (s : State) (e : EngId) (f : Eng → Eng) :
    ∃ t, doneKeep s (onEng s e f) = .next t ∧ (t = { s with engs := t.engs } ∧ ∀ k, k ≠ e.val → t.eng k = s.eng k) ∧
      t.eng e.val = f (s.eng e.val) :=
  ⟨_, rfl, ⟨rfl, fun _ h => State.eng_modEng_ne s f h⟩, State.eng_modEng_self s e.val f⟩

/-- The lanes of a lane-wise result. -/
theorem getD_map_range64 (f : Nat → W32) (i : Nat) (h : i < 64) : ((List.range 64).map f).getD i 0 = f i := by
  simp [h]

end Sys2Proof.Machine
end

