-- ==== Sys2Proof/Laws/Memory.lean ====
section
/-! SUPPORT. Laws of the byte tables: read after write, and that every memory operation keeps the canonical form. -/

namespace Sys2Proof.Machine

/- Byte tables. -/

theorem cellsWf_putD (m : List Host.Cell) (a : Nat) (b : Byte) (h : cellsWf m = true) : cellsWf (putD m a b 0) = true := by
  simp only [cellsWf, Bool.and_eq_true, List.all_eq_true, decide_eq_true_eq] at *
  exact ⟨sortedKeys_putD m a b 0 h.1, putD_all_ne m a b 0 h.2⟩

theorem cellsWf_writeCells (bs : List Byte) (m : List Host.Cell) (a : Nat) (h : cellsWf m = true) :
    cellsWf (writeCells m a bs) = true := by
  induction bs generalizing m a with
  | nil => exact h
  | cons b bs ih => exact ih _ _ (cellsWf_putD m a b h)

/-- A byte outside the range written reads as before. -/
theorem lookD_writeCells_out (bs : List Byte) (m : List Host.Cell) (a x : Nat) (h : x < a ∨ a + bs.length ≤ x) :
    lookD (writeCells m a bs) x 0 = lookD m x 0 := by
  induction bs generalizing m a with
  | nil => rfl
  | cons b bs ih =>
    simp only [List.length_cons] at h
    rw [writeCells, ih _ _ (by omega), lookD_putD_ne _ _ _ (by omega)]

/-- A byte inside the range written reads as the byte written. -/
theorem lookD_writeCells_in (bs : List Byte) (m : List Host.Cell) (a i : Nat) (h : i < bs.length) :
    lookD (writeCells m a bs) (a + i) 0 = bs[i] := by
  induction bs generalizing m a i with
  | nil => simp at h
  | cons b bs ih =>
    cases i with
    | zero =>
      rw [writeCells, Nat.add_zero, lookD_writeCells_out _ _ _ _ (by omega)]
      simp
    | succ i =>
      have := ih (putD m a b 0) (a + 1) i (by simpa using h)
      rw [writeCells, show a + (i + 1) = a + 1 + i by omega, this]
      simp

theorem readCells_writeCells (bs : List Byte) (m : List Host.Cell) (a : Nat) : readCells (writeCells m a bs) a bs.length = bs := by
  apply List.ext_getElem
  · simp [readCells]
  · intro i h1 h2
    simpa [readCells] using lookD_writeCells_in bs m a i h2

/- The state's two memories. -/

theorem memWf_eq {s t : State} (h1 : t.mem.hbm = s.mem.hbm) (h2 : t.host = s.host) (h : s.memWf = true) : t.memWf = true := by
  simpa [State.memWf, h1, h2] using h

theorem memWf_foldl {α : Type} (f : State → α → State) (hf : ∀ s x, s.memWf = true → (f s x).memWf = true) (l : List α) (s : State)
    (h : s.memWf = true) : (l.foldl f s).memWf = true := by
  induction l generalizing s with
  | nil => exact h
  | cons x l ih => exact ih _ (hf s x h)

theorem hbmWrite_memWf (s : State) (a : Nat) (bs : List Byte) (p : Bool) (h : s.memWf = true) : (hbmWrite s a bs p).memWf = true := by
  simp only [State.memWf, Bool.and_eq_true] at *
  exact ⟨cellsWf_writeCells bs _ a h.1, h.2⟩

theorem setLlc_memWf (s : State) (k : Nat) (v : LlcLine) (h : s.memWf = true) : (s.setLlc k v).memWf = true := memWf_eq rfl rfl h

theorem dropCopies_memWf (s : State) (k : Nat) (h : s.memWf = true) : (dropCopies s k).memWf = true := memWf_eq rfl rfl h

theorem dropStale_memWf (s : State) (tag : BitVec 12) (k : Nat) (h : s.memWf = true) : (dropStale s tag k).memWf = true := by
  unfold dropStale
  dsimp only
  split
  · apply setLlc_memWf
    split
    · exact memWf_eq (s := dropCopies s k) rfl rfl (dropCopies_memWf s k h)
    · exact dropCopies_memWf s k h
  · exact h

theorem writeLinePart_memWf (s : State) (tag : BitVec 12) (a : Nat) (bs : List Byte) (p : Bool) (h : s.memWf = true) :
    (writeLinePart s tag a bs p).memWf = true := by
  unfold writeLinePart
  dsimp only
  split
  · exact setLlc_memWf _ _ _ (dropCopies_memWf _ _ (dropStale_memWf _ _ _ h))
  · exact hbmWrite_memWf _ _ _ _ (dropStale_memWf _ _ _ h)

theorem writeDpaRaw_memWf (s : State) (tag : BitVec 12) (a : Nat) (bs : List Byte) (p : Bool) (h : s.memWf = true) :
    (writeDpaRaw s tag a bs p).memWf = true :=
  memWf_foldl _ (fun s _ h => writeLinePart_memWf s _ _ _ _ h) _ s h

theorem setLogBit_memWf (s : State) (b i : Nat) (h : s.memWf = true) : (setLogBit s b i).memWf = true :=
  writeDpaRaw_memWf _ _ _ _ _ h

theorem logDev_memWf (s : State) (f a n : Nat) (h : s.memWf = true) : (logDev s f a n).memWf = true := by
  unfold logDev
  split
  · split
    · exact memWf_foldl _ (fun s _ h => setLogBit_memWf s _ _ h) _ s h
    · exact h
  · exact h

theorem logHost_memWf (s : State) (f a n : Nat) (h : s.memWf = true) : (logHost s f a n).memWf = true := by
  unfold logHost
  split
  · split
    · refine memWf_foldl _ (fun s x h => ?_) _ s h
      split
      · exact setLogBit_memWf s _ _ h
      · exact memWf_eq rfl rfl h
    · exact h
  · exact h

theorem writeDpa_memWf (s : State) (v a : Nat) (bs : List Byte) (h : s.memWf = true) : (writeDpa s v a bs).memWf = true :=
  logDev_memWf _ _ _ _ (writeDpaRaw_memWf _ _ _ _ _ h)

theorem writeHost_memWf (s : State) (f a : Nat) (bs : List Byte) (h : s.memWf = true) : (writeHost s f a bs).memWf = true := by
  unfold writeHost
  refine memWf_eq (s := logHost { s with host := writeCells s.host a bs } f a bs.length) rfl rfl (logHost_memWf _ _ _ _ ?_)
  simp only [State.memWf, Bool.and_eq_true] at *
  exact ⟨h.1, cellsWf_writeCells bs _ a h.2⟩

theorem reset_memWf : State.reset.memWf = true := by decide

end Sys2Proof.Machine
end

