-- ==== Sys2Proof/Tests/Slice0.lean ====
section
/-! SUPPORT. The row's own tests: the checks of WellFormed refuse ill-formed commands, no word spells a command,
the state after reset idles, and for every obligation a state and operands that meet the hypotheses of each of its clauses. -/

namespace Sys2Proof.Tests
open Sys2Proof Sys2Proof.Machine Sys2Proof.Safety Sys2Proof.Claims
set_option Elab.async false
set_option linter.unusedVariables false
set_option linter.constructorNameAsVariable false

/-- A multicast of 2,049 bytes is refused (R234). -/
theorem test_wf_multicast_too_long : Instr.wellFormed (.multicastIssue 0 0 (.scratch 0) (List.replicate 2049 0)) = false := by decide +kernel

/-- A write of no bytes is refused (R152). -/
theorem test_wf_hbm_write_empty : Instr.wellFormed (.hbmWrite 0 0 [] false 0) = false := by decide

/-- A write past its line is refused (R152). -/
theorem test_wf_hbm_write_over_line : Instr.wellFormed (.hbmWrite 0 127 [1, 2] false 0) = false := by decide

/-- A poll of eight lines is refused (R358). -/
theorem test_wf_laser_poll_eight_lines : Instr.wellFormed (.laserPoll 0 false (List.replicate 8 {})) = false := by decide

/-- A mode record of 15 bytes is refused (R372). -/
theorem test_wf_commit_record_short : Instr.wellFormed (.linkCommit 0 (List.replicate 15 0)) = false := by decide

/-- A root digest of 47 bytes is refused (R374). -/
theorem test_wf_session_root_short : Instr.wellFormed (.portSessionDone 0 (List.replicate 47 0)) = false := by decide

/-- A sample without its readings is refused (R438). -/
theorem test_wf_sensor_sample_short : Instr.wellFormed (.sensorSample [] [] []) = false := by decide

/-- A challenge without a nonce is refused (R467). -/
theorem test_wf_challenge_nonce_short : Instr.wellFormed (.spdmChallenge .c1 0 []) = false := by decide

/-- A signed request without a nonce is refused (R467). -/
theorem test_wf_measurements_nonce_short : Instr.wellFormed (.spdmGetMeasurements .c1 .all true []) = false := by decide

/-- A key exchange without a nonce is refused (R467). -/
theorem test_wf_key_exchange_nonce_short : Instr.wellFormed (.spdmKeyExchange .c1 []) = false := by decide

/-- A model key of no bytes is refused (R475). -/
theorem test_wf_key_blob_short : Instr.wellFormed (.keyBlob (.doe 1) true (some [])) = false := by decide

/-- A training run of seven stacks is refused (R149). -/
theorem test_wf_training_seven_stacks : Instr.wellFormed (.bootHbmTraining (List.replicate 7 {}) [] 0) = false := by decide

/-- A step of three tiles is refused (R355). -/
theorem test_wf_photonics_three_tiles : Instr.wellFormed (.bootPhotonics (List.replicate 3 .waiting) [] 0) = false := by decide

/-- A set of five images is refused (R495). -/
theorem test_wf_set_of_five_images : Instr.wellFormed (.setCommit (.doe 0) (List.replicate 5 (true, true, true))) = false := by decide

/-- A patrol of fifteen channels is refused (R149). -/
theorem test_wf_patrol_fifteen_channels : Instr.wellFormed (.patrolPassComplete 0 (List.replicate 15 0)) = false := by decide

/-- The longest well-formed multicast is taken (R234). -/
theorem test_wf_multicast_longest : Instr.wellFormed (.multicastIssue 0 0 (.scratch 0) (List.replicate 2048 0)) = true := by decide +kernel

/-- The table gives no row bits, so no word spells a command and withFetchWord leaves the state alone (DESIGN CHOICE, log 2). -/
theorem test_no_table_words : decodeTableWord 32 0 = none ∧ State.reset.withFetchWord 32 0 = State.reset := ⟨rfl, rfl⟩

/-- Right after reset no start runs, so a step on the empty queue changes nothing (R418, log 1). -/
theorem test_reset_idles : step State.reset = .next State.reset := rfl

/-- The state a command's meaning answers. -/
def after (c : Instr) (s : State) : State := match exec c s with | .next t => t | _ => s

/-- A computed success, from a check that evaluates. -/
theorem ok_of {ε α : Type} [DecidableEq α] (x : Except ε α) (a : α)
    (h : (match x with | .ok y => decide (y = a) | .error _ => false) = true) : x = .ok a := by
  cases x with
  | ok y => simp at h; rw [h]
  | error e => simp at h

/-- A computed failure, from a check that evaluates. -/
theorem error_of {ε α : Type} [DecidableEq ε] (x : Except ε α) (a : ε)
    (h : (match x with | .error y => decide (y = a) | .ok _ => false) = true) : x = .error a := by
  cases x with
  | error y => simp at h; rw [h]
  | ok e => simp at h

theorem some_getD {α : Type} (o : Option α) (d : α) (h : o.isSome = true) : o = some (o.getD d) := by
  cases o <;> simp at h ⊢

/-- A state and operands that meet the hypotheses of VectorCompares. -/
theorem wit_VectorCompares :
    (∃ (_p : VCmp) (x y : W32), (isNan32 x = true ∨ isNan32 y = true) ∧ True) :=
  ⟨.ne, 0x7FC00000#32, 0#32, by decide, trivial⟩

/-- States and operands that meet the hypotheses of every clause of VectorMinMaxRules. -/
theorem wit_VectorMinMaxRules :
    (∃ (_mx : Bool) (x y : W32), (isNan32 x = true) ∧ (isNan32 y = true) ∧ True) ∧
    (∃ (_mx : Bool) (x y : W32), (isNan32 x = true) ∧ (isNan32 y = false) ∧ True) ∧
    (∃ (_mx : Bool) (x y : W32), (isNan32 x = false) ∧ (isNan32 y = false) ∧ True) :=
  ⟨⟨true, 0x7FC00001#32, 0xFFC00000#32, by decide, by decide, trivial⟩,
   ⟨false, 0x7FC00001#32, 0xFF800000#32, by decide, by decide, trivial⟩,
   ⟨true, 0x7F800000#32, 0#32, by decide, by decide, trivial⟩⟩

/-- States and operands that meet the hypotheses of every clause of GatherScatterConvert. -/
theorem wit_GatherScatterConvert :
    (∃ (_e : EngId) (_d _sd _a _sa : Nat) (_src dst : CvtFmt) (_rm : RMode) (_ov : Ovf) (_seed : W64) (_tensor : W32) (_il _ih : Nat) (_s : State), (isMx (cvtFmt dst) = false) ∧ True) ∧
    (∃ (_e : EngId) (_d _sd _a _sa : Nat) (_src dst : CvtFmt) (_rm : RMode) (_ov : Ovf) (_seed : W64) (_tensor : W32) (_il _ih : Nat) (_s : State), (isMx (cvtFmt dst) = true) ∧ True) :=
  ⟨⟨0, 1, 2, 3, 4, .fp32, .e4m3, .sr, .default, 0, 0, 0, 0, State.reset, by decide, trivial⟩,
   ⟨0, 1, 2, 3, 4, .fp32, .mxE4m3, .rne, .default, 0, 0, 0, 0, State.reset, by decide, trivial⟩⟩

/-- States and operands that meet the hypotheses of every clause of BarrierFenceSwgen. -/
theorem wit_BarrierFenceSwgen :
    (∃ (e : EngId) (s : State), (∃ i ∈ coreEngs (engCore e.val), i ≠ e.val ∧ (s.eng i).atBarrier = false ∧ (s.eng i).run.isSome = true) ∧ True) ∧
    (∃ (e : EngId) (s : State), (∀ i ∈ coreEngs (engCore e.val), i ≠ e.val → (s.eng i).atBarrier = true ∨ (s.eng i).run.isNone = true) ∧ True) :=
  ⟨⟨0, { engs := [(7, { run := some {} })] }, by decide, trivial⟩,
   ⟨0, { engs := [(0, { run := some {} }), (7, { run := some {}, atBarrier := true })] }, by decide, trivial⟩⟩

/-- Slice 0, with every core group, pair and port, serves VD 1, whose tag is 5. -/
def onePool : Pool :=
  { cgReady := 0xFFFFFFFFFFFF, pairReady := 0xFFFFFFFFFFFFFFFF
    slices := [(0, { cgs := 0xFFFFFFFFFFFF, pairs := 0xFFFFFFFFFFFFFFFF, ports := 0xFFFFFF, st := .bound 1 })] }
/-- VD 1 owns the whole pool and has context 3, whose table is at 0 and maps the first 512 MiB to 0x20000000. -/
def oneVd : State :=
  { pool := onePool, cmp := { vds := [(1, { live := true, tag := 5 })] }, obj := { ctxs := [(ctxKey 1 3, {})] }
    mem := { hbm := [(0, 1), (2, 1), (0x10000, 7), (0x10003, 0x20)] } }
/-- The translations of context 3, cached. -/
def oneTlb : List XEntry := [⟨1, 3, 3, 0, 0x10001#64⟩, ⟨1, 3, 2, 0, 0x20000007#64⟩]
/-- Core 0 holds line 0x400000 in a state. -/
def holdsLine (m : Moesi) : State :=
  { oneVd with cores := [(0, { curTag := 5, xtlb := oneTlb, dcache := [(0x400000, { st := m, tag := 5, data := 0x1234 })] })] }

/-- States and operands that meet the hypotheses of every clause of ScalarAccessHits. -/
theorem wit_ScalarAccessHits :
    (∃ (e : EngId) (_d : Nat) (ctx : Fin 4096) (va : W64) (z : AccSize) (_u : Bool) (line off : Nat) (s : State), (hitLine s (engCore e.val) va.toNat (accBytes z) line off ctx.val false) ∧ ((s.dcLine (engCore e.val) line).st ≠ .i) ∧ True) ∧
    (∃ (e : EngId) (ctx : Fin 4096) (va : W64) (z : AccSize) (_v : W64) (_u : Bool) (line off : Nat) (s : State), (hitLine s (engCore e.val) va.toNat (accBytes z) line off ctx.val true) ∧ ((s.dcLine (engCore e.val) line).st = .e ∨ (s.dcLine (engCore e.val) line).st = .m) ∧ True) :=
  ⟨⟨7, 31, 3, 0x78#64, .b8, false, 0x400000, 0x78, holdsLine .s, ⟨1, 0x20000000 - 0x78, false, by decide, ⟨_, rfl, by decide⟩, by decide, by decide, by decide, by decide, by decide, by decide⟩, by decide, trivial⟩,
   ⟨0, 3, 0#64, .b1, 0xFF#64, false, 0x400000, 0, holdsLine .e, ⟨1, 0x20000000, false, by decide, ⟨_, rfl, by decide⟩, by decide, by decide, by decide, by decide, by decide, by decide⟩, by decide, trivial⟩⟩

/-- A launch of context 3 with one matrix node of one INT8 by INT8 product of length 2 to INT32. -/
def oneLaunch : Launch :=
  { fn := 1, ctx := 3, vd := 1, cores := [0], slots := [0], started := [0], left := [(0, 2)]
    nodes := [{ kind := 1, fmtA := 0x0B, fmtB := 0x0B, fmtOut := 0x12, m := 1, n := 1, k := 2, aP := 0, bP := 8, outP := 16 }]
    cb := natLe 8 0 ++ natLe 8 64 ++ natLe 8 128 }
/-- The device of oneVd with launch 9 on core 0, its operands (3, 4) and (5, 6) in memory. -/
def oneRun : State :=
  { oneVd with
    mem := { hbm := [(0, 1), (2, 1), (0x10000, 7), (0x10003, 0x20), (0x20000000, 3), (0x20000001, 4), (0x20000040, 5), (0x20000041, 6)] }
    gfe := { launches := [(9, oneLaunch)] }
    cores := [(0, { st := .running, curTag := 5, xtlb := oneTlb })] }
def longTile : Tile := { launch := 9, kEnd := 8192 }

/-- States and operands that meet the hypotheses of every clause of TilesReachEngines. -/
theorem wit_TilesReachEngines :
    (∃ (c : CoreId) (wants : BitVec 8) (s : State) (t : Tile) (q : List Tile) (i : Nat), ((s.core c.val).tq = t :: q) ∧ (((List.range 8).map (fun j => ((s.core c.val).lastPull + 1 + j) % 8)).find? (fun j => wants.toNat.testBit j && canPull s (8 * c.val + j) && decide ((s.eng (8 * c.val + j)).queue.length < 4)) = some i) ∧ ((s.eng (8 * c.val + i)).run.isSome = true) ∧ True) ∧
    (∃ (c : CoreId) (wants : BitVec 8) (s : State) (t : Tile) (q : List Tile) (i : Nat), ((s.core c.val).tq = t :: q) ∧ (((List.range 8).map (fun j => ((s.core c.val).lastPull + 1 + j) % 8)).find? (fun j => wants.toNat.testBit j && canPull s (8 * c.val + j) && decide ((s.eng (8 * c.val + j)).queue.length < 4)) = some i) ∧ ((s.eng (8 * c.val + i)).run = none) ∧ ((s.eng (8 * c.val + i)).queue = []) ∧ ((s.launch? t.launch).isSome = true) ∧ True) ∧
    (∃ (e : EngId) (s : State), (idleEng s e.val) ∧ ∃ v t q, ((s.core (engCore e.val)).engStealEn = true) ∧ (stealFrom s e.val = some v) ∧ (v ≠ e.val) ∧ (takeNewest (s.eng v).queue = some (t, q)) ∧ ((s.launch? t.launch).isSome = true) ∧ True) ∧
    (∃ (e : EngId) (s : State), (idleEng s e.val) ∧ ∃ v r i, ((s.core (engCore e.val)).engStealEn = false) ∧ ((s.core (engCore e.val)).ksplitEn = true) ∧ (splitVictim s (engCore e.val) e.val = some v) ∧ (v ≠ e.val) ∧ ((s.eng v).run = some r) ∧ ((s.launch? r.tile.launch).isSome = true) ∧ ((List.range 8).find? (fun i => !(lookD (s.core (engCore e.val)).slots i {}).used) = some i) ∧ True) ∧
    (∃ (e : EngId) (s : State), (idleEng s e.val) ∧ ((s.core (engCore e.val)).engStealEn = false) ∧ ((s.core (engCore e.val)).ksplitEn = false) ∧ True) ∧
    (∃ (e : EngId) (s : State), ((s.eng e.val).claimWait = true) ∧ True) :=
  ⟨⟨0, 0xFF, { oneRun with cores := [(0, { tq := [longTile, longTile] })], engs := [(0, { run := some { tile := longTile } })] }, longTile, [longTile], 0, by decide, by decide, by decide, trivial⟩,
   ⟨0, 0x80, { oneRun with cores := [(0, { tq := [longTile] })] }, longTile, [], 7, by decide, by decide, by decide, by decide, by decide, trivial⟩,
   ⟨0, { oneRun with engs := [(1, { run := some { tile := longTile }, queue := [longTile, { longTile with mBlock := 1 }, { longTile with pinned := true }] })] }, by decide, 1, { longTile with mBlock := 1 }, [longTile, { longTile with pinned := true }], by decide, by decide, by decide, by decide, by decide, trivial⟩,
   ⟨0, { oneRun with cores := [(0, { engStealEn := false })], engs := [(1, { run := some { tile := longTile, chunk := 256 } })] }, by decide, 1, { tile := longTile, chunk := 256 }, 0, by decide, by decide, by decide, by decide, by decide, by decide, by decide, trivial⟩,
   ⟨7, { oneRun with cores := [(0, { engStealEn := false, ksplitEn := false })] }, by decide, by decide, by decide, trivial⟩,
   ⟨0, { engs := [(0, { claimWait := true })] }, by decide, trivial⟩⟩

def shortTile : Tile := { launch := 9, kEnd := 2 }
def runs (e : Nat) (r : RunTile) : State := { oneRun with engs := [(e, { run := some r })] }
def shortRun : RunTile := { tile := shortTile, chunk := 2, accs := [.exact 0 false false false] }
def ranRun : RunTile := { shortRun with done := 2, accs := [.exact (39 * 2 ^ 149) false false false] }
def shortAccs : List Acc × W16 :=
  match tileAccs (runs 0 shortRun) oneLaunch (oneLaunch.nodes.getD 0 {}) shortTile shortRun.accs 0 2 with
  | .ok x => x
  | .error _ => ([], 0)

/-- States and operands that meet the hypotheses of every clause of TilesRunAndComplete. -/
theorem wit_TilesRunAndComplete :
    (∃ (e : EngId) (s : State) (r : RunTile) (l : Launch) (accs : List Acc) (fl : W16), ((s.eng e.val).run = some r) ∧ (s.launch? r.tile.launch = some l) ∧ (r.tile.matrix = true) ∧ (r.stalled = none) ∧ (r.done < r.chunk) ∧ (accModeOf (l.nodes.getD r.tile.node {}) l.figures ≠ .canon) ∧ (tileAccs s l (l.nodes.getD r.tile.node {}) r.tile r.accs r.done r.chunk = .ok (accs, fl)) ∧ True) ∧
    (∃ (e : EngId) (s : State) (r : RunTile), ((s.eng e.val).run = some r) ∧ ((s.launch? r.tile.launch).isSome = true) ∧ (r.tile.kEnd ≤ r.done) ∧ (r.thieves ≠ []) ∧ (r.stalled = none) ∧ (r.tile.slot ≠ 0xFF) ∧ (∀ th ∈ r.thieves, th.slot ≠ 0xFF ∧ (lookD (s.core (engCore e.val)).slots th.slot {}).ready = true) ∧ True) ∧
    (∃ (e : EngId) (s : State) (r : RunTile) (l : Launch), ((s.eng e.val).run = some r) ∧ ((s.eng e.val).replaying = false) ∧ ((s.eng e.val).queue = []) ∧ (s.launch? r.tile.launch = some l) ∧ (l.failed = none) ∧ (r.stalled = none) ∧ (r.thieves = []) ∧ (r.tile.matrix = true → r.tile.kEnd ≤ r.done) ∧ (r.tile.slot ≠ 0xFF) ∧ True) ∧
    (∃ (e : EngId) (s : State) (r : RunTile) (l : Launch), ((s.eng e.val).run = some r) ∧ ((s.eng e.val).replaying = false) ∧ ((s.eng e.val).queue = []) ∧ (s.launch? r.tile.launch = some l) ∧ (l.failed = none) ∧ (r.stalled = none) ∧ (r.thieves = []) ∧ (r.tile.matrix = true → r.tile.kEnd ≤ r.done) ∧ (r.tile.slot = 0xFF) ∧ (r.tile.matrix = false ∨ r.combined = true) ∧ (r.tile.origin ≠ engCore e.val) ∧ True) ∧
    (∃ (e : EngId) (s : State) (r : RunTile) (l : Launch), ((s.eng e.val).run = some r) ∧ ((s.eng e.val).replaying = false) ∧ ((s.eng e.val).queue = []) ∧ (s.launch? r.tile.launch = some l) ∧ (l.failed = none) ∧ (r.stalled = none) ∧ (r.thieves = []) ∧ (r.tile.matrix = true → r.tile.kEnd ≤ r.done) ∧ (r.tile.slot = 0xFF) ∧ (r.tile.matrix = false ∨ r.combined = true) ∧ (r.tile.origin = engCore e.val) ∧ (1 < lookD l.left r.tile.node 1) ∧ True) ∧
    (∃ (e : EngId) (s : State) (r : RunTile) (l : Launch), ((s.eng e.val).run = some r) ∧ ((s.eng e.val).replaying = false) ∧ ((s.eng e.val).queue = []) ∧ (s.launch? r.tile.launch = some l) ∧ (l.failed = none) ∧ (r.stalled = none) ∧ (r.thieves = []) ∧ (r.tile.matrix = true → r.tile.kEnd ≤ r.done) ∧ ∃ u, (r.tile.slot = 0xFF) ∧ (r.tile.matrix = true) ∧ (r.combined = false) ∧ (finishBlock s e.val l (l.nodes.getD r.tile.node {}) r = .ok u) ∧ True) ∧
    (∃ (o : CoreId) (s : State) (th : Nat) (t : Tile) (l : Launch), (XMsg.done th o.val t ∈ s.xmsgs) ∧ (∀ th' t', XMsg.done th' o.val t' ∈ s.xmsgs → (th', t') = (th, t)) ∧ ((th, t) ∈ (s.core o.val).granted) ∧ (s.launch? t.launch = some l) ∧ (l.failed = none) ∧ (1 < lookD l.left t.node 1) ∧ True) :=
  ⟨⟨0, runs 0 shortRun, shortRun, oneLaunch, shortAccs.1, shortAccs.2, by decide, by decide, by decide, by decide, by decide, by decide, ok_of _ _ (by decide +kernel), trivial⟩,
   ⟨0, { runs 0 { ranRun with tile := { shortTile with slot := 1 }, thieves := [{ slot := 2, split := 256 }] } with cores := [(0, { slots := [(2, { used := true, ready := true, launch := 9, accs := [.exact 1 false false false] })] })] }, { ranRun with tile := { shortTile with slot := 1 }, thieves := [{ slot := 2, split := 256 }] }, by decide, by decide, by decide, by decide, by decide, by decide, by decide, trivial⟩,
   ⟨0, runs 0 { ranRun with tile := { shortTile with slot := 1 } }, { ranRun with tile := { shortTile with slot := 1 } }, oneLaunch, by decide, by decide, by decide, by decide, by decide, by decide, by decide, by decide, by decide, trivial⟩,
   ⟨0, runs 0 { ranRun with tile := { shortTile with origin := 1 }, combined := true }, { ranRun with tile := { shortTile with origin := 1 }, combined := true }, oneLaunch, by decide, by decide, by decide, by decide, by decide, by decide, by decide, by decide, by decide, by decide, by decide, trivial⟩,
   ⟨0, runs 0 { ranRun with tile := { shortTile with matrix := false } }, { ranRun with tile := { shortTile with matrix := false } }, oneLaunch, by decide, by decide, by decide, by decide, by decide, by decide, by decide, by decide, by decide, by decide, by decide, by decide, trivial⟩,
   ⟨0, runs 0 ranRun, ranRun, oneLaunch, by decide, by decide, by decide, by decide, by decide, by decide, by decide, by decide, (match finishBlock (runs 0 ranRun) 0 oneLaunch (oneLaunch.nodes.getD 0 {}) ranRun with | .ok u => u | _ => {}), by decide, by decide, by decide, ok_of _ _ (by decide +kernel), trivial⟩,
   ⟨0, { oneRun with xmsgs := [.done 1 0 shortTile], cores := [(0, { granted := [(1, shortTile)] })] }, 1, shortTile, oneLaunch, by decide, by intro th' t' h; simp [shortTile] at h ⊢; exact h, by decide, by decide, by decide, by decide, trivial⟩⟩

/-- States and operands that meet the hypotheses of every clause of CrossCoreStealing. -/
theorem wit_CrossCoreStealing :
    (∃ (c : CoreId) (s : State) (v : Nat), ((s.core c.val).xcoreEn = true) ∧ (heldIdle s c.val = false) ∧ (fullyIdle s c.val = true) ∧ ((s.core c.val).xreq = .none) ∧ ((s.core c.val).st ≠ .switching) ∧ ((s.core c.val).st ≠ .reset) ∧ (nextVictim s c.val = some v) ∧ True) ∧
    (∃ (v th : CoreId) (s : State), (XMsg.request th.val v.val ∈ s.xmsgs) ∧ ((s.core v.val).xcoreEn = true) ∧ ((s.core v.val).st ≠ .switching) ∧ ((s.core v.val).st ≠ .reset) ∧ (1 ≤ grantCount (s.core v.val)) ∧ (takeGrant (grantCount (s.core v.val)) (s.core v.val).tq ≠ []) ∧ True) ∧
    (∃ (v th : CoreId) (s : State), (XMsg.request th.val v.val ∈ s.xmsgs) ∧ ((s.core v.val).xcoreEn = false ∨ grantCount (s.core v.val) = 0) ∧ True) ∧
    (∃ (th v : CoreId) (s : State) (ts : List Tile), (XMsg.grant th.val v.val ts ∈ s.xmsgs) ∧ (∀ us, XMsg.grant th.val v.val us ∈ s.xmsgs → us = ts) ∧ True) ∧
    (∃ (th v : CoreId) (s : State), (XMsg.deny th.val v.val ∈ s.xmsgs) ∧ ((s.core th.val).xreq = .asked v.val) ∧ True) ∧
    (∃ (c : CoreId) (s : State) (v : Nat), ((s.core c.val).xreq = .asked v) ∧ True) ∧
    (∃ (c : CoreId) (s : State), ((s.core c.val).xreq = .backoff) ∧ True) ∧
    (∃ (o th : CoreId) (s : State), (XMsg.resetNotice th.val o.val ∈ s.xmsgs) ∧ True) :=
  ⟨⟨0, { oneVd with cores := [(0, { xlast := 3 })] }, 1, by decide, by decide, by decide, by decide, by decide, by decide, by decide, trivial⟩,
   ⟨1, 0, { cores := [(1, { tq := List.replicate 6 shortTile })], xmsgs := [.request 0 1] }, by decide, by decide, by decide, by decide, by decide, by decide, trivial⟩,
   ⟨1, 0, { cores := [(1, { tq := List.replicate 5 shortTile })], xmsgs := [.request 0 1] }, by decide, by decide, trivial⟩,
   ⟨0, 1, { xmsgs := [.grant 0 1 [shortTile]] }, [shortTile], by decide, by intro us h; simp at h; exact h, trivial⟩,
   ⟨0, 1, { cores := [(0, { xreq := .asked 1 })], xmsgs := [.deny 0 1] }, by decide, by decide, trivial⟩,
   ⟨191, { cores := [(191, { xreq := .asked 190 })] }, 190, by decide, trivial⟩,
   ⟨0, { cores := [(0, { xreq := .backoff, xdenied := [1] })] }, by decide, trivial⟩,
   ⟨0, 1, { cores := [(0, { granted := [(1, shortTile), (12, longTile)] })], xmsgs := [.resetNotice 1 0] }, by decide, trivial⟩⟩

/-- The home of line 7 holds an entry, and messages are in flight; cores 0 to 2 run under tag 5. -/
def home (l : LlcLine) (ms : List CohMsg) : State :=
  { mem := { llc := [(7, l)], msgs := ms }, cores := [(0, { curTag := 5 }), (1, { curTag := 5 }), (2, { curTag := 5 })] }
def sharedLine : LlcLine := { valid := true, tag := 5, dst := .s, ptrs := [1, 2], data := 0x77 }

/-- States and operands that meet the hypotheses of every clause of HomeServesRequests. -/
theorem wit_HomeServesRequests :
    (∃ (c : CoreId) (line : LineId) (s : State), (asked s c.val line.val .readShared) ∧ ((s.llcLine line.val).valid = false ∨ (idleLine s c.val line.val ∧ (s.llcLine line.val).dst = .i)) ∧ True) ∧
    (∃ (c : CoreId) (line : LineId) (s : State), (asked s c.val line.val .readShared) ∧ (idleLine s c.val line.val) ∧ ((s.llcLine line.val).dst = .s) ∧ ((s.llcLine line.val).ptrs.length < 4) ∧ (c.val ∉ (s.llcLine line.val).ptrs) ∧ True) ∧
    (∃ (c : CoreId) (line : LineId) (s : State), (asked s c.val line.val .readShared) ∧ ∃ o rest, (idleLine s c.val line.val) ∧ ((s.llcLine line.val).dst ∈ [.e, .m, .o]) ∧ ((s.llcLine line.val).ptrs = o :: rest) ∧ True) ∧
    (∃ (c : CoreId) (line : LineId) (s : State), (asked s c.val line.val .readUnique) ∧ ((s.llcLine line.val).valid = false ∨ (idleLine s c.val line.val ∧ (s.llcLine line.val).dst = .i)) ∧ True) ∧
    (∃ (c : CoreId) (line : LineId) (s : State), (asked s c.val line.val .readUnique) ∧ (idleLine s c.val line.val) ∧ ((s.llcLine line.val).dst = .s) ∧ ((s.llcLine line.val).ovf = false) ∧ True) ∧
    (∃ (c : CoreId) (line : LineId) (s : State), (asked s c.val line.val .readUnique) ∧ ∃ o rest, (idleLine s c.val line.val) ∧ ((s.llcLine line.val).dst ∈ [.e, .m]) ∧ ((s.llcLine line.val).ptrs = o :: rest) ∧ True) ∧
    (∃ (c : CoreId) (line : LineId) (s : State), (asked s c.val line.val .upgrade) ∧ (idleLine s c.val line.val) ∧ ((s.llcLine line.val).dst = .s) ∧ ((s.llcLine line.val).ovf = false) ∧ (c.val ∈ (s.llcLine line.val).ptrs) ∧ True) :=
  ⟨⟨0, 7, { oneVd with mem := { hbm := [(896, 3)], msgs := [.request .readShared 7 0 false] } }, by decide, by decide, trivial⟩,
   ⟨0, 7, home sharedLine [.request .readShared 7 0 false], by decide, by decide, by decide, by decide, by decide, trivial⟩,
   ⟨0, 7, home { sharedLine with dst := .o, ptrs := [2, 1] } [.request .readShared 7 0 false], by decide, 2, [1], by decide, by decide, by decide, trivial⟩,
   ⟨0, 7, home { sharedLine with dst := .i, ptrs := [] } [.request .readUnique 7 0 false], by decide, by decide, trivial⟩,
   ⟨1, 7, home sharedLine [.request .readUnique 7 1 false], by decide, by decide, by decide, by decide, trivial⟩,
   ⟨0, 7, home { sharedLine with dst := .m, ptrs := [1] } [.request .readUnique 7 0 false], by decide, 1, [], by decide, by decide, by decide, trivial⟩,
   ⟨1, 7, home { sharedLine with ptrs := [1] } [.request .upgrade 7 1 false], by decide, by decide, by decide, by decide, by decide, trivial⟩⟩

/-- Core 1 holds line 7 in a state, with a message in flight. -/
def holder (k : CacheLine) (ms : List CohMsg) : State :=
  { mem := { llc := [(7, sharedLine)], msgs := ms }, cores := [(1, { curTag := 5, dcache := [(7, k)] })] }
def ownedLine : CacheLine := { st := .o, tag := 5, data := 0x99 }

/-- States and operands that meet the hypotheses of every clause of HoldersAnswerSnoops. -/
theorem wit_HoldersAnswerSnoops :
    (∃ (c : CoreId) (line : LineId) (r : Nat) (s : State), (snooped s c.val line.val r .fwdS) ∧ ((s.dcLine c.val line.val).st ∈ [.e, .m, .o]) ∧ ((s.dcLine c.val line.val).held = false) ∧ True) ∧
    (∃ (c : CoreId) (line : LineId) (r : Nat) (s : State), (snooped s c.val line.val r .fwdM) ∧ ((s.dcLine c.val line.val).st ∈ [.e, .m, .o]) ∧ ((s.dcLine c.val line.val).held = false) ∧ True) ∧
    (∃ (c : CoreId) (line : LineId) (r : Nat) (s : State), (snooped s c.val line.val r .inv) ∧ ((s.dcLine c.val line.val).held = false) ∧ True) ∧
    (∃ (c : CoreId) (line : LineId) (_r : Nat) (s : State), (snooped s c.val line.val c.val .binv) ∧ ((s.dcLine c.val line.val).held = false) ∧ True) ∧
    (∃ (c : CoreId) (line : LineId) (r : Nat) (s : State), (snooped s c.val line.val r .fwdM) ∧ ((s.dcLine c.val line.val).held = true) ∧ True) ∧
    (∃ (c : CoreId) (line : LineId) (r : Nat) (s : State), (snooped s c.val line.val r .fwdS) ∧ ((s.dcLine c.val line.val).st ≠ .i) ∧ ((s.dcLine c.val line.val).held = false) ∧ ((s.core c.val).wb = []) ∧ True) :=
  ⟨⟨1, 7, 0, holder ownedLine [.snoop .fwdS 7 1 0], ⟨by decide, by intro q h; simp [holder] at h; simp [h], by decide, by decide⟩, by decide, by decide, trivial⟩,
   ⟨1, 7, 0, holder { ownedLine with st := .e } [.snoop .fwdM 7 1 0], ⟨by decide, by intro q h; simp [holder] at h; simp [h], by decide, by decide⟩, by decide, by decide, trivial⟩,
   ⟨1, 7, 0, holder { ownedLine with st := .s } [.snoop .inv 7 1 0], ⟨by decide, by intro q h; simp [holder] at h; simp [h], by decide, by decide⟩, by decide, trivial⟩,
   ⟨1, 7, 0, holder { ownedLine with st := .m } [.snoop .binv 7 1 1], ⟨by decide, by intro q h; simp [holder] at h; simp [h], by decide, by decide⟩, by decide, trivial⟩,
   ⟨1, 7, 0, holder { ownedLine with st := .m, held := true } [.snoop .fwdM 7 1 0], ⟨by decide, by intro q h; simp [holder] at h; simp [h], by decide, by decide⟩, by decide, trivial⟩,
   ⟨1, 7, 0, holder { ownedLine with st := .m } [.snoop .fwdS 7 1 0], ⟨by decide, by intro q h; simp [holder] at h; simp [h], by decide, by decide⟩, by decide, by decide, by decide, trivial⟩⟩

def waitsInv : Txn := { req := .upgrade, core := 0, invLeft := [1] }

/-- States and operands that meet the hypotheses of every clause of HomeHearsHolders. -/
theorem wit_HomeHearsHolders :
    (∃ (c : CoreId) (line : LineId) (s : State), ∃ (d : Option (LineData × Bool)) (x : Txn), (CohMsg.invAck line.val c.val d ∈ s.mem.msgs) ∧ (∀ d', CohMsg.invAck line.val c.val d' ∈ s.mem.msgs → d' = d) ∧ ((s.llcLine line.val).valid = true) ∧ ((s.llcLine line.val).txn = some x) ∧ (x.invLeft = [c.val]) ∧ (x.fwd = none) ∧ (x.answered = false) ∧ ((s.llcLine line.val).binvLeft = []) ∧ True) ∧
    (∃ (c : CoreId) (line : LineId) (s : State), ∃ (w : LineData) (p : Bool), (CohMsg.invAck line.val c.val (some (w, p)) ∈ s.mem.msgs) ∧ (∀ d', CohMsg.invAck line.val c.val d' ∈ s.mem.msgs → d' = some (w, p)) ∧ ((s.llcLine line.val).valid = true) ∧ ((s.llcLine line.val).binvLeft = [c.val]) ∧ True) ∧
    (∃ (c : CoreId) (line : LineId) (s : State), ∃ (dirty : Bool) (x : Txn), (CohMsg.fwdDone line.val c.val dirty ∈ s.mem.msgs) ∧ (CohMsg.fwdDone line.val c.val (!dirty) ∉ s.mem.msgs) ∧ ((s.llcLine line.val).txn = some x) ∧ (x.fwd = some c.val) ∧ (x.req = .readShared) ∧ True) ∧
    (∃ (c : CoreId) (line : LineId) (s : State), ∃ (x : Txn), (CohMsg.snoopMiss line.val c.val ∈ s.mem.msgs) ∧ ((s.llcLine line.val).txn = some x) ∧ (x.fwd = some c.val) ∧ (look (s.core c.val).wb line.val = none) ∧ True) ∧
    (∃ (c : CoreId) (line : LineId) (s : State), ∃ (x : Txn), (CohMsg.compAck line.val c.val ∈ s.mem.msgs) ∧ ((s.llcLine line.val).txn = some x) ∧ (x.core = c.val) ∧ ((s.llcLine line.val).rsv = none) ∧ True) ∧
    (∃ (c : CoreId) (line : LineId) (s : State), ((s.dcLine c.val line.val).st = .m) ∧ ((s.dcLine c.val line.val).held = false) ∧ ((s.core c.val).wb = []) ∧ ((s.llcLine line.val).valid = true) ∧ ((s.llcLine line.val).tag = (s.dcLine c.val line.val).tag) ∧ ((s.llcLine line.val).dst = .m) ∧ ((s.llcLine line.val).ptrs = [c.val]) ∧ ((s.llcLine line.val).txn = none) ∧ (CohMsg.wbAck line.val c.val ∉ s.mem.msgs) ∧ True) ∧
    (∃ (c : CoreId) (line : LineId) (s : State), ((s.dcLine c.val line.val).st = .s) ∧ ((s.dcLine c.val line.val).held = false) ∧ ((s.core c.val).wb = []) ∧ ((s.llcLine line.val).valid = true) ∧ ((s.llcLine line.val).tag = (s.dcLine c.val line.val).tag) ∧ ((s.llcLine line.val).dst = .s) ∧ ((s.llcLine line.val).ptrs = [c.val]) ∧ ((s.llcLine line.val).ovf = false) ∧ (CohMsg.wbAck line.val c.val ∉ s.mem.msgs) ∧ True) ∧
    (∃ (c : CoreId) (_line : LineId) (s : State), ∃ (d : DieId) (tag : Nat), (CohMsg.flushDone c.val d.val tag ∈ s.mem.msgs) ∧ (∀ g, CohMsg.flushDone c.val d.val g ∈ s.mem.msgs → g = tag) ∧ (∀ p ∈ s.mem.llc, lineDie p.1 = d.val → ∀ x, p.2.txn = some x → x.bcast = false ∨ c.val ∉ x.invLeft) ∧ True) :=
  ⟨⟨1, 7, home { sharedLine with txn := some waitsInv } [.invAck 7 1 none], none, waitsInv, by decide, by intro d' h; simp [home] at h; simp [h], by decide, by decide, by decide, by decide, by decide, by decide, trivial⟩,
   ⟨1, 7, home { sharedLine with dst := .m, ptrs := [1], binvLeft := [1] } [.invAck 7 1 (some (3, false))], 3, false, List.Mem.head _, by intro d' h; simp [home] at h; simp [h], by decide, by decide, trivial⟩,
   ⟨1, 7, home { sharedLine with dst := .m, ptrs := [1], txn := some { core := 0, fwd := some 1 } } [.fwdDone 7 1 true], true, { core := 0, fwd := some 1 }, by decide, by decide, by decide, by decide, by decide, trivial⟩,
   ⟨1, 7, home { sharedLine with dst := .m, ptrs := [1], txn := some { core := 0, fwd := some 1, req := .readUnique } } [.snoopMiss 7 1], { core := 0, fwd := some 1, req := .readUnique }, by decide, by decide, by decide, by decide, trivial⟩,
   ⟨0, 7, home { sharedLine with txn := some { core := 0, answered := true } } [.compAck 7 0], { core := 0, answered := true }, by decide, by decide, by decide, by decide, trivial⟩,
   ⟨1, 7, { holder { ownedLine with st := .m } [] with mem := { llc := [(7, { sharedLine with dst := .m, ptrs := [1] })] } }, by decide, by decide, by decide, by decide, by decide, by decide, by decide, by decide, by decide, trivial⟩,
   ⟨1, 7, { holder { ownedLine with st := .s } [] with mem := { llc := [(7, { sharedLine with ptrs := [1] })] } }, by decide, by decide, by decide, by decide, by decide, by decide, by decide, by decide, by decide, trivial⟩,
   ⟨1, 0, { mem := { llc := [(7, sharedLine)], scope := [(0, 1, 5)], msgs := [.flushDone 1 0 5] } }, 0, 5, by decide, by intro g h; simp at h; exact h, by simp [sharedLine], trivial⟩⟩

/-- Core 0 waits for line 7, with a message in flight. -/
def waitsLine (m : Mshr) (ms : List CohMsg) : State := { mem := { msgs := ms }, cores := [(0, { curTag := 5, mshrs := [(7, m)] })] }

/-- States and operands that meet the hypotheses of every clause of CoresHearHomes. -/
theorem wit_CoresHearHomes :
    (∃ (c : CoreId) (line : LineId) (s : State), ∃ st d p, (CohMsg.data line.val c.val st d p ∈ s.mem.msgs) ∧ (∀ st' d' p', CohMsg.data line.val c.val st' d' p' ∈ s.mem.msgs → (st', d', p') = (st, d, p)) ∧ (∀ m, look (s.core c.val).mshrs line.val = some m → m.waiting = []) ∧ True) ∧
    (∃ (c : CoreId) (line : LineId) (s : State), (CohMsg.grantM line.val c.val ∈ s.mem.msgs) ∧ (∀ m, look (s.core c.val).mshrs line.val = some m → m.waiting = []) ∧ True) ∧
    (∃ (c : CoreId) (line : LineId) (s : State), ∃ w m, (CohMsg.nack line.val c.val w ∈ s.mem.msgs) ∧ (∀ w', CohMsg.nack line.val c.val w' ∈ s.mem.msgs → w' = w) ∧ (look (s.core c.val).mshrs line.val = some m) ∧ True) ∧
    (∃ (c : CoreId) (line : LineId) (s : State), (CohMsg.wbAck line.val c.val ∈ s.mem.msgs) ∧ True) ∧
    (∃ (c : CoreId) (line : LineId) (s : State), ((s.dcLine c.val line.val).held = true) ∧ (∀ q ∈ (s.core c.val).snoops, q.1 ≠ line.val) ∧ True) ∧
    (∃ (c : CoreId) (line : LineId) (s : State), ∃ m, (look (s.core c.val).mshrs line.val = some m) ∧ (m.waitRetry = true) ∧ True) :=
  ⟨⟨0, 7, waitsLine { sent := true } [.data 7 0 .e 5 false], .e, 5, false, List.Mem.head _, by intro a b c h; simp [waitsLine] at h; simp [h], by intro m h; simp [waitsLine, State.core, lookD, look] at h; simp [← h], trivial⟩,
   ⟨0, 7, waitsLine { req := .upgrade, sent := true } [.grantM 7 0], by decide, by intro m h; simp [waitsLine, State.core, lookD, look] at h; simp [← h], trivial⟩,
   ⟨0, 7, waitsLine { req := .upgrade, sent := true, nacks := 7 } [.nack 7 0 .notSharer], .notSharer, { req := .upgrade, sent := true, nacks := 7 }, by decide, by intro w h; simp [waitsLine] at h; simp [h], by decide, trivial⟩,
   ⟨0, 7, { mem := { msgs := [.wbAck 7 0] }, cores := [(0, { wb := [(7, ownedLine), (9, ownedLine)] })] }, by decide, trivial⟩,
   ⟨0, 7, { cores := [(0, { dcache := [(7, { ownedLine with held := true })], snoops := [(8, .inv, 1)] })] }, by decide, by decide, trivial⟩,
   ⟨0, 7, waitsLine { nacks := 8, waitRetry := true } [], { nacks := 8, waitRetry := true }, by decide, by decide, trivial⟩⟩

/-- Slice 0 is shared by VDs 1 and 2; VD 1 holds it, its quantum is over, and VD 2 has a command waiting. -/
def sharedSlice : Slice := { cgs := 1, pairs := 1, st := .shared, isShared := true, group := [(1, 10), (2, 10)], quantumOver := true }
def sharedVds : State :=
  { pool := { slices := [(0, sharedSlice)] }, cmp := { vds := [(1, { live := true, tag := 5 }), (2, { live := true, tag := 6 })] }
    gfe := { rings := [(4, { fn := 2, fetched := [[1]] })] } }

/-- States and operands that meet the hypotheses of every clause of SwitchesAndSweeps. -/
theorem wit_SwitchesAndSweeps :
    (∃ (g : CgId) (s : State) (k : Nat) (x : Slice) (v q : Nat), (s.cgSlice g.val = some (k, x)) ∧ (look s.pool.slices k = some x) ∧ (((sliceCgs s x).flatMap cgCores).all (coreQuiet s) = true) ∧ (x.st = .shared) ∧ (x.group[x.holder]? = some (v, q)) ∧ (vdQuiet s v = true) ∧ (vdHung s v = false) ∧ ((s.vd v).held = false) ∧ (x.quantumOver = true) ∧ (x.nextGroup = none) ∧ True) ∧
    (∃ s : State, (s.cmp.sweeping = none) ∧ (tagsFree s < 256) ∧ (s.cmp.tagsRetired ≠ []) ∧ True) ∧
    (∃ (s : State) (ts : List Nat), (s.cmp.sweeping = some ts) ∧ (s.cmp.tagWaiters = []) ∧ (0 ∉ ts) ∧ True) :=
  ⟨⟨0, sharedVds, 0, sharedSlice, 1, 10, by decide, by decide, by decide, by decide, by decide, by decide, by decide, by decide, by decide, by decide, trivial⟩,
   ⟨{ cmp := { tagsLive := (List.range 4000).map (· + 1), tagsRetired := [5000] } }, by decide, by decide +kernel, by decide, trivial⟩,
   ⟨{ cmp := { sweeping := some [7], tagsRetired := [7, 8] }, cores := [(0, { curTag := 7, sp := [(0, { tag := 7, written := 1 })], dcache := [(3, { tag := 7 })] })] }, [7], by decide, by decide, by decide, trivial⟩⟩

/-- A launch whose one node has a packed weight stream of one raw byte; its frame directory is at VA 64. -/
def streamNode : Node := { kind := 1, flags := 4, fmtA := 0x0B, fmtB := 0x0B, fmtOut := 0x12, m := 1, n := 1, k := 1, aP := 0, bP := 8, outP := 16 }
def streamLaunch : Launch := { oneLaunch with nodes := [streamNode] }
def streamRun (cells : List Host.Cell) : State :=
  { oneVd with
    mem := { hbm := [(0, 1), (2, 1), (0x10000, 7), (0x10003, 0x20)] ++ cells }
    gfe := { launches := [(9, streamLaunch)] }, cores := [(0, { st := .running, curTag := 5 })] }

/-- States and operands that meet the hypotheses of every clause of FacetFramesDecode. -/
theorem wit_FacetFramesDecode :
    (∃ (c : CoreId) (lid : W32) (node : Fin 4096) (frame : W32) (s : State) (l : Launch), (s.launch? lid.toNat = some l) ∧ (streamed l c.val node.val frame.toNat) ∧ ∃ bs, (readFrame s l (l.nodes.getD node.val {}) frame.toNat = .ok bs) ∧ True) ∧
    (∃ (c : CoreId) (lid : W32) (node : Fin 4096) (frame : W32) (s : State) (l : Launch), (s.launch? lid.toNat = some l) ∧ (streamed l c.val node.val frame.toNat) ∧ ∃ k f, (readFrame s l (l.nodes.getD node.val {}) frame.toNat = .error (.facet k f)) ∧ True) :=
  ⟨⟨0, 9, 0, 0, streamRun [(0x20000040, 1), (0x20000080, 0x57), (0x20000081, 0x4C), (0x20000082, 1), (0x20000083, 0x0B), (0x20000088, 1), (0x2000008C, 1), (0x20000090, 0x4D), (0x20000091, 0x47), (0x20000092, 0x8C), (0x20000093, 0x67), (0x200000C0, 5)], streamLaunch, by decide, by unfold streamed; decide, [5], ok_of _ _ (by decide +kernel), trivial⟩,
   ⟨0, 9, 0, 0, streamRun [], streamLaunch, by decide, by unfold streamed; decide, .format, 0, error_of _ _ (by decide +kernel), trivial⟩⟩

/-- The device after its last boot step, with every core group on. -/
def bootedVd : State := { oneVd with boot := { ready := true } }

/-- States and operands that meet the hypotheses of every clause of EngineAndCoreResets. -/
theorem wit_EngineAndCoreResets :
    (∃ (e : EngId) (_cause : EngCause) (s : State), (s.coreOn (engCore e.val) = true) ∧ ((s.eng e.val).run = none) ∧ True) ∧
    (∃ (e : EngId) (_cause : EngCause) (s : State), (s.coreOn (engCore e.val) = true) ∧ ∃ r, ((s.eng e.val).run = some r) ∧ (r.tile.slot = 0xFF) ∧ True) ∧
    (∃ (c : CoreId) (_engs : BitVec 8) (s : State), (fnOpen s 0 = true) ∧ (s.coreOn c.val = true) ∧ True) ∧
    (∃ (c : CoreId) (_cause : CoreCause) (s : State), (s.coreOn c.val = true) ∧ (cgBit s.pool.cgFenced (coreCg c.val) = false) ∧ (lookD s.boot.coreResets c.val [] = []) ∧ True) ∧
    (∃ (v : W32) (x : Service) (s : State), (s.service? v.toNat = some x) ∧ (s.ready = []) ∧ (x.st = .sample) ∧ True) :=
  ⟨⟨0, .request, { bootedVd with engs := [(0, { queue := [longTile], vregs := [(1, [5])] })], cores := [(0, { tq := [shortTile] })] }, by decide, by decide, trivial⟩,
   ⟨0, .squash, { bootedVd with engs := [(0, { run := some { tile := longTile, done := 256 }, queue := [shortTile] })] }, by decide, { tile := longTile, done := 256 }, by decide, by decide, trivial⟩,
   ⟨0, 0x81, { bootedVd with engs := [(7, { run := some { tile := longTile }, nsw := 1 })] }, by decide, by decide, trivial⟩,
   ⟨0, .engineLate, { bootedVd with cores := [(0, { tq := [shortTile], resets := 3 })] }, by decide, by decide, by decide, trivial⟩,
   ⟨2, { st := .sample, launch := some 9 }, { gfe := { services := [(2, { st := .sample, launch := some 9 })] } }, by decide, by decide, by decide, trivial⟩⟩

def hungRun : State := { oneRun with engs := [(0, { run := some ranRun, glide := some 1 })] }

/-- States and operands that meet the hypotheses of every clause of HangsFound. -/
theorem wit_HangsFound :
    (∃ (e : EngId) (s : State) (r : RunTile) (t0 : Tile) (q : List Tile) (l : Launch), (hangFree s (engCore e.val) e.val) ∧ ((s.eng e.val).run = some r) ∧ (r.stalled = none) ∧ (r.thieves = []) ∧ (r.tile.slot = 0xFF) ∧ ((s.eng e.val).hangReason = 0) ∧ ((s.eng e.val).replaying = false) ∧ (replayOrder s (suspects (s.eng e.val)) = t0 :: q) ∧ (s.launch? t0.launch = some l) ∧ (l.failed = none) ∧ (ctxLive s l.fn l.ctx = true) ∧ True) ∧
    (∃ (c : CoreId) (lid : W32) (s : State) (l : Launch), (hangFree s c.val 1536) ∧ (s.launch? lid.toNat = some l) ∧ (∃ e ∈ coreEngs c.val, ∃ r, (s.eng e).run = some r ∧ r.tile.launch = lid.toNat) ∧ (has s.gfe.routines l.routine = true) ∧ True) ∧
    (∃ (e : EngId) (s : State) (r : RunTile) (l : Launch), (hangFree s (engCore e.val) e.val) ∧ ((s.eng e.val).replaying = true) ∧ ((s.eng e.val).run = some r) ∧ ((s.eng e.val).queue = []) ∧ ((s.eng e.val).held = []) ∧ (s.launch? r.tile.launch = some l) ∧ (l.failed = none) ∧ (r.stalled = none) ∧ (r.thieves = []) ∧ (r.tile.matrix = true → r.tile.kEnd ≤ r.done) ∧ (r.tile.slot = 0xFF) ∧ (r.tile.matrix = false ∨ r.combined = true) ∧ (r.tile.origin ≠ engCore e.val) ∧ True) ∧
    (∃ (e : EngId) (s : State) (r : RunTile), (hangFree s (engCore e.val) e.val) ∧ ((s.eng e.val).replaying = true) ∧ ((s.eng e.val).run = some r) ∧ ((s.eng e.val).held = []) ∧ ((s.launch? r.tile.launch).isSome = true) ∧ True) :=
  ⟨⟨0, hungRun, ranRun, shortTile, [], oneLaunch, by decide, by decide, by decide, by decide, by decide, by decide, by decide, List.mergeSort_singleton shortTile, by decide, by decide, by decide, trivial⟩,
   ⟨0, 9, { hungRun with gfe := { hungRun.gfe with routines := [(0, { fn := 1 })] } }, oneLaunch, by decide, by decide, ⟨0, by decide, ranRun, by decide⟩, by decide, trivial⟩,
   ⟨0, { oneRun with engs := [(0, { run := some { ranRun with tile := { shortTile with origin := 1 }, combined := true }, replaying := true, hangReason := 1 })] }, { ranRun with tile := { shortTile with origin := 1 }, combined := true }, oneLaunch, by decide, by decide, by decide, by decide, by decide, by decide, by decide, by decide, by decide, by decide, by decide, by decide, by decide, trivial⟩,
   ⟨0, { oneRun with engs := [(0, { run := some ranRun, replaying := true, hangReason := 1 })] }, ranRun, by decide, by decide, by decide, by decide, by decide, trivial⟩⟩

/-- A service of context 3 and one queue pair of it with one published request, whose bytes are at VA 0. -/
def reqSvc : Service := { d := { fn := 1, ctx := 3, vd := 1 } }
def reqQp : Qp := { fn := 1, ctx := 3, service := 2, sh := { tail := 1, st := .active } }
def reqState (v : Service) (cells : List Host.Cell) : State :=
  { oneVd with mem := { hbm := [(0, 1), (2, 1), (0x10000, 7), (0x10003, 0x20)] ++ cells }, gfe := { services := [(2, v)], qps := [(8, reqQp)] } }
def genCells : List Host.Cell :=
  [(0x20000000, 1), (0x20000004, 1), (0x20000008, 1), (0x20000011, 0x10), (0x20000019, 0x20), (0x20000020, 1), (0x20000036, 0x80),
   (0x20000037, 0x3F), (0x2000003E, 0x80), (0x2000003F, 0x3F), (0x20000054, 0xFF), (0x20000055, 0xFF), (0x20000056, 0xFF), (0x20000057, 0xFF)]
def scoreCells : List Host.Cell :=
  [(0x20000000, 2), (0x20000008, 1), (0x20000011, 0x10), (0x20000019, 0x20), (0x20000054, 0xFF), (0x20000055, 0xFF), (0x20000056, 0xFF),
   (0x20000057, 0xFF)]

/-- States and operands that meet the hypotheses of every clause of RequestsAreConsumed. -/
theorem wit_RequestsAreConsumed :
    (∃ (q : Fin 4096) (x : Qp) (b : List Byte) (s : State), (fetched s q.val x b) ∧ ∃ p, (fieldAt b 0 1 ≠ 2) ∧ (fieldAt b 0 1 ≠ 3) ∧ (genStatus (s.setQp q.val (taken x)) q.val (taken x) (s.service? x.service) b = (0, p)) ∧ True) ∧
    (∃ (q : Fin 4096) (x : Qp) (b : List Byte) (s : State), (fetched s q.val x b) ∧ ∃ p v, (fieldAt b 0 1 = 2) ∧ (s.service? x.service = some v) ∧ (scoreStatus (s.setQp q.val (taken x)) q.val (taken x) (some v) b = (0, p)) ∧ True) ∧
    (∃ (q : Fin 4096) (x : Qp) (b : List Byte) (s : State), (fetched s q.val x b) ∧ ∃ v, (fieldAt b 0 1 = 3) ∧ (s.service? x.service = some v) ∧ (v.d.scoring = false) ∧ (cancelStatus (s.setQp q.val (taken x)) q.val (taken x) (some v) b = 0) ∧ True) ∧
    (∃ (q : Fin 4096) (x : Qp) (b : List Byte) (s : State), (fetched s q.val x b) ∧ ∃ st p, (fieldAt b 0 1 ≠ 2) ∧ (fieldAt b 0 1 ≠ 3) ∧ (st ≠ 0) ∧ (genStatus (s.setQp q.val (taken x)) q.val (taken x) (s.service? x.service) b = (st, p)) ∧ True) :=
  ⟨⟨8, reqQp, readCells genCells 0x20000000 256, reqState reqSvc genCells, by decide +kernel, [0, 0, 0, 0], by decide, by decide, by decide +kernel, trivial⟩,
   ⟨8, reqQp, readCells scoreCells 0x20000000 256, reqState { reqSvc with d := { reqSvc.d with scoring := true } } scoreCells, by decide +kernel, [0], { reqSvc with d := { reqSvc.d with scoring := true } }, by decide, by decide, by decide +kernel, trivial⟩,
   ⟨8, reqQp, readCells [(0x20000000, 3), (0x20000008, 1)] 0x20000000 256, reqState reqSvc [(0x20000000, 3), (0x20000008, 1)], by decide +kernel, reqSvc, by decide, by decide, by decide, by decide +kernel, trivial⟩,
   ⟨8, reqQp, readCells [(0x20000000, 1)] 0x20000000 256, reqState reqSvc [(0x20000000, 1)], by decide +kernel, 1, [], by decide, by decide, by decide, by decide +kernel, trivial⟩⟩

/-- A service that plans: one sequence in DECODE, one in PREFILL. -/
def planSvc : Service :=
  { d := { fn := 1, ctx := 3, vd := 1, stepTokens := 32, stepSeqs := 4, prefillReserve := 16, contextMax := 64 }
    seqs := [(0, { st := .decode, toks := [1, 2], prefilled := 1, req := { qp := 8, maxNew := 9 } }), (1, { toks := List.replicate 20 3, req := { qp := 8, maxNew := 1 } })] }

/-- States and operands that meet the hypotheses of every clause of PlansKeepTheirBudget. -/
theorem wit_PlansKeepTheirBudget :
    (∃ (s : State) (x : Service) (caps : Nat → Nat), ∃ k n ds, ((k, n, ds) ∈ planOf s x caps) ∧ True) ∧
    (∃ (_s : State) (x : Service) (_caps : Nat → Nat), (x.d.prefillReserve ≤ x.d.stepTokens) ∧ (x.seqs.filter (fun p => p.2.st = .prefill) ≠ []) ∧ True) :=
  ⟨⟨reqState planSvc [], planSvc, (fun _ => 0), 1, 16, [], by decide, trivial⟩,
   ⟨reqState planSvc [], planSvc, (fun _ => 0), by decide, by decide, trivial⟩⟩

/-- A VD of one core group, with a service of a given state and a queue pair of it. -/
def batchState (x : Service) : State :=
  { oneVd with pool := { slices := [(0, { cgs := 1, pairs := 1, st := .bound 1 })] }, gfe := { services := [(2, x)], qps := [(8, reqQp)] } }
def sampledSeq : Seq := { req := { qp := 8, maxNew := 9 }, slot := some 0, toks := [1, 0, 1], planned := 2, rowBase := 0 }
def scoreSvc : Service :=
  { d := { fn := 1, ctx := 3, vd := 1, scoring := true }
    scores := [{ qp := 8, reqId := 1, inAddr := 0x1000, outAddr := 0x2000, deadline := 10 }, { qp := 8, reqId := 2 }] }

/-- States and operands that meet the hypotheses of every clause of BatchStepsAdvance. -/
theorem wit_BatchStepsAdvance :
    (∃ (v : W32) (_c : PlanChoice) (x : Service) (s : State), (s.service? v.toNat = some x) ∧ (x.d.scoring = false) ∧ (svcStarts s v.toNat x = true) ∧ (svcCores ((svcQps s v.toNat).foldl (fun s p => doCancels s p.1) s) v.toNat x ≠ []) ∧ ((freeSlots ((svcQps s v.toNat).foldl (fun s p => doCancels s p.1) s) (svcCores ((svcQps s v.toNat).foldl (fun s p => doCancels s p.1) s) v.toNat x)).isSome = true) ∧ True) ∧
    (∃ (v : W32) (x : Service) (s : State), (s.service? v.toNat = some x) ∧ (x.st = .run) ∧ (x.outcome = some none) ∧ True) ∧
    (∃ (v : W32) (x : Service) (s : State), (s.service? v.toNat = some x) ∧ (x.st = .run) ∧ ∃ e, (x.outcome = some (some e)) ∧ (x.attempt ≠ 0) ∧ True) ∧
    (∃ (v : W32) (x : Service) (s : State), (s.service? v.toNat = some x) ∧ (x.st = .run) ∧ ∃ e, (x.outcome = some (some e)) ∧ (x.attempt = 0) ∧ ((freeSlots s (svcCores s v.toNat x)).isSome = true) ∧ True) ∧
    (∃ (v : W32) (x : Service) (s : State), (s.service? v.toNat = some x) ∧ (x.st = .sample) ∧ True) ∧
    (∃ (v : W32) (x : Service) (s : State), (s.service? v.toNat = some x) ∧ (x.st = .sample) ∧ ∃ k q y, (x.plan = [k]) ∧ (look x.seqs k = some q) ∧ (s.qp? q.req.qp = some y) ∧ (listOk s x q (startPos q + q.planned) = true) ∧ (q.sampleRows = 0) ∧ True) ∧
    (∃ (v : W32) (x : Service) (s : State), (s.service? v.toNat = some x) ∧ (x.st = .sample) ∧ ∃ k q y, (x.plan = [k]) ∧ (look x.seqs k = some q) ∧ (s.qp? q.req.qp = some y) ∧ (listOk s x q (startPos q + q.planned) = true) ∧ (q.sampleRows ≠ 0) ∧ True) ∧
    (∃ (v : W32) (x : Service) (s : State), (s.service? v.toNat = some x) ∧ (x.st = .commit) ∧ (x.dereg = none) ∧ (s.ready = []) ∧ True) ∧
    (∃ (v : W32) (_i _o : W64) (x : Service) (s : State), (s.service? v.toNat = some x) ∧ (x.d.scoring = true) ∧ (svcStarts s v.toNat x = true) ∧ (svcWork x = true) ∧ (svcCores s v.toNat x ≠ []) ∧ ((freeSlots s (svcCores s v.toNat x)).isSome = true) ∧ (s.ready = []) ∧ (∀ r ∈ x.scores.take x.d.scoreBatch, ((s.qp? r.qp).bind (fun y => qpReader s y r.inAddr x.d.inputBytes)).isSome = true) ∧ True) ∧
    (∃ (v : W32) (x : Service) (r : ScoreReq) (rest : List ScoreReq) (s : State), (s.service? v.toNat = some x) ∧ (x.scores = r :: rest) ∧ True) ∧
    (∃ (v : W32) (q : Fin 4096) (id : W64) (x : Service) (r : ScoreReq) (s : State), (s.service? v.toNat = some x) ∧ (x.scores.find? (fun r => r.qp = q.val ∧ r.reqId = id.toNat ∧ r.deadline ≠ 0) = some r) ∧ (s.ready = []) ∧ (r.flags.testBit 3 = false) ∧ True) ∧
    (∃ (v : W32) (q : Fin 4096) (id : W64) (x : Service) (r : ScoreReq) (s : State), (s.service? v.toNat = some x) ∧ (x.scores.find? (fun r => r.qp = q.val ∧ r.reqId = id.toNat ∧ r.deadline ≠ 0) = some r) ∧ (s.ready = []) ∧ (r.flags.testBit 3 = true) ∧ (((s.qp? q.val).bind (fun y => (writeVa s y.fn y.ctx r.outAddr (List.replicate x.d.outputBytes 0)).toOption)).isSome = true) ∧ True) :=
  ⟨⟨2, { draftCaps := [] }, reqSvc, batchState reqSvc, by decide, by decide, by decide, by decide +kernel, by decide +kernel, trivial⟩,
   ⟨2, { reqSvc with st := .run, outcome := some none, launch := some 9 }, batchState { reqSvc with st := .run, outcome := some none, launch := some 9 }, by decide, by decide, by decide, trivial⟩,
   ⟨2, { planSvc with st := .run, outcome := some (some {}), attempt := 1, plan := [0] }, batchState { planSvc with st := .run, outcome := some (some {}), attempt := 1, plan := [0] }, by decide, by decide, {}, by decide, by decide, trivial⟩,
   ⟨2, { reqSvc with st := .run, outcome := some (some {}) }, batchState { reqSvc with st := .run, outcome := some (some {}) }, by decide, by decide, {}, by decide, by decide, by decide +kernel, trivial⟩,
   ⟨2, { reqSvc with st := .sample }, batchState { reqSvc with st := .sample }, by decide, by decide, trivial⟩,
   ⟨2, { reqSvc with st := .sample, plan := [0], seqs := [(0, sampledSeq)] }, batchState { reqSvc with st := .sample, plan := [0], seqs := [(0, sampledSeq)] }, by decide, by decide, 0, sampledSeq, reqQp, by decide, by decide, by decide, by decide +kernel, by decide, trivial⟩,
   ⟨2, { reqSvc with st := .sample, plan := [0], seqs := [(0, { sampledSeq with st := .decode, planned := 1, sampleRows := 1 })] }, batchState { reqSvc with st := .sample, plan := [0], seqs := [(0, { sampledSeq with st := .decode, planned := 1, sampleRows := 1 })] }, by decide, by decide, 0, { sampledSeq with st := .decode, planned := 1, sampleRows := 1 }, reqQp, by decide, by decide, by decide, by decide +kernel, by decide, trivial⟩,
   ⟨2, { reqSvc with st := .commit }, batchState { reqSvc with st := .commit }, by decide, by decide, by decide, by decide, trivial⟩,
   ⟨2, 0x100#64, 0x200#64, scoreSvc, batchState scoreSvc, by decide, by decide, by decide, by decide, by decide +kernel, by decide +kernel, by decide, by decide +kernel, trivial⟩,
   ⟨2, scoreSvc, { qp := 8, reqId := 1, inAddr := 0x1000, outAddr := 0x2000, deadline := 10 }, [{ qp := 8, reqId := 2 }], batchState scoreSvc, by decide, by decide, trivial⟩,
   ⟨2, 8, 1, scoreSvc, { qp := 8, reqId := 1, inAddr := 0x1000, outAddr := 0x2000, deadline := 10 }, batchState scoreSvc, by decide, by decide, by decide, by decide, trivial⟩,
   ⟨2, 8, 1, { scoreSvc with scores := [{ qp := 8, reqId := 1, outAddr := 0x2000, deadline := 10, flags := 8 }] }, { qp := 8, reqId := 1, outAddr := 0x2000, deadline := 10, flags := 8 }, batchState { scoreSvc with scores := [{ qp := 8, reqId := 1, outAddr := 0x2000, deadline := 10, flags := 8 }] }, by decide, by decide, by decide, by decide, by decide +kernel, trivial⟩⟩

/-- Line 7 of the standard layout is written, its channel too. -/
def writtenLine (lay : Layout) : State :=
  { oneVd with mem := { hbm := [(896, 3)], units := [(14, { nz := true })], chans := [(0, { layout := lay })] } }

/-- States and operands that meet the hypotheses of every clause of MemoryControllerAccesses. -/
theorem wit_MemoryControllerAccesses :
    (∃ (line : LineId) (_err : EccErr) (_pc : Fin 2) (_row : W32) (_tc : Fin 8) (s : State) (v : Nat), (s.pairVd (dpaPair (line.val * 128)) = some v) ∧ ((s.llcLine line.val).valid = false) ∧ ((s.chan (dpaChan (line.val * 128))).conv = none) ∧ True) ∧
    (∃ (line : LineId) (off : Fin 128) (data : List Byte) (_poison : Bool) (_tc : Fin 8) (s : State), ((s.pairOwner (dpaPair (line.val * 128))).isSome = true) ∧ (data ≠ []) ∧ (off.val + data.length ≤ 128) ∧ True) :=
  ⟨⟨7, .pinsMany, 0, 0, 0, writtenLine .strong, 1, by decide, by decide, by decide, trivial⟩,
   ⟨7, 126, [1, 2], true, 0, oneVd, by decide, by decide, by decide, trivial⟩⟩

/-- VD 1 is in teardown and its one pair is being filled. -/
def fillingVd : State :=
  { pool := { slices := [(0, { cgs := 1, pairs := 1, st := .bound 1 })] }, cmp := { vds := [(1, { live := true, tag := 5, teardown := true })] }
    mem := { pairs := [(0, { filling := true })] } }

/-- States and operands that meet the hypotheses of every clause of MemoryUpkeep. -/
theorem wit_MemoryUpkeep :
    (∃ (c : ChanId) (s : State) (cv : Conv), ((s.chan c.val).conv = some cv) ∧ True) ∧
    (∃ (n : StackId) (s : State), ((s.stack n.val).patrolHours ≠ 0) ∧ ((s.stack n.val).patrolOn = false) ∧ True) ∧
    (∃ (n : StackId) (s : State), ((s.stack n.val).patrolOn = true) ∧ ((s.stack n.val).patrolLate = false) ∧ True) ∧
    (∃ (n : StackId) (_ecs : List Nat) (s : State), ((s.stack n.val).patrolOn = true) ∧ True) ∧
    (∃ (k : Fin 128) (_failed : BitVec 64) (s : State) (x : Slice), (look s.pool.slices k.val = some x) ∧ (x.st = .releasing) ∧ True) ∧
    (∃ (v : VdId) (_failed : BitVec 64) (s : State), (((s.vd v.val).teardown = true ∧ (s.fn v.val).resetting = false) ∨ (s.vd v.val).posture.isSome = true) ∧ (ownedPairs s v.val ≠ []) ∧ (∀ p ∈ ownedPairs s v.val, (s.pairMem p).filling = true) ∧ True) :=
  ⟨⟨0, { mem := { chans := [(0, { layout := .standard, conv := some { old := .standard, new := .strong }, queued := some .sealed })], units := [(15, { nz := true, poison := true })] } }, { old := .standard, new := .strong }, by decide, trivial⟩,
   ⟨7, { mem := { stackUnits := [(7, { patrolLate := true })] } }, by decide, by decide, trivial⟩,
   ⟨0, { mem := { stackUnits := [(0, { patrolOn := true })] } }, by decide, by decide, trivial⟩,
   ⟨0, [1, 0, 0, 0, 0, 0, 0, 0, 0, 0, 0, 0, 0, 0, 0, 9], { mem := { stackUnits := [(0, { patrolOn := true })] } }, by decide, trivial⟩,
   ⟨127, 1, { pool := { slices := [(127, { pairs := 3, st := .releasing })] }, mem := { hbm := [(5, 5)], pairs := [(0, { filling := true }), (1, { filling := true })], chans := [(0, { layout := .strong })] } }, { pairs := 3, st := .releasing }, by decide, by decide, trivial⟩,
   ⟨1, 1, fillingVd, by decide, by decide, by decide, trivial⟩⟩

/-- Task 6 runs on engine 0 for work queue 4, of context 3. -/
def taskRun (x : Task) (q : Wq) : State := { oneVd with gfe := { tasks := [(6, x)], wqs := [(4, q)] } }
def aTask : Task := { fn := 1, ctx := 3, wq := 4 }
def aWq : Wq := { fn := 1, ctx := 3, sh := { tail := 3, head := 1, st := .active, pend := true } }

/-- States and operands that meet the hypotheses of every clause of ResidentTasksAndWorkQueues. -/
theorem wit_ResidentTasksAndWorkQueues :
    (∃ (e : EngId) (w : Fin 4096) (tail : W32) (s : State) (x : Wq), (s.wq? w.val = some x) ∧ (s.engVd e.val = some x.fn) ∧ (ctxLive s x.fn x.ctx = true) ∧ (x.sh.st ≠ .error) ∧ ((tail.toNat + 2 ^ 32 - x.sh.head) % 2 ^ 32 ≤ 2 ^ x.log2) ∧ True) ∧
    (∃ (e : EngId) (w : Fin 4096) (tail : W32) (s : State) (x : Wq), (s.wq? w.val = some x) ∧ (s.engVd e.val = some x.fn) ∧ (ctxLive s x.fn x.ctx = true) ∧ (x.sh.st ≠ .error) ∧ (2 ^ x.log2 < (tail.toNat + 2 ^ 32 - x.sh.head) % 2 ^ 32) ∧ (x.task = none) ∧ True) ∧
    (∃ (tid : W32) (_n : Fin 4097) (s : State) (x : Task) (q : Wq), (s.task? tid.toNat = some x) ∧ (x.st = .running) ∧ (x.stopPend = false) ∧ (s.wq? x.wq = some q) ∧ True) ∧
    (∃ (tid : W32) (s : State) (x : Task) (q : Wq), (s.task? tid.toNat = some x) ∧ (x.st = .waiting) ∧ (s.wq? x.wq = some q) ∧ (q.sh.st = .active) ∧ True) ∧
    (∃ (tid : W32) (s : State) (x : Task), (s.task? tid.toNat = some x) ∧ (x.signal = none) ∧ (x.stopPkts = []) ∧ (x.cbSlot < 32) ∧ True) :=
  ⟨⟨8, 4, 17, taskRun aTask aWq, aWq, by decide, by decide, by decide, by decide, by decide, trivial⟩,
   ⟨8, 4, 18, taskRun aTask aWq, aWq, by decide, by decide, by decide, by decide, by decide, by decide, trivial⟩,
   ⟨6, 2, taskRun aTask { aWq with task := some 6 }, aTask, { aWq with task := some 6 }, by decide, by decide, by decide, by decide, trivial⟩,
   ⟨6, taskRun { aTask with st := .waiting } aWq, { aTask with st := .waiting }, aWq, by decide, by decide, by decide, by decide, trivial⟩,
   ⟨6, { taskRun aTask { aWq with task := some 6 } with cores := [(0, { cbUsed := 1 })] }, aTask, by decide, by decide, by decide, by decide, trivial⟩⟩

/-- Multicast 3 of engine 0 to cores 1 and 12. -/
def aMcast : Mcast := { sender := 0, vd := 1, tag := 5, payload := [9, 8], dest := .scratch 64, asked := [1, 12], targets := [1, 12], copies := [1, 12] }
def mcasting (x : Mcast) : State :=
  { oneVd with cores := [(0, { curTag := 5 }), (1, { curTag := 5 }), (12, { curTag := 5 })], net := { mcasts := [(3, x)] } }

/-- States and operands that meet the hypotheses of every clause of MulticastDelivers. -/
theorem wit_MulticastDelivers :
    (∃ (e : EngId) (targets : BitVec 192) (_dst : McDest) (payload : List Byte) (s : State) (v : Nat), (s.coreVd (engCore e.val) = some v) ∧ (payload ≠ []) ∧ (payload.length ≤ 2048) ∧ (∃ c ∈ bitsOf 192 targets.toNat, s.coreVd c = some v ∧ s.coreTag c = s.coreTag (engCore e.val) ∧ cgBit s.pool.cgFenced (coreCg c) = false) ∧ True) ∧
    (∃ (m : W32) (c : CoreId) (s : State) (x : Mcast), (look s.net.mcasts m.toNat = some x) ∧ (c.val ∈ x.targets) ∧ (mcReach s x c.val = true) ∧ (s.ready = []) ∧ (c.val ∈ x.copies) ∧ True) ∧
    (∃ (m : W32) (c : CoreId) (s : State) (x : Mcast), (look s.net.mcasts m.toNat = some x) ∧ (c.val ∈ x.targets) ∧ (mcReach s x c.val = true) ∧ (s.ready = []) ∧ ((c.val, true) ∈ x.answers) ∧ (∃ d ∈ x.targets, d ∉ x.acked ∧ d ≠ c.val) ∧ True) ∧
    (∃ (m : W32) (c : CoreId) (s : State) (x : Mcast), (look s.net.mcasts m.toNat = some x) ∧ (c.val ∈ x.targets) ∧ (mcReach s x c.val = true) ∧ (s.ready = []) ∧ ((c.val, true) ∈ x.answers) ∧ (∀ d ∈ x.targets, d ∈ x.acked ∨ d = c.val) ∧ (∀ d ∈ x.asked, d ∈ x.acked ∨ d = c.val) ∧ True) ∧
    (∃ (m : W32) (c : CoreId) (s : State) (x : Mcast), (look s.net.mcasts m.toNat = some x) ∧ (c.val ∈ x.targets) ∧ (mcReach s x c.val = true) ∧ (s.ready = []) ∧ ((c.val, false) ∈ x.answers) ∧ True) ∧
    (∃ (m : W32) (c : CoreId) (s : State) (x : Mcast), (look s.net.mcasts m.toNat = some x) ∧ (c.val ∈ x.targets) ∧ (mcReach s x c.val = true) ∧ (s.ready = []) ∧ ((s.core c.val).reserve.head? = some m.toNat) ∧ (c.val ∉ x.granted) ∧ True) ∧
    (∃ (m : W32) (c : CoreId) (s : State) (x : Mcast), (look s.net.mcasts m.toNat = some x) ∧ (c.val ∈ x.targets) ∧ (mcReach s x c.val = true) ∧ (s.ready = []) ∧ (c.val ∈ x.retries) ∧ True) ∧
    (∃ (m : W32) (s : State) (x : Mcast), (look s.net.mcasts m.toNat = some x) ∧ (∀ d ∈ x.asked, d ∈ x.acked) ∧ (s.ready = []) ∧ True) :=
  ⟨⟨0, 0x1002, .scratch 2752511, [9], mcasting aMcast, 1, by decide, by decide, by decide, by decide +kernel, trivial⟩,
   ⟨3, 1, mcasting aMcast, aMcast, by decide, by decide, by decide, by decide, by decide, trivial⟩,
   ⟨3, 1, mcasting { aMcast with copies := [], answers := [(1, true)] }, { aMcast with copies := [], answers := [(1, true)] }, by decide, by decide, by decide, by decide, by decide, by decide, trivial⟩,
   ⟨3, 12, mcasting { aMcast with copies := [], acked := [1], answers := [(12, true)] }, { aMcast with copies := [], acked := [1], answers := [(12, true)] }, by decide, by decide, by decide, by decide, by decide, by decide, by decide, trivial⟩,
   ⟨3, 12, mcasting { aMcast with copies := [], answers := [(12, false)] }, { aMcast with copies := [], answers := [(12, false)] }, by decide, by decide, by decide, by decide, by decide, trivial⟩,
   ⟨3, 1, { mcasting aMcast with cores := [(0, { curTag := 5 }), (1, { curTag := 5, reserve := [3, 4] })] }, aMcast, by decide, by decide, by decide, by decide, by decide, by decide, trivial⟩,
   ⟨3, 1, { mcasting { aMcast with retries := [1], granted := [1] } with cores := [(0, { curTag := 5 }), (1, { curTag := 5, reserve := [3] })] }, { aMcast with retries := [1], granted := [1] }, by decide, by decide, by decide, by decide, by decide, trivial⟩,
   ⟨3, mcasting { aMcast with acked := [12, 1] }, { aMcast with acked := [12, 1] }, by decide, by decide, by decide, trivial⟩⟩

def reWheel : Wheel := { shadow := some (4, [0x8000, 1, 2, 0x8000]) }

/-- States and operands that meet the hypotheses of every clause of NetworkRegulationAndRouters. -/
theorem wit_NetworkRegulationAndRouters :
    (∃ (w : Fin 32) (s : State) (x : Wheel) (n : Nat) (sl : List Nat), (look s.net.wheels w.val = some x) ∧ (x.shadow = some (n, sl)) ∧ True) ∧
    (∃ (r : CoreId) (s : State), (r.val ∉ s.net.fenced) ∧ (r.val ∉ s.net.faulty) ∧ True) ∧
    (∃ (r : CoreId) (s : State), (r.val ∈ s.net.faulty) ∧ True) ∧
    (∃ (s : State), ∃ (e : EngId) (x : RunTile) (l : Launch), ((s.eng e.val).run = some x) ∧ (s.launch? x.tile.launch = some l) ∧ (l.failed = none) ∧ True) ∧
    (∃ (s : State), ∃ (d : W32) (x : Desc), (s.desc? d.toNat = some x) ∧ True) ∧
    (∃ (s : State), ∃ (l : LineId) (x : Txn), ((s.llcLine l.val).txn = some x) ∧ (s.ready = []) ∧ True) :=
  ⟨⟨0, { oneVd with net := { wheels := [(0, reWheel)] } }, reWheel, 4, [0x8000, 1, 2, 0x8000], rfl, rfl, trivial⟩,
   ⟨191, oneVd, by decide, by decide, trivial⟩,
   ⟨0, { oneVd with net := { faulty := [0], halted := [0], pkts := [(0, { group := 7 })] } }, by decide, trivial⟩,
   ⟨oneRun.modEng 0 (fun x => { x with run := some ranRun }), 0, ranRun, oneLaunch, by decide, by decide, by decide, trivial⟩,
   ⟨{ oneVd with xlt := { descs := [(5, { fn := 1, ctx := 3, len := 16 })] } }, 5, { fn := 1, ctx := 3, len := 16 }, by decide, trivial⟩,
   ⟨home { sharedLine with txn := some { core := 0, invLeft := [1] } } [], 7, { core := 0, invLeft := [1] }, by decide, by decide, trivial⟩⟩

/-- Group 7 joins cores 0, 1 and 2 at core 0; core 1 expects two packets. -/
def aGroup : RelayGroup := { launch := 9, n := 3, cores := [0, 1, 2], entries := [0, 1, 2] }
def relaying (g : RelayGroup) (p : List (Nat × RelayPkt)) (h : List RelayHold) : State := { oneVd with net := { groups := [(7, g)], pkts := p, holds := h } }
def aPkt : RelayPkt := { group := 7, vals := [.fp (some 0x3F800000)] }

/-- States and operands that meet the hypotheses of every clause of RelayPacketsCombine. -/
theorem wit_RelayPacketsCombine :
    (∃ (r : CoreId) (gk b sg : W16) (s : State) (p : RelayPkt), (relayAt s r.val gk.toNat b.toNat sg.toNat p) ∧ (s.ready = []) ∧ (look s.net.groups gk.toNat = none) ∧ True) ∧
    (∃ (r : CoreId) (gk b sg : W16) (s : State) (p : RelayPkt), (relayAt s r.val gk.toNat b.toNat sg.toNat p) ∧ (s.ready = []) ∧ ∃ g, (look s.net.groups gk.toNat = some g) ∧ (r.val ≠ groupDest g) ∧ let ps := relayCombine g (holdOf s r.val gk.toNat b.toNat sg.toNat ++ [p])
    let all := ps.foldl (fun a q => a + q.count) 0
    (expectedAt g r.val ≤ all ∨ r.val ∉ g.entries) ∧ True) ∧
    (∃ (r : CoreId) (gk b sg : W16) (s : State) (p : RelayPkt), (relayAt s r.val gk.toNat b.toNat sg.toNat p) ∧ (s.ready = []) ∧ ∃ g, (look s.net.groups gk.toNat = some g) ∧ (r.val ≠ groupDest g) ∧ let ps := relayCombine g (holdOf s r.val gk.toNat b.toNat sg.toNat ++ [p])
    let all := ps.foldl (fun a q => a + q.count) 0
    (all < expectedAt g r.val) ∧ (r.val ∈ g.entries) ∧ True) ∧
    (∃ (r : CoreId) (gk b sg : W16) (s : State) (g : RelayGroup), (look s.net.groups gk.toNat = some g) ∧ (holdOf s r.val gk.toNat b.toNat sg.toNat ≠ []) ∧ (s.ready = []) ∧ (r.val ≠ groupDest g) ∧ True) ∧
    (∃ (r : CoreId) (gk b sg : W16) (s : State) (g : RelayGroup), (look s.net.groups gk.toNat = some g) ∧ (holdOf s r.val gk.toNat b.toNat sg.toNat ≠ []) ∧ (s.ready = []) ∧ (r.val = groupDest g) ∧ True) :=
  ⟨⟨1, 7, 0, 0, { net := { pkts := [(1, aPkt)] } }, aPkt, by unfold relayAt; decide, by decide, by decide, trivial⟩,
   ⟨1, 7, 0, 0, relaying aGroup [(1, aPkt)] [{ router := 1, pkts := [aPkt] }], aPkt, by unfold relayAt; decide, by decide, aGroup, by decide, by decide, by decide +kernel, trivial⟩,
   ⟨1, 7, 0, 0, relaying aGroup [(1, aPkt)] [], aPkt, by unfold relayAt; decide, by decide, aGroup, by decide, by decide, by decide, by decide, trivial⟩,
   ⟨1, 7, 0, 0, relaying aGroup [] [{ router := 1, pkts := [aPkt] }], aGroup, by decide, by decide, by decide, by decide, trivial⟩,
   ⟨0, 7, 0, 0, relaying aGroup [] [{ router := 0, pkts := [aPkt] }], aGroup, by decide, by decide, by decide, by decide, trivial⟩⟩

/-- VD 1 is served by VF 1, which is on. -/
def openVd : State := { oneVd with boot := { ready := true }, pcie := { fns := [(0, { vfEn := true, numVfs := 3 })] } }
def aFault : OpenFault := { fn := 1, ctx := 3, page := 0x5000, waiters := [.engine 0] }
def faulted (f : OpenFault) : State :=
  { openVd with xlt := { faults := [(4, f)] }, engs := [(0, { run := some { ranRun with stalled := some 4 } })], gfe := { launches := [(9, oneLaunch)] }
                fns := [(1, { xlt := { fring := { base := 0x1000, en := true, prod := 63 } } })] }

/-- States and operands that meet the hypotheses of every clause of FaultRecordsAndResumes. -/
theorem wit_FaultRecordsAndResumes :
    (∃ (id : W32) (s : State) (f : OpenFault), (look s.xlt.faults id.toNat = some f) ∧ (f.posted = false) ∧ (ringRoom (s.fn f.fn).xlt.fring = true) ∧ True) ∧
    (∃ (fn : FnId) (id : W32) (s : State), (fnOpen s fn.val = true) ∧ ∃ f, (look s.xlt.faults id.toNat = some f) ∧ (f.fn = fn.val) ∧ (∀ w ∈ f.waiters, ∃ e, w = .engine e) ∧ (s.xlt.stalledNoEntry = []) ∧ True) ∧
    (∃ (fn : FnId) (id : W32) (s : State), (fnOpen s fn.val = true) ∧ (∀ f, look s.xlt.faults id.toNat = some f → f.fn ≠ fn.val) ∧ True) ∧
    (∃ (fn : FnId) (id : W32) (s : State), (fnOpen s fn.val = true) ∧ ∃ f e r l, (look s.xlt.faults id.toNat = some f) ∧ (f.fn = fn.val) ∧ (f.waiters = [.engine e]) ∧ (s.xlt.stalledNoEntry = []) ∧ (ownTile s e r l) ∧ True) ∧
    (∃ (id : W32) (s : State), ∃ f e r l, (look s.xlt.faults id.toNat = some f) ∧ (f.waiters = [.engine e]) ∧ (s.xlt.stalledNoEntry = []) ∧ (ownTile s e r l) ∧ True) :=
  ⟨⟨4, faulted aFault, aFault, by decide, by decide, by decide, trivial⟩,
   ⟨1, 4, faulted aFault, by decide, aFault, by decide, by decide, by intro w h; simp [aFault] at h; exact ⟨0, h⟩, by decide, trivial⟩,
   ⟨1, 5, faulted aFault, by decide, by intro f h; simp [faulted, look] at h, trivial⟩,
   ⟨1, 4, faulted aFault, by decide, aFault, 0, { ranRun with stalled := some 4 }, oneLaunch, by decide, by decide, by decide, by decide, by unfold ownTile; decide, trivial⟩,
   ⟨4, faulted aFault, aFault, 0, { ranRun with stalled := some 4 }, oneLaunch, by decide, by decide, by decide, by unfold ownTile; decide, trivial⟩⟩

def cachedVd : State :=
  { openVd with cmp := { vds := [(1, { live := true, tag := 5 })] }, cores := [(0, { xtlb := oneTlb })], xlt := { walkCache := oneTlb } }
def fenced : InvReq := { ctx := 3, npages := 1, fence := 65535, fenceValue := 9, seq := 2 }
def anInval : Inval := { fn := 1, src := .slot 63, kind := 2, ctxs := [3], fence := some (5, 9), waits := [7] }

/-- States and operands that meet the hypotheses of every clause of InvalidationsDropEntries. -/
theorem wit_InvalidationsDropEntries :
    (∃ (fn : FnId) (n : Fin 64) (r : InvReq) (s : State), (invReady s fn.val n.val r) ∧ ∃ x, (s.ctx? fn.val r.ctx.toNat = some x) ∧ (epochBlocked s fn.val [r.ctx.toNat] = false) ∧ (r.va.toNat % 65536 = 0) ∧ (1 ≤ r.npages.toNat) ∧ (r.npages.toNat ≤ 2 ^ 39) ∧ True) ∧
    (∃ (fn : FnId) (n : Fin 64) (r : InvReq) (s : State), (invReady s fn.val n.val r) ∧ ∃ x, (s.ctx? fn.val r.ctx.toNat = some x) ∧ (epochBlocked s fn.val [r.ctx.toNat] = false) ∧ (r.va = 0) ∧ (r.npages = 0) ∧ True) ∧
    (∃ (fn : FnId) (n : Fin 64) (r : InvReq) (s : State), (invReady s fn.val n.val r) ∧ (r.va = 0) ∧ (r.npages = 0) ∧ (epochBlocked s fn.val (s.fnCtxs fn.val) = false) ∧ (sortedKeys s.obj.ctxs = true) ∧ True) ∧
    (∃ (id : W32) (s : State) (v : Inval), (look s.xlt.invals id.toNat = some v) ∧ (v.held = false) ∧ (invalLeft s v = []) ∧ (invalDying s v = false ∨ v.kind = 3) ∧ True) ∧
    (∃ (id : W32) (s : State) (v : Inval), (look s.xlt.invals id.toNat = some v) ∧ (v.held = false) ∧ True) ∧
    (∃ (fn : FnId) (_addr _size : W64) (_tag : Nat) (s : State), let cs := (s.fnCtxs fn.val).filter (fun c => ((s.ctx? fn.val c).map (·.hostEn)).getD false)
    (epochBlocked s fn.val cs = false) ∧ True) :=
  ⟨⟨1, 63, fenced, cachedVd, by unfold invReady; decide, {}, by decide, by decide, by decide, by decide, by decide, trivial⟩,
   ⟨1, 0, { fenced with npages := 0, fence := 0xFFFFFFFF }, cachedVd, by unfold invReady; decide, {}, by decide, by decide, by decide, by decide, trivial⟩,
   ⟨1, 0, { seq := 1 }, cachedVd, by unfold invReady; decide, by decide, by decide, by decide, by decide, trivial⟩,
   ⟨2, { openVd with xlt := { invals := [(2, anInval)] }, fns := [(1, { xlt := { slots := [(63, { st := 1, seq := 2 })] } })] }, anInval, by decide, by decide, by decide, by decide, trivial⟩,
   ⟨2, { openVd with obj := { ctxs := [(ctxKey 1 3, { epoch := 1 })] }, xlt := { invals := [(2, anInval)], descs := [(7, { fn := 1, ctx := 3, len := 8 })] } }, anInval, by decide, by decide, trivial⟩,
   ⟨1, 0x1000#64, 0x1000#64, 3, { cachedVd with obj := { ctxs := [(ctxKey 1 3, { hostEn := true })] }, xlt := { walkCache := oneTlb, atc := [⟨1, 1, 7, true⟩, ⟨1, 2, 8, true⟩] } }, by decide, trivial⟩⟩

/-- Descriptor 7 fills device memory for an admin packet of VF 1. -/
def aPacket : PktRef := { ring := .admin 1, opcode := 4, tag := 6, cqe := true, seq := 2 }
def fill (n m : Nat) : Desc :=
  { fn := 1, ctx := 3, owner := .packet aPacket, kind := 2, dst := 0x1000, len := n, chunkEnd := m, pattern := 0xAB
    exts := [{ addr := 0x20001000, len := m, dst := true }] }
def filling (d : Desc) : State := { openVd with xlt := { descs := [(7, d)] }, gfe := { admins := [(1, { fn := 1, inflight := [2] })] } }
def aPageReq : PageReq := { fn := 1, ctx := 3, page := 8, waiters := [.engine 0] }

/-- States and operands that meet the hypotheses of every clause of TransfersAndHostPages. -/
theorem wit_TransfersAndHostPages :
    (∃ (id : W32) (s : State) (d : Desc), (s.desc? id.toNat = some d) ∧ (descDead s d = false) ∧ ((chunkRun s id.toNat).2 = true) ∧ (d.chunkEnd < descTotal d) ∧ True) ∧
    (∃ (id : W32) (s : State) (d : Desc), (s.desc? id.toNat = some d) ∧ (descDead s d = false) ∧ ((chunkRun s id.toNat).2 = true) ∧ ∃ p r, (d.owner = .packet p) ∧ (d.record = false) ∧ (descTotal d ≤ d.chunkEnd) ∧ (s.ring? p.ring = some r) ∧ (s.ready = []) ∧ True) ∧
    (∃ (fn : FnId) (page : W64) (s : State) (q : PageReq), (s.xlt.pageReqs.find? (fun q => q.fn = fn.val && q.page = page.toNat && !q.sent) = some q) ∧ ∃ w, (w = true ∨ q.write = false) ∧ (∀ x ∈ q.waiters, ∃ e, x = .engine e) ∧ True) ∧
    (∃ (fn : FnId) (page : W64) (s : State) (q : PageReq), (s.xlt.pageReqs.find? (fun q => q.fn = fn.val && q.page = page.toNat && !q.sent) = some q) ∧ ∃ x, (s.ctx? fn.val q.ctx = some x) ∧ (x.priEn = true) ∧ ((s.pf fn.val).priEn = true) ∧ (q.retried = false) ∧ (prOut s fn.val < 256) ∧ True) ∧
    (∃ (fn : FnId) (page : W64) (s : State) (q : PageReq), (s.xlt.pageReqs.find? (fun q => q.fn = fn.val && q.page = page.toNat && q.sent) = some q) ∧ True) ∧
    (∃ (fn : FnId) (s : State), (fnOpen s 0 = true) ∧ (fn.val ≠ 0) ∧ True) ∧
    (∃ (fn : FnId) (s : State) (d : Dlog), (look s.xlt.dlog fn.val = some d) ∧ (d.swapping = true) ∧ True) :=
  ⟨⟨7, filling (fill 16 8), fill 16 8, by decide, by decide, by decide +kernel, by decide, trivial⟩,
   ⟨7, filling (fill 8 8), fill 8 8, by decide, by decide, by decide +kernel, aPacket, { fn := 1, inflight := [2] }, by decide, by decide, by decide, by decide, by decide, trivial⟩,
   ⟨1, 8, { openVd with xlt := { pageReqs := [aPageReq] }, engs := [(0, { run := some { ranRun with stalled := some 0 } })] }, aPageReq, by decide, false, by decide, by intro x h; simp [aPageReq] at h; exact ⟨0, h⟩, trivial⟩,
   ⟨1, 8, { openVd with xlt := { pageReqs := [aPageReq] }, obj := { ctxs := [(ctxKey 1 3, { priEn := true })] }, pcie := { fns := [(1, { priEn := true })] } }, aPageReq, by decide, { priEn := true }, by decide, by decide, by decide, by decide, by decide, trivial⟩,
   ⟨1, 8, { openVd with xlt := { pageReqs := [{ aPageReq with sent := true }] } }, { aPageReq with sent := true }, by decide, trivial⟩,
   ⟨1, openVd, by decide, by decide, trivial⟩,
   ⟨1, { openVd with xlt := { dlog := [(1, { swapping := true })] } }, { swapping := true }, by decide, by decide, trivial⟩⟩

/-- A move list of one entry of context 3: a kind, and the new place. -/
def moveEntry (kind dest : Nat) : List Byte := natLe 2 3 ++ natLe 1 kind ++ natLe 5 0 ++ natLe 8 0 ++ natLe 8 dest
def aMove (kind dest : Nat) : MoveList := { fn := 1, ctx := 3, entries := [moveEntry kind dest], results := [0] }
def moving (x : MoveList) (leave : BitVec 64) : State :=
  { openVd with cmp := { vds := [(1, { live := true, tag := 5, leave := leave })] }, xlt := { moves := [(6, x)] } }

/-- States and operands that meet the hypotheses of every clause of PageMovesHoldAndSwitch. -/
theorem wit_PageMovesHoldAndSwitch :
    (∃ (m n : W32) (s : State) (x : MoveList), (look s.xlt.moves m.toNat = some x) ∧ (moveMayStart x n.toNat = true) ∧ let b := x.entries.getD n.toNat []
    let kind := fieldAt b 2 1
    ∃ c a e, (s.ctx? x.fn (fieldAt b 0 2) = some c) ∧ (moveTarget s x.fn c b = some (a, e)) ∧ let obj := if kind = 4 then e else pteAddr e
    (pairBit (s.vd x.fn).leave (dpaPair obj) = true) ∧ (moveDestOk s x.fn (fieldAt b 16 8) (moveSize kind)) ∧ (kind = 4 ∨ pteMig e = false) ∧ (epochBlocked s x.fn [fieldAt b 0 2] = false) ∧ True) ∧
    (∃ (m n : W32) (s : State) (x : MoveList), (look s.xlt.moves m.toNat = some x) ∧ (moveMayStart x n.toNat = true) ∧ let b := x.entries.getD n.toNat []
    let kind := fieldAt b 2 1
    ∃ c a e, (s.ctx? x.fn (fieldAt b 0 2) = some c) ∧ (moveTarget s x.fn c b = some (a, e)) ∧ let obj := if kind = 4 then e else pteAddr e
    (pairBit (s.vd x.fn).leave (dpaPair obj) = false) ∧ True) ∧
    (∃ (m n : W32) (s : State) (x : MoveList), (look s.xlt.moves m.toNat = some x) ∧ (moveMayStart x n.toNat = true) ∧ let b := x.entries.getD n.toNat []
    (s.ctx? x.fn (fieldAt b 0 2) = none) ∧ True) ∧
    (∃ (m n : W32) (s : State) (x : MoveList) (c : Ctx), (look s.xlt.moves m.toNat = some x) ∧ (n.toNat ∈ x.running) ∧ (∀ p ∈ s.xlt.invals, p.2.src ≠ .move m.toNat n.toNat) ∧ let b := x.entries.getD n.toNat []
    (s.ctx? x.fn (fieldAt b 0 2) = some c) ∧ True) :=
  ⟨⟨6, 0, moving (aMove 4 0x180000000) 1, aMove 4 0x180000000, by decide, by decide, {}, none, 0, by decide, by decide, by decide, by unfold moveDestOk; decide +kernel, by decide, by decide, trivial⟩,
   ⟨6, 0, moving (aMove 2 0x180000000) 2, aMove 2 0x180000000, by decide, by decide, {}, some 0x10000, 0x20000007, by decide, by decide +kernel, by decide, trivial⟩,
   ⟨6, 0, { moving (aMove 4 0x180000000) 1 with obj := {} }, aMove 4 0x180000000, by decide, by decide, by decide, trivial⟩,
   ⟨6, 0, moving { aMove 4 0x180000000 with running := [0] } 1, { aMove 4 0x180000000 with running := [0] }, {}, by decide, by decide, by decide, by decide, trivial⟩⟩

/-- Port 3 is up and VD 1's, with one received frame; device 5 is reached by it. -/
def fabric (x : Port) : State :=
  { oneVd with talko := { devId := 2, ports := [(3, { x with st := .up })], routes := [(5, { ports := 8, valid := true })]
                          windows := [(0, { vd := 1, base := 0x1000, len := 0x2000, dpa := 0x20000000, sources := [5] })] } }
def aFrame (type : Nat) : Frame := { type := type, dst := 2, src := 5, tag := 7, addr := 0x1000, aux := 4352, payload := List.replicate 256 9 }
def aUnit : UnitRef := { op := 1, off := 256 }
def anOp : LiftOp := { owner := .queue 4, fn := 1, ctx := 3, port := 3, op := 1, pool := 5, len := 512, va := 0x1000, next := 512, left := [0, 256] }
def answered (type : Nat) (o : LiftOp) : State :=
  let s := fabric { rx := [aFrame type], reads := [(7, aUnit)], writes := [(7, aUnit)] }
  { s with talko := { s.talko with ops := [(1, o)] } }
def peerFrame (type : Nat) : Frame := { aFrame type with addr := 77 + 2 ^ 32, aux := 4 * 2 ^ 32, payload := List.replicate 256 0 }
def peerGrp (root : Bool) : RelayGroup := { launch := 9, type := 4, n := 2, cores := [0], entries := [0], peer := 77, loc := 1, root := root, inst := 1, members := [(3, 6)] }
def peering (type : Nat) (root : Bool) : State :=
  { fabric { rx := [peerFrame type] } with net := { groups := [(7, peerGrp root)] }, gfe := { launches := [(9, oneLaunch)] } }

/-- States and operands that meet the hypotheses of every clause of FabricServesFrames. -/
theorem wit_FabricServesFrames :
    (∃ (p : PortId) (s : State) (f : Frame) (q : Nat), (s.ready = []) ∧ (wayBack s p.val q f) ∧ (oldestRx s p.val 1 f) ∧ (reqFree (s.port p.val) f = true) ∧ True) ∧
    (∃ (p : PortId) (s : State) (f : Frame) (q : Nat), (s.ready = []) ∧ (wayBack s p.val q f) ∧ (oldestRx s p.val 3 f) ∧ (reqFree (s.port p.val) f = true) ∧ True) ∧
    (∃ (p : PortId) (s : State) (f : Frame) (q : Nat), (s.ready = []) ∧ (wayBack s p.val q f) ∧ (oldestRx s p.val 5 f) ∧ True) ∧
    (∃ (p : PortId) (s : State) (f : Frame) (u : UnitRef) (o : LiftOp) (k : Nat), (s.ready = []) ∧ (look s.talko.ops u.op = some o) ∧ (o.owner = .queue k) ∧ (o.len ≤ o.next) ∧ (f.status = 0) ∧ (oldestRx s p.val 2 f) ∧ (f.payload.length = 256) ∧ (look (s.port p.val).reads (f.tag % 4096) = some u) ∧ (o.left.erase u.off ≠ []) ∧ ∃ s1, (writeVa ((popped s p.val f).modPort p.val (fun x => { x with reads := del x.reads (f.tag % 4096) })) o.fn o.ctx (o.va + u.off) f.payload = .ok s1) ∧ True) ∧
    (∃ (p : PortId) (s : State) (f : Frame) (u : UnitRef) (o : LiftOp) (k : Nat), (s.ready = []) ∧ (look s.talko.ops u.op = some o) ∧ (o.owner = .queue k) ∧ (o.len ≤ o.next) ∧ (f.status = 0) ∧ (oldestRx s p.val 4 f) ∧ (look (s.port p.val).writes f.tag = some u) ∧ (o.op ≠ 3) ∧ (o.left.erase u.off ≠ []) ∧ ((s.talko.ops.all (fun x => !x.2.waiting)) = true) ∧ True) ∧
    (∃ (p : PortId) (s : State) (f : Frame) (u : UnitRef) (o : LiftOp) (k : Nat), (s.ready = []) ∧ (look s.talko.ops u.op = some o) ∧ (o.owner = .queue k) ∧ (o.len ≤ o.next) ∧ (f.status = 0) ∧ (oldestRx s p.val 6 f) ∧ (look (s.port p.val).writes f.tag = some u) ∧ (o.op = 3) ∧ (o.left.erase u.off = []) ∧ (o.failed = none) ∧ True) ∧
    (∃ (p : PortId) (s : State) (f : Frame), (s.ready = []) ∧ (peerGroupOf s p.val f = none) ∧ ∃ c : Instr, ((oldestRx s p.val 16 f ∧ c = .relayFrame p) ∨ (oldestRx s p.val 17 f ∧ c = .relayDone p) ∨ (oldestRx s p.val 18 f ∧ c = .relayAbort p)) ∧ True) ∧
    (∃ (p : PortId) (s : State) (f : Frame), (s.ready = []) ∧ ∃ k g, (peerGroupOf s p.val f = some (k, g)) ∧ (oldestRx s p.val 16 f) ∧ (g.root = true) ∧ (f.aux / 2 ^ 32 % 256 = g.type) ∧ (decide (f.aux / 2 ^ 40 % 2 = 1) = g.tree) ∧ True) ∧
    (∃ (p : PortId) (s : State) (f : Frame), (s.ready = []) ∧ ∃ k g, (peerGroupOf s p.val f = some (k, g)) ∧ (oldestRx s p.val 17 f) ∧ (g.root = false) ∧ True) ∧
    (∃ (p : PortId) (s : State) (f : Frame), (s.ready = []) ∧ ∃ k g, (peerGroupOf s p.val f = some (k, g)) ∧ (oldestRx s p.val 18 f) ∧ True) ∧
    (∃ (gk : W16) (s : State) (g : RelayGroup), (look s.net.groups gk.toNat = some g) ∧ (g.peer ≠ 0) ∧ (g.root = true) ∧ True) ∧
    (∃ (gk : W16) (s : State) (g : RelayGroup), (look s.net.groups gk.toNat = some g) ∧ (g.peer ≠ 0) ∧ (g.root = false) ∧ True) :=
  ⟨⟨3, fabric { rx := [aFrame 1] }, aFrame 1, 3, by decide, by unfold wayBack; decide, by unfold oldestRx; decide +kernel, by decide +kernel, trivial⟩,
   ⟨3, fabric { rx := [aFrame 3] }, aFrame 3, 3, by decide, by unfold wayBack; decide, by unfold oldestRx; decide +kernel, by decide +kernel, trivial⟩,
   ⟨3, fabric { rx := [aFrame 5] }, aFrame 5, 3, by decide, by unfold wayBack; decide, by unfold oldestRx; decide +kernel, trivial⟩,
   ⟨3, answered 2 anOp, aFrame 2, aUnit, anOp, 4, by decide, by decide, by decide, by decide, by decide, by unfold oldestRx; decide +kernel, by decide +kernel, by decide, by decide, (match writeVa ((popped (answered 2 anOp) 3 (aFrame 2)).modPort 3 (fun x => { x with reads := del x.reads 7 })) 1 3 0x1100 (List.replicate 256 9) with | .ok t => t | _ => {}), ok_of _ _ (by decide +kernel), trivial⟩,
   ⟨3, answered 4 { anOp with op := 2 }, aFrame 4, aUnit, { anOp with op := 2 }, 4, by decide, by decide, by decide, by decide, by decide, by unfold oldestRx; decide +kernel, by decide, by decide, by decide, by decide, trivial⟩,
   ⟨3, answered 6 { anOp with op := 3, left := [256], fence := some (9, 5) }, aFrame 6, aUnit, { anOp with op := 3, left := [256], fence := some (9, 5) }, 4, by decide, by decide, by decide, by decide, by decide, by unfold oldestRx; decide +kernel, by decide, by decide, by decide, by decide, trivial⟩,
   ⟨3, fabric { rx := [aFrame 17] }, aFrame 17, by decide, by decide, .relayDone 3, .inr (.inl ⟨by unfold oldestRx; decide +kernel, rfl⟩), trivial⟩,
   ⟨3, peering 16 true, peerFrame 16, by decide, 7, peerGrp true, by decide, by unfold oldestRx; decide +kernel, by decide, by decide, by decide, trivial⟩,
   ⟨3, peering 17 false, peerFrame 17, by decide, 7, peerGrp false, by decide, by unfold oldestRx; decide +kernel, by decide, trivial⟩,
   ⟨3, peering 18 true, peerFrame 18, by decide, 7, peerGrp true, by decide, by unfold oldestRx; decide +kernel, trivial⟩,
   ⟨7, peering 18 true, peerGrp true, by decide, by decide, by decide, trivial⟩,
   ⟨7, peering 18 false, peerGrp false, by decide, by decide, by decide, trivial⟩⟩

/-- Lift queue 4 of context 3 on port 3, with one entry, whose bytes are at VA 0. -/
def aLiftQ : LiftQ := { fn := 1, ctx := 3, port := 3, sh := { tail := 1, st := .active } }
def liftCells (op len1 : Byte) : List Host.Cell :=
  [(0x20000000, op), (0x20000002, 5)] ++ (if len1 = 0 then [] else [(0x20000005, len1)]) ++
    [(0x20000011, 0x10), (0x20000018, 0xFF), (0x20000019, 0xFF), (0x2000001A, 0xFF), (0x2000001B, 0xFF)]
def lifting (op len1 : Byte) (x : Port) (ops : Map LiftOp) : State :=
  { oneVd with mem := { hbm := oneVd.mem.hbm ++ liftCells op len1 }
               talko := { devId := 2, ports := [(3, { x with st := .up })], liftqs := [(4, aLiftQ)], ops := ops, nextOp := 9 } }
def liftBytes (op len1 : Byte) : List Byte := readCells (liftCells op len1) 0x20000000 64

/-- States and operands that meet the hypotheses of every clause of LiftQueuesRun. -/
theorem wit_LiftQueuesRun :
    (∃ (q : Fin 1536) (s : State) (x : LiftQ) (b : List Byte), (liftHead s q.val x b) ∧ (fieldAt b 0 1 = 1) ∧ ∃ tg, (unitTags (s.port x.port) (fieldAt b 4 4 / 256) = some tg) ∧ True) ∧
    (∃ (q : Fin 1536) (s : State) (x : LiftQ) (b : List Byte), (liftHead s q.val x b) ∧ (fieldAt b 0 1 = 1) ∧ (unitTags (s.port x.port) (fieldAt b 4 4 / 256) = none) ∧ True) ∧
    (∃ (q : Fin 1536) (s : State) (x : LiftQ) (b : List Byte), (liftHead s q.val x b) ∧ (fieldAt b 0 1 = 2) ∧ (∃ d, readVa s x.fn x.ctx (fieldAt b 16 8) (fieldAt b 4 4) = .ok (d, none)) ∧ True) ∧
    (∃ (q : Fin 1536) (s : State) (x : LiftQ) (b : List Byte), (liftHead s q.val x b) ∧ (fieldAt b 0 1 = 3) ∧ (∀ o ∈ s.talko.ops, ¬(o.1 < s.talko.nextOp ∧ o.2.owner = .queue q.val ∧ o.2.op = 2)) ∧ True) ∧
    (∃ (q : Fin 1536) (s : State) (x : LiftQ) (b : List Byte), (liftHead s q.val x b) ∧ (fieldAt b 0 1 = 3) ∧ (∃ o ∈ s.talko.ops, o.1 < s.talko.nextOp ∧ o.2.owner = .queue q.val ∧ o.2.op = 2) ∧ True) ∧
    (∃ (p : PortId) (s : State) (n : Nat) (o : LiftOp) (tg : Nat), (s.talko.ops.filter (fun o => o.2.port = p.val ∧ o.2.op = 1 ∧ o.2.waiting) = [(n, o)]) ∧ (look s.talko.ops n = some o) ∧ (o.failed = none) ∧ (o.next < o.len) ∧ (o.len ≤ o.next + 65536) ∧ (unitTags (s.port p.val) ((o.len - o.next) / 256) = some tg) ∧ True) ∧
    (∃ (p : PortId) (tag : W32) (s : State) (u : UnitRef) (o : LiftOp) (k : Nat), (look s.talko.ops u.op = some o) ∧ (o.owner = .queue k) ∧ (s.ready = []) ∧ (look (s.port p.val).writes tag.toNat = some u) ∧ (o.failed = none) ∧ (o.left.erase u.off ≠ []) ∧ True) ∧
    (∃ (p : PortId) (tag : W32) (s : State) (u : UnitRef) (o : LiftOp) (k : Nat), (look s.talko.ops u.op = some o) ∧ (o.owner = .queue k) ∧ (s.ready = []) ∧ (look (s.port p.val).reads tag.toNat = some u) ∧ True) :=
  ⟨⟨4, lifting 1 2 {} [], aLiftQ, liftBytes 1 2, ⟨by decide, by decide, by decide, by decide, by decide, by decide, ok_of _ _ (by decide +kernel), by decide +kernel, by decide, by decide, by decide⟩, by decide, 0, by decide +kernel, trivial⟩,
   ⟨4, lifting 1 2 { reads := (List.range 4095).map (fun i => (i, {})) } [], aLiftQ, liftBytes 1 2, ⟨by decide, by decide, by decide, by decide, by decide, by decide, ok_of _ _ (by decide +kernel), by decide +kernel, by decide, by decide, by decide⟩, by decide, by decide +kernel, trivial⟩,
   ⟨4, lifting 2 1 {} [], aLiftQ, liftBytes 2 1, ⟨by decide, by decide, by decide, by decide, by decide, by decide, ok_of _ _ (by decide +kernel), by decide +kernel, by decide, by decide, by decide⟩, by decide, ⟨_, ok_of _ (List.replicate 256 0, none) (by decide +kernel)⟩, trivial⟩,
   ⟨4, lifting 3 0 {} [], aLiftQ, liftBytes 3 0, ⟨by decide, by decide, by decide, by decide, by decide, by decide, ok_of _ _ (by decide +kernel), by decide +kernel, by decide, by decide, by decide⟩, by decide, by decide, trivial⟩,
   ⟨4, lifting 3 0 {} [(8, { anOp with op := 2 })], aLiftQ, liftBytes 3 0, ⟨by decide, by decide, by decide, by decide, by decide, by decide, ok_of _ _ (by decide +kernel), by decide +kernel, by decide, by decide, by decide⟩, by decide, by decide, trivial⟩,
   ⟨3, answered 1 { anOp with next := 256, left := [0], waiting := true }, 1, { anOp with next := 256, left := [0], waiting := true }, 0, by decide, by decide, by decide, by decide, by decide, by decide +kernel, trivial⟩,
   ⟨3, 7, answered 4 { anOp with op := 2 }, aUnit, { anOp with op := 2 }, 4, by decide, by decide, by decide, by decide, by decide, by decide, trivial⟩,
   ⟨3, 7, answered 4 anOp, aUnit, anOp, 4, by decide, by decide, by decide, by decide, trivial⟩⟩

/-- A PARK message of device 5 about record 65, a sequence of service 2 of VD 1, in port 3's buffer. -/
def parkFrame (op epoch newEpoch other : Nat) : Frame :=
  { type := 32, src := 5, dst := 2
    payload := natLe 1 op ++ natLe 7 0 ++ natLe 8 65 ++ natLe 8 0x77 ++ natLe 4 epoch ++ natLe 4 newEpoch ++ natLe 2 other ++ natLe 6 0 ++ natLe 8 0x4000 ++ natLe 8 0 }
def aPark : ParkRec := { svc := 2, seq := 0, pool := 5, port := 3, epoch := 1 }
def parkedSeq : Seq := { req := { qp := 8, maxNew := 9 }, slot := some 0, toks := [1, 0, 1], st := .parked }
def parking (r : ParkRec) (f : Frame) (q : Seq) (retain : Bool) : State :=
  let s := fabric { rx := [f] }
  { s with gfe := { parks := [(65, r)], services := [(2, { reqSvc with seqs := [(0, q)] })], qps := [(8, { reqQp with retain := retain })] } }

/-- States and operands that meet the hypotheses of every clause of ParkingKeepsOneOwner. -/
theorem wit_ParkingKeepsOneOwner :
    (∃ (p : PortId) (s : State) (f : Frame) (r : ParkRec), let m := parkMsgOf f
    (parkIn s p.val 2 f r) ∧ (r.st = .parking) ∧ (r.pool = m.src) ∧ (r.epoch = m.epoch) ∧ (m.result = 0) ∧ let r' := { r with handle := m.handle, addr := m.addr }
    let s1 := { popped s p.val f with gfe := { s.gfe with parks := put s.gfe.parks m.key r' } }
    ∃ x q d, (parkSeq s1 r' = some (x, q)) ∧ (parkData s1 x q = some d) ∧ (d ≠ []) ∧ ((s1.port r.port).st = .up) ∧ True) ∧
    (∃ (p : PortId) (s : State) (f : Frame) (r : ParkRec), let m := parkMsgOf f
    (parkIn s p.val 4 f r) ∧ (r.st = .parking) ∧ (r.pool = m.src) ∧ (r.epoch = m.epoch) ∧ (m.result = 0) ∧ True) ∧
    (∃ (p : PortId) (s : State) (f : Frame) (r : ParkRec), let m := parkMsgOf f
    (parkIn s p.val 6 f r) ∧ (r.st = .restoring) ∧ (r.pool = m.src) ∧ (r.epoch = m.epoch) ∧ (m.result = 0) ∧ ∃ x q, (parkSeq s r = some (x, q)) ∧ (q.pages ≠ []) ∧ (x.d.pageBytes ≠ 0) ∧ ((s.port r.port).st = .up) ∧ True) ∧
    (∃ (p : PortId) (s : State) (f : Frame) (r : ParkRec), let m := parkMsgOf f
    (parkIn s p.val 8 f r) ∧ (r.st = .parked) ∧ (r.pool = m.src) ∧ (r.handle = m.handle) ∧ True) ∧
    (∃ (p : PortId) (s : State) (f : Frame) (r : ParkRec), let m := parkMsgOf f
    (parkIn s p.val 10 f r) ∧ (r.st = .transferring) ∧ (r.nextPool = m.src) ∧ (r.epoch = m.newEpoch) ∧ True) ∧
    (∃ (p : PortId) (s : State) (f : Frame) (r : ParkRec), let m := parkMsgOf f
    (parkIn s p.val 11 f r) ∧ (r.pool = m.src ∨ r.pool = m.other) ∧ True) ∧
    (∃ (key : W64) (s : State) (r : ParkRec) (x : Service) (q : Seq), (look s.gfe.parks key.toNat = some r) ∧ (r.st = .restoring) ∧ (s.ready = []) ∧ (parkSeq s r = some (x, q)) ∧ (seqRetains s q = true) ∧ True) :=
  ⟨⟨3, parking aPark (parkFrame 2 1 0 0) parkedSeq false, parkFrame 2 1 0 0, aPark, by unfold parkIn; decide +kernel, by decide, by decide, by decide, by decide, { reqSvc with seqs := [(0, parkedSeq)] }, parkedSeq, List.replicate 12 0, by decide +kernel, by decide +kernel, by decide, by decide, trivial⟩,
   ⟨3, parking aPark (parkFrame 4 1 0 0) parkedSeq false, parkFrame 4 1 0 0, aPark, by unfold parkIn; decide +kernel, by decide, by decide, by decide, by decide, trivial⟩,
   ⟨3, parking { aPark with st := .restoring } (parkFrame 6 1 0 0) { parkedSeq with pages := [1] } false, parkFrame 6 1 0 0, { aPark with st := .restoring }, by unfold parkIn; decide +kernel, by decide, by decide, by decide, by decide, { reqSvc with seqs := [(0, { parkedSeq with pages := [1] })] }, { parkedSeq with pages := [1] }, by decide, by decide, by decide, by decide, trivial⟩,
   ⟨3, parking { aPark with st := .parked, handle := 0x77 } (parkFrame 8 1 0 6) parkedSeq false, parkFrame 8 1 0 6, { aPark with st := .parked, handle := 0x77 }, by unfold parkIn; decide +kernel, by decide, by decide, by decide, trivial⟩,
   ⟨3, parking { aPark with st := .transferring, pool := 6, nextPool := 5, epoch := 2 } (parkFrame 10 1 2 6) parkedSeq false, parkFrame 10 1 2 6, { aPark with st := .transferring, pool := 6, nextPool := 5, epoch := 2 }, by unfold parkIn; decide +kernel, by decide, by decide, by decide, trivial⟩,
   ⟨3, parking { aPark with st := .parked, pool := 6 } (parkFrame 11 1 2 6) parkedSeq false, parkFrame 11 1 2 6, { aPark with st := .parked, pool := 6 }, by unfold parkIn; decide +kernel, by decide, trivial⟩,
   ⟨65, parking { aPark with st := .restoring } (parkFrame 5 1 2 6) parkedSeq true, { aPark with st := .restoring }, { reqSvc with seqs := [(0, parkedSeq)] }, parkedSeq, by decide, by decide, by decide, by decide, by decide, trivial⟩⟩

/-- The booted device with a request of function 0 in its DOE mailbox. -/
def asks (s : State) (m : List Byte) : State :=
  { s with
    boot := { s.boot with running := true, done := [4], halted := false, ready := true }
    pcie := { fns := [(0, { vfEn := true, numVfs := 3, doe := { dunir := some m } })] } }
/-- A WRITE of an object, and a composition request of 64 bytes with some fields. -/
def writeMsg (idx sub row : Nat) (data : List Byte) : List Byte :=
  [0x11, 2, 0, 0, 7, 0] ++ natLe 2 idx ++ natLe 1 sub ++ [0] ++ natLe 2 data.length ++ natLe 4 row ++ data
def compMsg (op : Nat) (fs : List (Nat × Nat × Nat)) : List Byte :=
  writeMsg 0x2000 1 0 (fs.foldl (fun b f => pokeB b f.1 (natLe f.2.1 f.2.2)) (natLe 1 op ++ List.replicate 63 0))
/-- The request that the DOE mailbox holds. -/
def asked0 (m : List Byte) : DReq := parseReq (.doe 0) m
def duOkay (s : State) (q : DReq) (row : Nat) : Bool :=
  decide (rowOf q = row) && duServed s (.doe 0) && (keptRsp s q).isNone && (match preCheck s q with | .ok (some _) => true | _ => false)

theorem duAsked_of (s : State) (m : List Byte) (row : Nat) (h : duOkay (asks s m) (asked0 m) row = true) :
    duAsked (asks s m) (asks s m) (.doe 0) row (asked0 m) := by
  simp only [duOkay, Bool.and_eq_true, decide_eq_true_eq, Option.isNone_iff_eq_none] at h
  refine ⟨⟨m, rfl, rfl⟩, h.1.1.1, h.1.1.2, h.1.2, ?_⟩
  revert h
  cases hp : preCheck (asks s m) (asked0 m) with
  | error e => simp
  | ok o => cases o <;> simp

theorem compAsked_of (s : State) (m : List Byte) (op : Nat) (used : List (Nat × Nat))
    (h : (duOkay (asks s m) (asked0 m) (0x200001 * 256 + op) && unusedZero (asked0 m).data used && !s.net.unroutable) = true) :
    compAsked (asks s m) (asks s m) (.doe 0) op used (asked0 m) := by
  simp only [Bool.and_eq_true, Bool.not_eq_true'] at h
  exact ⟨duAsked_of s m _ h.1.1, h.1.2, h.2⟩
/-- A pool with every unit ready and one slice. -/
def poolOf (x : Slice) : Pool :=
  { cgReady := 0xFFFFFFFFFFFF, pairReady := 0xFFFFFFFFFFFFFFFF, portAside := 0, slices := [(0, x)] }
def poolVd (x : Slice) (r : Option OpenReq) : State :=
  { pool := poolOf x, cmp := { vds := [(1, { live := true, tag := 5, req := r }), (2, { live := true, tag := 6 })] } }
def carveMsg : List Byte := compMsg 1 [(8, 8, 2 ^ 47 + 1), (16, 8, 2 ^ 63), (24, 4, 2 ^ 23)]
def shareMsg : List Byte := compMsg 10 [(40, 1, 1), (41, 2, 1), (43, 1, 2), (44, 2, 1000)]
def laneMsg : List Byte := compMsg 8 [(2, 1, 1), (6, 1, 15), (8, 8, 3)]

/-- States and operands that meet the hypotheses of every clause of SlicesSharesAndLanes. -/
theorem wit_SlicesSharesAndLanes :
    (∃ (src : DSrc) (s s0 : State) (q : DReq), let b := q.data
    (compAsked s s0 src 1 [(1, 1), (8, 8), (16, 8), (24, 4)] q) ∧ ∃ k, (fieldAt b 1 1 ≤ 1) ∧ (fieldAt b 8 8 < 2 ^ 48) ∧ (fieldAt b 24 4 < 2 ^ 24) ∧ (¬(fieldAt b 8 8 = 0 ∧ fieldAt b 16 8 = 0 ∧ fieldAt b 24 4 = 0)) ∧ (fieldAt b 1 1 = 1 → fieldAt b 16 8 = 0 ∧ fieldAt b 24 4 = 0) ∧ (∀ g ∈ bitsOf 48 (fieldAt b 8 8), cgFree s0 g = true) ∧ (∀ p ∈ bitsOf 64 (fieldAt b 16 8), pairFree s0 p = true) ∧ (∀ p ∈ bitsOf 24 (fieldAt b 24 4), portFree s0 p = true) ∧ (lowestFree s0.pool.slices 0 128 = some k) ∧ True) ∧
    (∃ (src : DSrc) (s s0 : State) (q : DReq), let b := q.data
    (compAsked s s0 src 2 [(3, 1)] q) ∧ ∃ x, (look s0.pool.slices (fieldAt b 3 1) = some x) ∧ (x.st = .carved ∨ ∃ v, x.st = .marked v) ∧ (sliceBusy s0 (fieldAt b 3 1) = false) ∧ (x.pairs = 0) ∧ True) ∧
    (∃ (src : DSrc) (s s0 : State) (q : DReq), let b := q.data
    (compAsked s s0 src 2 [(3, 1)] q) ∧ ∃ x, (look s0.pool.slices (fieldAt b 3 1) = some x) ∧ (x.st = .carved ∨ ∃ v, x.st = .marked v) ∧ (sliceBusy s0 (fieldAt b 3 1) = false) ∧ (x.pairs ≠ 0) ∧ True) ∧
    (∃ (src : DSrc) (s s0 : State) (q : DReq), let b := q.data
    (compAsked s s0 src 10 [(3, 1), (40, 24)] q) ∧ let g := (List.range 8).map (fun n => (fieldAt b (40 + 3 * n) 1, fieldAt b (41 + 3 * n) 2))
    let used := g.filter (fun p => p.1 ≠ 0)
    (∀ p ∈ g, if p.1 = 0 then p.2 = 0 else p.1 ≤ 63 ∧ 1 ≤ p.2 ∧ p.2 ≤ 1000 ∧ (s0.vd p.1).live = true ∧ (s0.vd p.1).teardown = false) ∧ ((used.map (·.1)).Nodup) ∧ (2 ≤ used.length) ∧ ∃ x, (fieldAt b 3 1 ≤ 127) ∧ (look s0.pool.slices (fieldAt b 3 1) = some x) ∧ (x.isShared = true) ∧ (x.st = .carved) ∧ True) ∧
    (∃ (src : DSrc) (s s0 : State) (q : DReq), let b := q.data
    (compAsked s s0 src 10 [(3, 1), (40, 24)] q) ∧ let g := (List.range 8).map (fun n => (fieldAt b (40 + 3 * n) 1, fieldAt b (41 + 3 * n) 2))
    let used := g.filter (fun p => p.1 ≠ 0)
    (∀ p ∈ g, if p.1 = 0 then p.2 = 0 else p.1 ≤ 63 ∧ 1 ≤ p.2 ∧ p.2 ≤ 1000 ∧ (s0.vd p.1).live = true ∧ (s0.vd p.1).teardown = false) ∧ ((used.map (·.1)).Nodup) ∧ (2 ≤ used.length) ∧ ∃ x, (fieldAt b 3 1 ≤ 127) ∧ (look s0.pool.slices (fieldAt b 3 1) = some x) ∧ (x.isShared = true) ∧ ∃ v n, (x.st = .shared) ∧ (x.group[x.holder]? = some (v, n)) ∧ (vdQuiet s0 v = false) ∧ True) ∧
    (∃ (src : DSrc) (s s0 : State) (q : DReq), let b := q.data
    (compAsked s s0 src 8 [(2, 1), (6, 1), (8, 8)] q) ∧ let v := fieldAt b 2 1
    let lane := fieldAt b 6 1
    let cgs := fieldAt b 8 8
    (v ≤ 63) ∧ (lane ≤ 15) ∧ (cgs < 2 ^ 48) ∧ (vdReady s0 v = none) ∧ (laneFits s0 v lane cgs) ∧ (vdQuiet s0 v = false) ∧ True) ∧
    (∃ (src : DSrc) (s s0 : State) (q : DReq), let b := q.data
    (compAsked s s0 src 8 [(2, 1), (6, 1), (8, 8)] q) ∧ let v := fieldAt b 2 1
    let lane := fieldAt b 6 1
    let cgs := fieldAt b 8 8
    (v ≤ 63) ∧ (lane ≤ 15) ∧ (cgs < 2 ^ 48) ∧ (vdReady s0 v = none) ∧ (laneFits s0 v lane cgs) ∧ (vdQuiet s0 v = true) ∧ (s.ready = []) ∧ True) ∧
    (∃ (src : DSrc) (s s0 : State) (q : DReq), let b := q.data
    (compAsked s s0 src 9 [(4, 3)] q) ∧ let n := fieldAt b 4 2
    let lane := fieldAt b 6 1
    ∃ x, (s0.qp? n = some x) ∧ (lane = 0xFF ∨ lane ≤ 15 ∧ has (s0.vd x.fn).lanes lane = true) ∧ (∀ p ∈ svcQps s0 x.service, p.1 ≠ n → p.2.laneNext.getD p.2.lane = lane) ∧ True) ∧
    (∃ (k : Fin 128) (s : State) (x : Slice), (look s.pool.slices k.val = some x) ∧ (x.st = .shared) ∧ True) :=
  ⟨⟨.doe 0, asks { pool := { poolOf {} with slices := [] } } carveMsg, asks { pool := { poolOf {} with slices := [] } } carveMsg, asked0 carveMsg, compAsked_of _ _ _ _ (by decide +kernel), 0, by decide, by decide, by decide, by decide, by decide, by decide, by decide, by decide, by decide, trivial⟩,
   ⟨.doe 0, asks (poolVd { cgs := 1 } none) (compMsg 2 []), asks (poolVd { cgs := 1 } none) (compMsg 2 []), asked0 (compMsg 2 []), compAsked_of _ _ _ _ (by decide +kernel), { cgs := 1 }, by decide, .inl rfl, by decide, by decide, trivial⟩,
   ⟨.doe 0, asks (poolVd { cgs := 1, pairs := 3, st := .marked 1 } none) (compMsg 2 []), asks (poolVd { cgs := 1, pairs := 3, st := .marked 1 } none) (compMsg 2 []), asked0 (compMsg 2 []), compAsked_of _ _ _ _ (by decide +kernel), { cgs := 1, pairs := 3, st := .marked 1 }, by decide, .inr ⟨1, rfl⟩, by decide, by decide, trivial⟩,
   ⟨.doe 0, asks (poolVd { cgs := 1, isShared := true } none) shareMsg, asks (poolVd { cgs := 1, isShared := true } none) shareMsg, asked0 shareMsg, compAsked_of _ _ _ _ (by decide +kernel), by decide, by decide, by decide, { cgs := 1, isShared := true }, by decide, by decide, by decide, by decide, trivial⟩,
   ⟨.doe 0, asks { poolVd sharedSlice none with gfe := { launches := [(9, oneLaunch)] } } shareMsg, asks { poolVd sharedSlice none with gfe := { launches := [(9, oneLaunch)] } } shareMsg, asked0 shareMsg, compAsked_of _ _ _ _ (by decide +kernel), by decide, by decide, by decide, sharedSlice, by decide, by decide, by decide, 1, 10, by decide, by decide, by decide, trivial⟩,
   ⟨.doe 0, asks { poolVd { cgs := 7, st := .bound 1 } none with gfe := { launches := [(9, oneLaunch)] } } laneMsg, asks { poolVd { cgs := 7, st := .bound 1 } none with gfe := { launches := [(9, oneLaunch)] } } laneMsg, asked0 laneMsg, compAsked_of _ _ _ _ (by decide +kernel), by decide, by decide, by decide, by decide, by unfold laneFits; decide +kernel, by decide, trivial⟩,
   ⟨.doe 0, asks (poolVd { cgs := 7, st := .bound 1 } none) laneMsg, asks (poolVd { cgs := 7, st := .bound 1 } none) laneMsg, asked0 laneMsg, compAsked_of _ _ _ _ (by decide +kernel), by decide, by decide, by decide, by decide, by unfold laneFits; decide +kernel, by decide, by decide, trivial⟩,
   ⟨.doe 0, asks (batchState { reqSvc with st := .run }) (compMsg 9 [(4, 2, 8), (6, 1, 0xFF)]), asks (batchState { reqSvc with st := .run }) (compMsg 9 [(4, 2, 8), (6, 1, 0xFF)]), asked0 (compMsg 9 [(4, 2, 8), (6, 1, 0xFF)]), compAsked_of _ _ _ _ (by decide +kernel), reqQp, by decide, by decide, by decide, trivial⟩,
   ⟨0, poolVd sharedSlice none, sharedSlice, by decide, by decide, trivial⟩⟩

def newVdMsg : List Byte := compMsg 3 [(2, 1, 1)]
def chainVd : State :=
  { pool := poolOf { cgs := 1 }, sec := { rootOk := true }, chains := [(1, { sizeLog2 := 12, dpa := 0x10000 })] }

/-- States and operands that meet the hypotheses of every clause of VirtualDevicesComeAndGo. -/
theorem wit_VirtualDevicesComeAndGo :
    (∃ (src : DSrc) (s s0 : State) (q : DReq), (s.ready = []) ∧ let b := q.data
    let v := fieldAt b 2 1
    (compAsked s s0 src 3 [(1, 1), (2, 1)] q) ∧ ∃ s1, (1 ≤ v) ∧ (v ≤ 63) ∧ (fieldAt b 1 1 = 0 ∨ fieldAt b 1 1 = 2) ∧ (vfOn s0 v = true) ∧ ((s0.vd v).live = false) ∧ (postureOk s0 (fieldAt b 1 1 = 2) = true) ∧ ((s0.chain v).sizeLog2 ≠ 0) ∧ (fieldAt b 1 1 = 2 → (freePool s0).isSome = true) ∧ (canKey s0 = true) ∧ (createVdNow s0 v (fieldAt b 1 1 = 2) = some s1) ∧ True) ∧
    (∃ (src : DSrc) (s s0 : State) (q : DReq), (s.ready = []) ∧ let b := q.data
    let v := fieldAt b 2 1
    (compAsked s s0 src 4 [(2, 1)] q) ∧ (1 ≤ v) ∧ (v ≤ 63) ∧ ((s0.vd v).live = true) ∧ ((s0.vd v).teardown = false) ∧ ((s0.vd v).posture = none) ∧ ((s0.vd v).req = none) ∧ True) ∧
    (∃ (src : DSrc) (s s0 : State) (q : DReq), (s.ready = []) ∧ let b := q.data
    let v := fieldAt b 2 1
    let k := fieldAt b 3 1
    let w0 := fieldAt b 28 2
    let w1 := fieldAt b 30 2
    (compAsked s s0 src 5 [(2, 2), (28, 4)] q) ∧ ∃ x, (v ≤ 63) ∧ (k ≤ 127) ∧ (vdReady s0 v = none) ∧ (look s0.pool.slices k = some x) ∧ (x.st = .carved ∨ x.st = .marked v) ∧ (sliceBusy s0 k = false) ∧ (x.isShared = false) ∧ (sparesFor (s0.vdCgs v ++ sliceCgs s0 x).length ≤ ((s0.vdCgs v ++ sliceCgs s0 x).filter (fun g => (s0.cgLane v g).isNone && !s0.cgShared g)).length) ∧ (¬(classOf (s0.vdCgs v ++ sliceCgs s0 x).length = 3 ∧ unmirrored s0 v = true)) ∧ (waysOk s0 v (s0.vdPairs v ++ bitsOf 64 x.pairs.toNat) w0 w1 = true) ∧ True) ∧
    (∃ (src : DSrc) (s s0 : State) (q : DReq), (s.ready = []) ∧ let b := q.data
    let v := fieldAt b 2 1
    let k := fieldAt b 3 1
    let w0 := fieldAt b 28 2
    let w1 := fieldAt b 30 2
    (compAsked s s0 src 6 [(2, 2), (28, 8)] q) ∧ ∃ x, (v ≤ 63) ∧ (k ≤ 127) ∧ (1 ≤ fieldAt b 32 4) ∧ (fieldAt b 32 4 ≤ 600000) ∧ (vdReady s0 v = none) ∧ (look s0.pool.slices k = some x) ∧ (x.st = .bound v) ∧ (unbindClassOk s0 v x = true) ∧ (∀ g ∈ bitsOf 48 x.cgs.toNat, s0.cgLane v g = none) ∧ (waysOk s0 v ((s0.vdPairs v).filter (fun p => !pairBit x.pairs p)) w0 w1 = true) ∧ True) ∧
    (∃ (src : DSrc) (s s0 : State) (q : DReq), (s.ready = []) ∧ let b := q.data
    let v := fieldAt b 2 1
    (compAsked s s0 src 7 [(2, 1)] q) ∧ ∃ r, (v ≤ 63) ∧ ((s0.vd v).req = some r) ∧ (r.op = 6) ∧ (r.stage ≠ .held) ∧ True) :=
  ⟨⟨.doe 0, asks chainVd newVdMsg, asks chainVd newVdMsg, asked0 newVdMsg, by decide, compAsked_of _ _ _ _ (by decide +kernel), (createVdNow (asks chainVd newVdMsg) 1 false).getD {}, by decide, by decide, by decide, by decide, by decide, by decide, by decide, by decide, by decide, some_getD _ _ (by decide +kernel), trivial⟩,
   ⟨.doe 0, asks (poolVd { cgs := 1 } none) (compMsg 4 [(2, 1, 1)]), asks (poolVd { cgs := 1 } none) (compMsg 4 [(2, 1, 1)]), asked0 (compMsg 4 [(2, 1, 1)]), by decide, compAsked_of _ _ _ _ (by decide +kernel), by decide, by decide, by decide, by decide, by decide, by decide, trivial⟩,
   ⟨.doe 0, asks (poolVd { cgs := 15, pairs := 1 } none) (compMsg 5 [(2, 1, 1), (28, 2, 1)]), asks (poolVd { cgs := 15, pairs := 1 } none) (compMsg 5 [(2, 1, 1), (28, 2, 1)]), asked0 (compMsg 5 [(2, 1, 1), (28, 2, 1)]), by decide, compAsked_of _ _ _ _ (by decide +kernel), { cgs := 15, pairs := 1 }, by decide, by decide, by decide, by decide, by decide, by decide, by decide, by decide +kernel, by decide +kernel, by decide +kernel, trivial⟩,
   ⟨.doe 0, asks { poolVd { cgs := 2, pairs := 1, st := .bound 1 } none with pool := { poolOf { cgs := 2, pairs := 1, st := .bound 1 } with slices := [(0, { cgs := 2, pairs := 1, st := .bound 1 }), (1, { cgs := 4, pairs := 2, st := .bound 1 })] } } (compMsg 6 [(2, 1, 1), (28, 2, 1), (32, 4, 600000)]), asks { poolVd { cgs := 2, pairs := 1, st := .bound 1 } none with pool := { poolOf { cgs := 2, pairs := 1, st := .bound 1 } with slices := [(0, { cgs := 2, pairs := 1, st := .bound 1 }), (1, { cgs := 4, pairs := 2, st := .bound 1 })] } } (compMsg 6 [(2, 1, 1), (28, 2, 1), (32, 4, 600000)]), asked0 (compMsg 6 [(2, 1, 1), (28, 2, 1), (32, 4, 600000)]), by decide, compAsked_of _ _ _ _ (by decide +kernel), { cgs := 2, pairs := 1, st := .bound 1 }, by decide, by decide, by decide, by decide, by decide, by decide, by decide, by decide +kernel, by decide +kernel, by decide +kernel, trivial⟩,
   ⟨.doe 0, asks (poolVd { cgs := 1, st := .bound 1 } (some { op := 6, stage := .compute })) (compMsg 7 [(2, 1, 1)]), asks (poolVd { cgs := 1, st := .bound 1 } (some { op := 6, stage := .compute })) (compMsg 7 [(2, 1, 1)]), asked0 (compMsg 7 [(2, 1, 1)]), by decide, compAsked_of _ _ _ _ (by decide +kernel), { op := 6, stage := .compute }, by decide, by decide, by decide, by decide, trivial⟩⟩

/-- VD 1 has cores of slice 1, and an open request about slice 0. -/
def changing (x : Slice) (r : OpenReq) : State :=
  let s := poolVd x (some r)
  { s with pool := { s.pool with slices := [(0, x), (1, { cgs := 4, pairs := 2, st := .bound 1 })] }, boot := { ready := true }
           pcie := { fns := [(0, { vfEn := true, numVfs := 3 })] } }
def boundSlice : Slice := { cgs := 1, pairs := 1, ports := 1, st := .bound 1 }

/-- States and operands that meet the hypotheses of every clause of CompositionEventsApply. -/
theorem wit_CompositionEventsApply :
    (∃ (v : VdId) (s : State) (r : OpenReq), ((s.vd v.val).req = some r) ∧ (s.ready = []) ∧ ∃ good x, (r.op = 5) ∧ (look s.pool.slices r.slice = some x) ∧ (vdQuiet s v.val = true) ∧ (vdHung s v.val = false) ∧ (slicePairs s x = [] ∨ (useSlotKey s (seedSlot v.val) good).2 = true ∧ (useSlotKey s (seedSlot v.val) good).1.sec.tableFault = false) ∧ True) ∧
    (∃ (v : VdId) (s : State) (r : OpenReq), ((s.vd v.val).req = some r) ∧ (s.ready = []) ∧ (r.op = 6) ∧ (r.stage = .memory) ∧ (fnOpen s v.val = true) ∧ True) ∧
    (∃ (v : VdId) (s : State) (r : OpenReq), ((s.vd v.val).req = some r) ∧ (s.ready = []) ∧ (r.op = 6) ∧ (r.stage = .memory) ∧ True) ∧
    (∃ (v : VdId) (s : State) (r : OpenReq), ((s.vd v.val).req = some r) ∧ (s.ready = []) ∧ ∃ x, (r.op = 6) ∧ (r.stage = .compute) ∧ (vdQuiet s v.val = true) ∧ (vdHung s v.val = false) ∧ (look s.pool.slices r.slice = some x) ∧ (unbindClassOk s v.val x = true) ∧ (tasksOn s (leavingCgs s v.val) = []) ∧ True) ∧
    (∃ (v : VdId) (s : State) (r : OpenReq), ((s.vd v.val).req = some r) ∧ (s.ready = []) ∧ (r.op = 6) ∧ (r.stage = .held) ∧ (tasksOn s (leavingCgs s v.val) ≠ []) ∧ True) ∧
    (∃ (v : VdId) (s : State) (r : OpenReq), ((s.vd v.val).req = some r) ∧ (s.ready = []) ∧ ∃ x, (r.op = 6) ∧ (r.stage = .held) ∧ (look s.pool.slices r.slice = some x) ∧ (tasksOn s (leavingCgs s v.val) = []) ∧ (∀ o ∈ s.talko.ops, portBit x.ports o.2.port = false) ∧ True) ∧
    (∃ (g : CgId) (_lost : List LineId) (s : State), (cgBit s.pool.cgFenced g.val = false) ∧ (cgBit s.pool.cgReady g.val = true) ∧ True) ∧
    (∃ s : State, (sortedKeys s.cmp.vds = true) ∧ (s.ready = []) ∧ True) :=
  ⟨⟨1, changing { boundSlice with st := .marked 1 } { op := 5, stage := .compute }, { op := 5, stage := .compute }, by decide, by decide, true, { boundSlice with st := .marked 1 }, by decide, by decide, by decide, by decide, .inr (by decide +kernel), trivial⟩,
   ⟨1, changing boundSlice { op := 6, stage := .memory }, { op := 6, stage := .memory }, by decide, by decide, by decide, by decide, by decide, trivial⟩,
   ⟨1, changing boundSlice { op := 6, stage := .memory }, { op := 6, stage := .memory }, by decide, by decide, by decide, by decide, trivial⟩,
   ⟨1, changing boundSlice { op := 6, stage := .compute }, { op := 6, stage := .compute }, by decide, by decide, boundSlice, by decide, by decide, by decide, by decide +kernel, by decide, by decide +kernel, by decide, trivial⟩,
   ⟨1, { changing boundSlice { op := 6, stage := .held } with gfe := { tasks := [(6, aTask)] } }, { op := 6, stage := .held }, by decide, by decide, by decide, by decide, by decide, trivial⟩,
   ⟨1, changing boundSlice { op := 6, stage := .held }, { op := 6, stage := .held }, by decide, by decide, boundSlice, by decide, by decide, by decide, by decide, by decide, trivial⟩,
   ⟨47, [], poolVd { cgs := 1 } none, by decide, by decide, trivial⟩,
   ⟨poolVd { cgs := 1 } none, by decide, by decide, trivial⟩⟩

/-- Every kind of endpoint of VF 1 and context 3, on the pages 16 to 20. -/
def bell (x : Shake) : State :=
  { openVd with
    gfe := { admins := [(1, { fn := 1, sh := x })], rings := [(4, { fn := 1, ctx := 3, sh := x })], qps := [(8, { reqQp with sh := x })],
             wqs := [(4, { aWq with sh := x, task := some 6 })], tasks := [(6, aTask)],
             pages := [(4112, .ringSq 4), (4113, .ringCq 4), (4114, .qpReq 8), (4115, .qpRsp 8), (4116, .liftq 4), (4117, .wq 4)] }
    talko := { liftqs := [(4, { aLiftQ with sh := x })] } }
def upShake : Shake := { head := 5, tail := 6, st := .armed }
def errShake : Shake := { st := .error }

/-- States and operands that meet the hypotheses of every clause of DoorbellsReachEndpoints. -/
theorem wit_DoorbellsReachEndpoints :
    (∃ (f : FnId) (page off : Fin 4096) (v : W32) (s : State), (fnOpen s f.val = false) ∧ True) ∧
    (∃ (f : FnId) (page off : Fin 4096) (v : W32) (s : State), (fnOpen s f.val = true) ∧ ((s.fn f.val).resetting = true ∨ page.val = 0 ∨ (3 ≤ page.val ∧ page.val < 16)) ∧ True) ∧
    (∃ (f : FnId) (page off : Fin 4096) (v : W32) (s : State), (rung s f page) ∧ ((s.vd f.val).live = false ∨ off.val ≠ 0 ∨ (page.val ≤ 2 ∧ s.ring? (.admin f.val) = none) ∨ (16 ≤ page.val ∧ ∀ e, look s.gfe.pages (f.val * 4096 + page.val) = some e → epLive s f.val e = false)) ∧ True) ∧
    (∃ (f : FnId) (page : Fin 4096) (v : W32) (s : State) (r : RingRef) (x : Ring), (s.ring? r = some x) ∧ (ringPage s f page false r) ∧ (x.sh.st = .error) ∧ True) ∧
    (∃ (f : FnId) (page : Fin 4096) (v : W32) (s : State) (r : RingRef) (x : Ring), (s.ring? r = some x) ∧ (ringPage s f page false r) ∧ (x.sh.st ≠ .error) ∧ (fitsRing x.sh x.sqLog2 v.toNat) ∧ True) ∧
    (∃ (f : FnId) (page : Fin 4096) (v : W32) (s : State) (r : RingRef) (x : Ring), (s.ring? r = some x) ∧ (ringPage s f page false r) ∧ (x.sh.st ≠ .error) ∧ (¬fitsRing x.sh x.sqLog2 v.toNat) ∧ True) ∧
    (∃ (f : FnId) (page : Fin 4096) (v : W32) (s : State) (r : RingRef) (x : Ring), (s.ring? r = some x) ∧ (ringPage s f page true r) ∧ True) ∧
    (∃ (f : FnId) (page : Fin 4096) (v : W32) (s : State), ∃ q x, (pageOf s f page (.qpReq q)) ∧ (s.qp? q = some x) ∧ (x.sh.st ≠ .error) ∧ (fitsRing x.sh x.reqLog2 v.toNat) ∧ True) ∧
    (∃ (f : FnId) (page : Fin 4096) (v : W32) (s : State), ∃ q x, (pageOf s f page (.qpReq q)) ∧ (s.qp? q = some x) ∧ (x.sh.st ≠ .error) ∧ (¬fitsRing x.sh x.reqLog2 v.toNat) ∧ True) ∧
    (∃ (f : FnId) (page : Fin 4096) (v : W32) (s : State), ∃ q x, (pageOf s f page (.qpRsp q)) ∧ (s.qp? q = some x) ∧ True) ∧
    (∃ (f : FnId) (page : Fin 4096) (v : W32) (s : State), ∃ q x, (pageOf s f page (.liftq q)) ∧ (s.liftq? q = some x) ∧ (x.sh.st ≠ .error) ∧ (fitsRing x.sh x.log2 v.toNat) ∧ True) ∧
    (∃ (f : FnId) (page : Fin 4096) (v : W32) (s : State), ∃ q x, (pageOf s f page (.liftq q)) ∧ (s.liftq? q = some x) ∧ (x.sh.st ≠ .error) ∧ (¬fitsRing x.sh x.log2 v.toNat) ∧ True) ∧
    (∃ (f : FnId) (page : Fin 4096) (v : W32) (s : State), ∃ w x, (pageOf s f page (.wq w)) ∧ (s.wq? w = some x) ∧ (x.sh.st ≠ .error) ∧ (fitsRing x.sh x.log2 v.toNat) ∧ True) ∧
    (∃ (f : FnId) (page : Fin 4096) (v : W32) (s : State), ∃ w x, (pageOf s f page (.wq w)) ∧ (s.wq? w = some x) ∧ (x.sh.st ≠ .error) ∧ (¬fitsRing x.sh x.log2 v.toNat) ∧ True) ∧
    (∃ (f : FnId) (page : Fin 4096) (v : W32) (s : State), ∃ w x, (pageOf s f page (.wq w)) ∧ (s.wq? w = some x) ∧ (x.sh.st ≠ .error) ∧ (¬fitsRing x.sh x.log2 v.toNat) ∧ ∃ k, (x.task = some k) ∧ True) ∧
    (∃ (f : FnId) (page : Fin 4096) (v : W32) (s : State), ∃ q x, (pageOf s f page (.qpReq q)) ∧ (s.qp? q = some x) ∧ (x.sh.st = .error) ∧ True) ∧
    (∃ (f : FnId) (page : Fin 4096) (v : W32) (s : State), ∃ q x, (pageOf s f page (.liftq q)) ∧ (s.liftq? q = some x) ∧ (x.sh.st = .error) ∧ True) ∧
    (∃ (f : FnId) (page : Fin 4096) (v : W32) (s : State), ∃ w x, (pageOf s f page (.wq w)) ∧ (s.wq? w = some x) ∧ (x.sh.st = .error) ∧ True) ∧
    (∃ (f : FnId) (sq cq : Fin 16) (vec : Fin 2048) (s : State), (fnOpen s f.val = true) ∧ let ok : Prop := 6 ≤ sq.val ∧ sq.val ≤ 12 ∧ 6 ≤ cq.val ∧ cq.val ≤ 12 ∧ vec.val ≤ vectorMax f.val
    (ok) ∧ ((s.fn f.val).gfe.en = false) ∧ True) ∧
    (∃ (f : FnId) (sq cq : Fin 16) (vec : Fin 2048) (s : State), (fnOpen s f.val = true) ∧ let ok : Prop := 6 ≤ sq.val ∧ sq.val ≤ 12 ∧ 6 ≤ cq.val ∧ cq.val ≤ 12 ∧ vec.val ≤ vectorMax f.val
    (ok) ∧ ((s.fn f.val).gfe.en = true) ∧ True) ∧
    (∃ (f : FnId) (sq cq : Fin 16) (vec : Fin 2048) (s : State), (fnOpen s f.val = true) ∧ let ok : Prop := 6 ≤ sq.val ∧ sq.val ≤ 12 ∧ 6 ≤ cq.val ∧ cq.val ≤ 12 ∧ vec.val ≤ vectorMax f.val
    (¬ok) ∧ True) :=
  ⟨⟨0, 1, 0, 7, oneVd, by decide, trivial⟩,
   ⟨1, 15, 0, 7, bell upShake, by decide, by decide, trivial⟩,
   ⟨1, 16, 4, 7, bell upShake, by unfold rung; decide, .inr (.inl (by decide)), trivial⟩,
   ⟨1, 1, 7, bell errShake, .admin 1, { fn := 1, sh := errShake }, by decide, .inl ⟨rfl, by unfold rung; decide, by decide, rfl⟩, by decide, trivial⟩,
   ⟨1, 16, 69, bell upShake, .cmd 4, { fn := 1, ctx := 3, sh := upShake }, by decide, .inr ⟨4, rfl, by unfold rung; decide, by decide, by decide, by decide, by decide⟩, by decide, by unfold fitsRing; decide, trivial⟩,
   ⟨1, 1, 70, bell upShake, .admin 1, { fn := 1, sh := upShake }, by decide, .inl ⟨rfl, by unfold rung; decide, by decide, rfl⟩, by decide, by unfold fitsRing; decide, trivial⟩,
   ⟨1, 17, 7, bell upShake, .cmd 4, { fn := 1, ctx := 3, sh := upShake }, by decide, .inr ⟨4, rfl, by unfold rung; decide, by decide, by decide, by decide, by decide⟩, trivial⟩,
   ⟨1, 18, 21, bell upShake, 8, { reqQp with sh := upShake }, ⟨by unfold rung; decide, by decide, by decide, by decide, by decide⟩, by decide, by decide, by unfold fitsRing; decide, trivial⟩,
   ⟨1, 18, 22, bell upShake, 8, { reqQp with sh := upShake }, ⟨by unfold rung; decide, by decide, by decide, by decide, by decide⟩, by decide, by decide, by unfold fitsRing; decide, trivial⟩,
   ⟨1, 19, 7, bell upShake, 8, { reqQp with sh := upShake }, ⟨by unfold rung; decide, by decide, by decide, by decide, by decide⟩, by decide, trivial⟩,
   ⟨1, 20, 21, bell upShake, 4, { aLiftQ with sh := upShake }, ⟨by unfold rung; decide, by decide, by decide, by decide, by decide⟩, by decide, by decide, by unfold fitsRing; decide, trivial⟩,
   ⟨1, 20, 22, bell upShake, 4, { aLiftQ with sh := upShake }, ⟨by unfold rung; decide, by decide, by decide, by decide, by decide⟩, by decide, by decide, by unfold fitsRing; decide, trivial⟩,
   ⟨1, 21, 21, bell upShake, 4, { aWq with sh := upShake, task := some 6 }, ⟨by unfold rung; decide, by decide, by decide, by decide, by decide⟩, by decide, by decide, by unfold fitsRing; decide, trivial⟩,
   ⟨1, 21, 22, bell upShake, 4, { aWq with sh := upShake, task := some 6 }, ⟨by unfold rung; decide, by decide, by decide, by decide, by decide⟩, by decide, by decide, by unfold fitsRing; decide, trivial⟩,
   ⟨1, 21, 22, bell upShake, 4, { aWq with sh := upShake, task := some 6 }, ⟨by unfold rung; decide, by decide, by decide, by decide, by decide⟩, by decide, by decide, by unfold fitsRing; decide, 6, by decide, trivial⟩,
   ⟨1, 18, 22, bell errShake, 8, { reqQp with sh := errShake }, ⟨by unfold rung; decide, by decide, by decide, by decide, by decide⟩, by decide, by decide, trivial⟩,
   ⟨1, 20, 22, bell errShake, 4, { aLiftQ with sh := errShake }, ⟨by unfold rung; decide, by decide, by decide, by decide, by decide⟩, by decide, by decide, trivial⟩,
   ⟨1, 21, 22, bell errShake, 4, { aWq with sh := errShake, task := some 6 }, ⟨by unfold rung; decide, by decide, by decide, by decide, by decide⟩, by decide, by decide, trivial⟩,
   ⟨1, 6, 12, 0, openVd, by decide, by decide, by decide, trivial⟩,
   ⟨1, 12, 6, 1, { openVd with fns := [(1, { gfe := { en := true } })], gfe := { admins := [(1, { fn := 1 })] } }, by decide, by decide, by decide, trivial⟩,
   ⟨1, 5, 6, 0, openVd, by decide, by decide, trivial⟩⟩

/-- Command ring 4 of context 3 at VA 0, its completions at VA 0x1000. -/
def ringing (x : Ring) : State := { openVd with gfe := { rings := [(4, x)], admins := [(1, x)] } }
def aRing : Ring := { fn := 1, ctx := 3, sqBase := 0, cqBase := 0x1000, sh := { head := 63, tail := 64, st := .active, pend := true } }
def aCqe : Cqe := { tag := 6, signal := some (9, 5) }

/-- States and operands that meet the hypotheses of every clause of RingsFetchPromoteAndPost. -/
theorem wit_RingsFetchPromoteAndPost :
    (∃ (r : RingId) (x : Ring) (s : State), (s.ring? (refOf r) = some x) ∧ ∃ b, (ringOpen s (refOf r) x = true) ∧ (x.sh.head ≠ x.sh.tail) ∧ (readEntry s (refOf r) x x.sh.head = some b) ∧ True) ∧
    (∃ (r : RingId) (x : Ring) (s : State), (s.ring? (refOf r) = some x) ∧ (ringOpen s (refOf r) x = true) ∧ (x.sh.head ≠ x.sh.tail) ∧ (readEntry s (refOf r) x x.sh.head = none) ∧ True) ∧
    (∃ (r : RingId) (x : Ring) (s : State), (s.ring? (refOf r) = some x) ∧ (x.fetched ≠ []) ∧ True) ∧
    (∃ (r : RingId) (x : Ring) (s : State), (s.ring? (refOf r) = some x) ∧ ∃ c rest, (x.waiting = c :: rest) ∧ (c.post = false) ∧ True) ∧
    (∃ (r : RingId) (x : Ring) (s : State), (s.ring? (refOf r) = some x) ∧ ∃ c rest, (x.waiting = c :: rest) ∧ (c.post = true) ∧ (¬cqRoom x) ∧ True) ∧
    (∃ (r : RingId) (x : Ring) (s : State), (s.ring? (refOf r) = some x) ∧ ∃ c rest f, (r = .admin f) ∧ (x.waiting = c :: rest) ∧ (c.post = true) ∧ (cqRoom x) ∧ True) ∧
    (∃ (r : RingId) (x : Ring) (s : State), (s.ring? (refOf r) = some x) ∧ ∃ c rest n, (r = .cmd n) ∧ (x.waiting = c :: rest) ∧ (c.post = true) ∧ (cqRoom x) ∧ let wr := writeVa s x.fn x.ctx (x.cqBase + 32 * (x.cqProd % 2 ^ x.cqLog2)) (cqeBytes c (phaseOf x.cqProd x.cqLog2))
    ∃ s1, (wr = .ok s1) ∧ True) ∧
    (∃ (r : RingId) (x : Ring) (s : State), (s.ring? (refOf r) = some x) ∧ ∃ c rest n, (r = .cmd n) ∧ (x.waiting = c :: rest) ∧ (c.post = true) ∧ (cqRoom x) ∧ let wr := writeVa s x.fn x.ctx (x.cqBase + 32 * (x.cqProd % 2 ^ x.cqLog2)) (cqeBytes c (phaseOf x.cqProd x.cqLog2))
    ∃ e, (wr = .error e) ∧ True) :=
  ⟨⟨.cmd 4, aRing, ringing aRing, by decide, List.replicate 64 0, by decide, by decide, by decide +kernel, trivial⟩,
   ⟨.cmd 4, { aRing with sqBase := 0x40000000 }, ringing { aRing with sqBase := 0x40000000 }, by decide, by decide, by decide, by decide +kernel, trivial⟩,
   ⟨.admin 1, { aRing with fetched := [[1]] }, ringing { aRing with fetched := [[1]] }, by decide, by decide, trivial⟩,
   ⟨.cmd 4, { aRing with waiting := [{ aCqe with post := false }] }, ringing { aRing with waiting := [{ aCqe with post := false }] }, by decide, { aCqe with post := false }, [], by decide, by decide, trivial⟩,
   ⟨.cmd 4, { aRing with waiting := [aCqe], cqProd := 64 }, ringing { aRing with waiting := [aCqe], cqProd := 64 }, by decide, aCqe, [], by decide, by decide, by unfold cqRoom; decide, trivial⟩,
   ⟨.admin 1, { aRing with waiting := [aCqe], cqProd := 63 }, ringing { aRing with waiting := [aCqe], cqProd := 63 }, by decide, aCqe, [], 1, by decide, by decide, by decide, by unfold cqRoom; decide, trivial⟩,
   ⟨.cmd 4, { aRing with waiting := [aCqe], cqProd := 63 }, ringing { aRing with waiting := [aCqe], cqProd := 63 }, by decide, aCqe, [], 4, by decide, by decide, by decide, by unfold cqRoom; decide, (match writeVa (ringing { aRing with waiting := [aCqe], cqProd := 63 }) 1 3 (0x1000 + 32 * 63) (cqeBytes aCqe (phaseOf 63 6)) with | .ok t => t | _ => {}), ok_of _ _ (by decide +kernel), trivial⟩,
   ⟨.cmd 4, { aRing with waiting := [aCqe], cqBase := 0x40000000 }, ringing { aRing with waiting := [aCqe], cqBase := 0x40000000 }, by decide, aCqe, [], 4, by decide, by decide, by decide, by unfold cqRoom; decide, .fault 1, error_of _ _ (by decide +kernel), trivial⟩⟩

/-- A packet of an opcode and flags with some fields. -/
def pkt (op flags : Nat) (fs : List (Nat × Nat × Nat)) : List Byte :=
  fs.foldl (fun b f => pokeB b f.1 (natLe f.2.1 f.2.2)) (natLe 1 op ++ natLe 1 flags ++ List.replicate 62 0)
/-- A ring of context 3 of VF 1 with one packet fetched. -/
def pktRing (b : List Byte) : Ring := { fn := 1, ctx := 3, fetched := [b] }
/-- The routine, the program and the pool that the packets name. -/
def pktVd (x : Ring) : State :=
  { openVd with
    pool := poolOf { cgs := 1, pairs := 0xFFFFFFFFFFFFFFFF, ports := 1, st := .bound 1 }
    gfe := { rings := [(4, x)], admins := [(1, { fn := 1 })], programs := [(3, { fn := 1 })],
             routines := [(2, { fn := 1, cur := some { ctx := 3, store := 0x100000, len := 64 } })] } }
def takenSt (s : State) (r : RingId) (x : Ring) (b : List Byte) : State := (takePkt s (refOf r) x b []).1
def takenP (s : State) (r : RingId) (x : Ring) (b : List Byte) : PktRef := (takePkt s (refOf r) x b []).2
def headOk (s : State) (r : RingId) (x : Ring) (b : List Byte) : Bool :=
  decide (s.ring? (refOf r) = some x) && decide (x.fetched = [b]) && ringOpen s (refOf r) x

theorem headPkt_of (s : State) (r : RingId) (x : Ring) (b : List Byte) (h : headOk s r x b = true) :
    headPkt s r x b (takenSt s r x b) (takenP s r x b) := by
  simp only [headOk, Bool.and_eq_true, decide_eq_true_eq] at h
  exact ⟨[], h.1.1, h.1.2, h.2, rfl⟩
def pktAdmin (x : Ring) : State := { pktVd x with gfe := { admins := [(1, x)] } }
/-- A fence of VF 1 with a value. -/
def fenceAt (v : Nat) (x : Ring) : State := { pktVd x with obj := { (pktVd x).obj with fences := [(fenceKey 1 6, { value := BitVec.ofNat 64 v })] } }

/-- States and operands that meet the hypotheses of every clause of PacketChecksComeFirst. -/
theorem wit_PacketChecksComeFirst :
    (∃ (r : RingId) (x : Ring) (b : List Byte) (s s1 : State) (p : PktRef), (headPkt s r x b s1 p) ∧ (wrongRing (refOf r) (pktOp b) = true) ∧ True) ∧
    (∃ (r : RingId) (x : Ring) (b : List Byte) (s s1 : State) (p : PktRef), (headPkt s r x b s1 p) ∧ ∃ o, (wrongRing (refOf r) (pktOp b) = false) ∧ (headBad s (refOf r) x b = some o) ∧ True) ∧
    (∃ (r : RingId) (x : Ring) (b : List Byte) (s s1 : State) (p : PktRef), (headPkt s r x b s1 p) ∧ let f := fieldAt b 2 2
    ∃ n, (r = .cmd n) ∧ (pktOp b = 0) ∧ (headBad s (refOf r) x b = none) ∧ (resZero b 32 32 = true) ∧ (pktFlag b 0 = true) ∧ (pktFlag b 4 = false) ∧ ((s.fence x.fn f).value.toNat = errValue) ∧ True) ∧
    (∃ (r : RingId) (x : Ring) (b : List Byte) (s s1 : State) (p : PktRef), (headPkt s r x b s1 p) ∧ let f := fieldAt b 2 2
    ∃ n, (r = .cmd n) ∧ (pktOp b = 0) ∧ (headBad s (refOf r) x b = none) ∧ (resZero b 32 32 = true) ∧ (pktFlag b 0 = true) ∧ ((s.fence x.fn f).value.toNat < fieldAt b 8 8) ∧ True) ∧
    (∃ (r : RingId) (x : Ring) (b : List Byte) (s s1 : State) (p : PktRef), (headPkt s r x b s1 p) ∧ let f := fieldAt b 2 2
    ∃ n, (r = .cmd n) ∧ (pktOp b = 0) ∧ (headBad s (refOf r) x b = none) ∧ (resZero b 32 32 = true) ∧ (pktFlag b 0 = false ∨ fieldAt b 8 8 ≤ (s.fence x.fn f).value.toNat ∧ (pktFlag b 4 = true ∨ (s.fence x.fn f).value.toNat ≠ errValue)) ∧ (pktReady s (refOf r) x b = false ∨ outranked s (effPrio (refOf r) x) = true) ∧ True) ∧
    (∃ (r : RingId) (x : Ring) (b : List Byte) (s s1 : State) (p : PktRef), (headPkt s r x b s1 p) ∧ let f := fieldAt b 2 2
    ∃ n, (r = .cmd n) ∧ (pktOp b = 0) ∧ (headBad s (refOf r) x b = none) ∧ (resZero b 32 32 = true) ∧ (pktFlag b 0 = false ∨ fieldAt b 8 8 ≤ (s.fence x.fn f).value.toNat ∧ (pktFlag b 4 = true ∨ (s.fence x.fn f).value.toNat ≠ errValue)) ∧ (pktReady s (refOf r) x b = true) ∧ (outranked s (effPrio (refOf r) x) = false) ∧ True) :=
  ⟨⟨.cmd 4, pktRing (pkt 0x80 0 []), (pkt 0x80 0 []), pktVd (pktRing (pkt 0x80 0 [])), takenSt (pktVd (pktRing (pkt 0x80 0 []))) (.cmd 4) (pktRing (pkt 0x80 0 [])) (pkt 0x80 0 []), takenP (pktVd (pktRing (pkt 0x80 0 []))) (.cmd 4) (pktRing (pkt 0x80 0 [])) (pkt 0x80 0 []), headPkt_of _ _ _ _ (by decide +kernel), by decide +kernel, trivial⟩,
   ⟨.admin 1, pktRing (pkt 0x95 0x21 []), (pkt 0x95 0x21 []), pktAdmin (pktRing (pkt 0x95 0x21 [])), takenSt (pktAdmin (pktRing (pkt 0x95 0x21 []))) (.admin 1) (pktRing (pkt 0x95 0x21 [])) (pkt 0x95 0x21 []), takenP (pktAdmin (pktRing (pkt 0x95 0x21 []))) (.admin 1) (pktRing (pkt 0x95 0x21 [])) (pkt 0x95 0x21 []), headPkt_of _ _ _ _ (by decide +kernel), 1, by decide +kernel, by decide +kernel, trivial⟩,
   ⟨.cmd 4, pktRing (pkt 0 1 [(2, 2, 6), (8, 8, 1)]), (pkt 0 1 [(2, 2, 6), (8, 8, 1)]), fenceAt errValue (pktRing (pkt 0 1 [(2, 2, 6), (8, 8, 1)])), takenSt (fenceAt errValue (pktRing (pkt 0 1 [(2, 2, 6), (8, 8, 1)]))) (.cmd 4) (pktRing (pkt 0 1 [(2, 2, 6), (8, 8, 1)])) (pkt 0 1 [(2, 2, 6), (8, 8, 1)]), takenP (fenceAt errValue (pktRing (pkt 0 1 [(2, 2, 6), (8, 8, 1)]))) (.cmd 4) (pktRing (pkt 0 1 [(2, 2, 6), (8, 8, 1)])) (pkt 0 1 [(2, 2, 6), (8, 8, 1)]), headPkt_of _ _ _ _ (by decide +kernel), 4, by decide, by decide, by decide +kernel, by decide +kernel, by decide, by decide, by decide +kernel, trivial⟩,
   ⟨.cmd 4, pktRing (pkt 0 1 [(2, 2, 6), (8, 8, 1)]), (pkt 0 1 [(2, 2, 6), (8, 8, 1)]), fenceAt 0 (pktRing (pkt 0 1 [(2, 2, 6), (8, 8, 1)])), takenSt (fenceAt 0 (pktRing (pkt 0 1 [(2, 2, 6), (8, 8, 1)]))) (.cmd 4) (pktRing (pkt 0 1 [(2, 2, 6), (8, 8, 1)])) (pkt 0 1 [(2, 2, 6), (8, 8, 1)]), takenP (fenceAt 0 (pktRing (pkt 0 1 [(2, 2, 6), (8, 8, 1)]))) (.cmd 4) (pktRing (pkt 0 1 [(2, 2, 6), (8, 8, 1)])) (pkt 0 1 [(2, 2, 6), (8, 8, 1)]), headPkt_of _ _ _ _ (by decide +kernel), 4, by decide, by decide, by decide +kernel, by decide +kernel, by decide, by decide +kernel, trivial⟩,
   ⟨.cmd 4, pktRing (pkt 0 9 [(2, 2, 6), (8, 8, 1)]), (pkt 0 9 [(2, 2, 6), (8, 8, 1)]), { fenceAt 1 (pktRing (pkt 0 9 [(2, 2, 6), (8, 8, 1)])) with cmp := { vds := [(1, { live := true, tag := 5, held := true })] } }, takenSt ({ fenceAt 1 (pktRing (pkt 0 9 [(2, 2, 6), (8, 8, 1)])) with cmp := { vds := [(1, { live := true, tag := 5, held := true })] } }) (.cmd 4) (pktRing (pkt 0 9 [(2, 2, 6), (8, 8, 1)])) (pkt 0 9 [(2, 2, 6), (8, 8, 1)]), takenP ({ fenceAt 1 (pktRing (pkt 0 9 [(2, 2, 6), (8, 8, 1)])) with cmp := { vds := [(1, { live := true, tag := 5, held := true })] } }) (.cmd 4) (pktRing (pkt 0 9 [(2, 2, 6), (8, 8, 1)])) (pkt 0 9 [(2, 2, 6), (8, 8, 1)]), headPkt_of _ _ _ _ (by decide +kernel), 4, by decide, by decide, by decide +kernel, by decide +kernel, .inr (by decide +kernel), .inl (by decide +kernel), trivial⟩,
   ⟨.cmd 4, pktRing (pkt 0 9 [(2, 2, 6), (8, 8, 1)]), (pkt 0 9 [(2, 2, 6), (8, 8, 1)]), fenceAt 1 (pktRing (pkt 0 9 [(2, 2, 6), (8, 8, 1)])), takenSt (fenceAt 1 (pktRing (pkt 0 9 [(2, 2, 6), (8, 8, 1)]))) (.cmd 4) (pktRing (pkt 0 9 [(2, 2, 6), (8, 8, 1)])) (pkt 0 9 [(2, 2, 6), (8, 8, 1)]), takenP (fenceAt 1 (pktRing (pkt 0 9 [(2, 2, 6), (8, 8, 1)]))) (.cmd 4) (pktRing (pkt 0 9 [(2, 2, 6), (8, 8, 1)])) (pkt 0 9 [(2, 2, 6), (8, 8, 1)]), headPkt_of _ _ _ _ (by decide +kernel), 4, by decide, by decide, by decide +kernel, by decide +kernel, .inr (by decide +kernel), by decide +kernel, by decide +kernel, trivial⟩⟩

def acceptOk (s : State) (r : RingId) (x : Ring) (b : List Byte) : Bool :=
  headOk s r x b && !wrongRing (refOf r) (pktOp b) && (headBad s (refOf r) x b).isNone && (match r with | .admin f => (s.vd x.fn).live && f.val + 1 ≠ 0 | .cmd _ => true)
    && (!pktFlag b 0 || pktFlag b 4 || decide ((s.fence x.fn (fieldAt b 2 2)).value.toNat ≠ errValue))
    && pktReady s (refOf r) x b && !outranked s (effPrio (refOf r) x)

theorem accepts_of (s : State) (r : RingId) (x : Ring) (b : List Byte) (h : acceptOk s r x b = true) :
    accepts s r x b (takenSt s r x b) (takenP s r x b) := by
  simp only [acceptOk, Bool.and_eq_true, Bool.not_eq_true', Option.isNone_iff_eq_none] at h
  obtain ⟨⟨⟨⟨⟨⟨h1, h2⟩, h3⟩, h4⟩, h5⟩, h6⟩, h7⟩ := h
  refine ⟨headPkt_of s r x b h1, h2, h3, ?_, ?_, h6, h7⟩
  · intro f e
    subst e
    simp at h4
    exact h4
  · intro e
    simpa [e] using h5
/-- A computed success with whatever it answers. -/
def okVal {ε α : Type} (x : Except ε α) (d : α) : α := match x with | .ok y => y | .error _ => d
def isOk {ε α : Type} (x : Except ε α) : Bool := match x with | .ok _ => true | .error _ => false

theorem okVal_of {ε α : Type} (x : Except ε α) (d : α) (h : isOk x = true) : x = .ok (okVal x d) := by
  cases x with
  | ok y => rfl
  | error e => simp [isOk] at h
def isRead (x : DescRead) (bs : List Byte) : Bool := match x with | .ok y => decide (y = bs) | _ => false

theorem descRead_of (x : DescRead) (bs : List Byte) (h : isRead x bs = true) : x = .ok bs := by
  cases x <;> simp [isRead] at h ⊢
  exact h

theorem exposes_of (s : State) (id : Nat) (h : (match s.desc? id with | some d => !exposes s d | none => true) = true) :
    ∀ d, s.desc? id = some d → exposes s d = false := by
  intro d e
  rw [e] at h
  simpa using h

/-- A transfer of memory, as a descriptor, and a list with one move: context 3 puts them at VA 0. -/
def fillDesc : List Byte := natLe 1 2 ++ [0, 0, 0, 1, 0, 0, 0] ++ natLe 8 0 ++ natLe 8 0x1000 ++ natLe 8 16 ++ List.replicate 96 0
def oneMove : List Byte := [0, 0, 3, 1] ++ List.replicate 28 0
def cellsAt : Nat → List Byte → List Host.Cell
  | _, [] => []
  | a, b :: bs => if b = 0 then cellsAt (a + 1) bs else (a, b) :: cellsAt (a + 1) bs
def pktMem (x : Ring) (bs : List Byte) : State :=
  { pktVd x with mem := { hbm := [(0, 1), (2, 1), (0x10000, 7), (0x10003, 0x20)] ++ cellsAt 0x20000000 bs } }

/-- States and operands that meet the hypotheses of every clause of WorkPacketsRun. -/
theorem wit_WorkPacketsRun :
    (∃ (r : RingId) (x : Ring) (b : List Byte) (s s1 : State) (p : PktRef), (accepts s r x b s1 p) ∧ (pktOp b = 1) ∧ (fieldAt b 36 2 % 8 = 0) ∧ (fieldAt b 36 2 + fieldAt b 38 2 ≤ 4096) ∧ (fieldAt b 40 8 < 2 ^ 55) ∧ (resZero b 48 8 = true) ∧ (curGen s x.fn (fieldAt b 32 4) = none) ∧ True) ∧
    (∃ (r : RingId) (x : Ring) (b : List Byte) (s s1 : State) (p : PktRef), (accepts s r x b s1 p) ∧ let cores := launchCores s x.fn
    let f := ctxFigures s x.fn x.ctx
    (pktOp b = 1) ∧ (fieldAt b 36 2 % 8 = 0) ∧ (fieldAt b 36 2 + fieldAt b 38 2 ≤ 4096) ∧ (fieldAt b 40 8 < 2 ^ 55) ∧ (resZero b 48 8 = true) ∧ ∃ g par page slots, (curGen s1 x.fn (fieldAt b 32 4) = some g) ∧ (launchOk s1 x.fn g.nodes g.relays f false = true) ∧ (readParam s1 x.fn x.ctx (fieldAt b 40 8) (fieldAt b 38 2) = .ok par) ∧ (readPage s1 x.fn g = .ok page) ∧ (freeSlots s1 cores = some slots) ∧ True) ∧
    (∃ (r : RingId) (x : Ring) (b : List Byte) (s s1 : State) (p : PktRef), (accepts s r x b s1 p) ∧ let cores := launchCores s x.fn
    (pktOp b = 2) ∧ (1 ≤ fieldAt b 36 4) ∧ (fieldAt b 40 8 < 2 ^ 55) ∧ (fieldAt b 48 2 ≤ 4096) ∧ (1 ≤ fieldAt b 50 2) ∧ (resZero b 52 4 = true) ∧ ∃ g par slots, (look s.gfe.programs (fieldAt b 32 4) = some g) ∧ (g.fn = x.fn) ∧ (readParam s1 x.fn x.ctx (fieldAt b 40 8) (fieldAt b 48 2) = .ok par) ∧ (freeSlots s1 cores = some slots) ∧ True) ∧
    (∃ (r : RingId) (x : Ring) (b : List Byte) (s s1 : State) (p : PktRef), (accepts s r x b s1 p) ∧ (pktOp b = 3) ∧ (fieldAt b 32 8 % 128 = 0) ∧ (fieldAt b 32 8 < 2 ^ 55) ∧ (resZero b 40 24 = true) ∧ ∃ bs s3, (readDesc s1 x.fn x.ctx (fieldAt b 32 8) = .ok bs) ∧ (descBad bs = none) ∧ let id := s1.xlt.nextDesc
    let s2 := translateChunk { s1 with xlt := { s1.xlt with descs := put s1.xlt.descs id (descOf bs x.fn x.ctx (fieldAt b 32 8) (.packet p)), nextDesc := id + 1 } } id
    (∀ d, s2.desc? id = some d → exposes s2 d = false) ∧ (takeExtSlot s2 id = some s3) ∧ True) ∧
    (∃ (r : RingId) (x : Ring) (b : List Byte) (s s1 : State) (p : PktRef), (accepts s r x b s1 p) ∧ (pktOp b = 4) ∧ (resZero b 56 8 = true) ∧ ∃ g, (curGen s1 x.fn (fieldAt b 32 4) = some g) ∧ (g.service = true → 64 ≤ fieldAt b 36 2) ∧ ∃ s2, (fieldAt b 38 1 = 0) ∧ (1 ≤ fieldAt b 39 1) ∧ (fieldAt b 39 1 ≤ 16) ∧ (fieldAt b 36 2 + fieldAt b 39 1 ≤ 4096) ∧ (writePage s1 x.fn g (fieldAt b 36 2) (sliceB b 40 (fieldAt b 39 1)) = .ok s2) ∧ True) ∧
    (∃ (r : RingId) (x : Ring) (b : List Byte) (s s1 : State) (p : PktRef), (accepts s r x b s1 p) ∧ (pktOp b = 4) ∧ (resZero b 56 8 = true) ∧ ∃ g, (curGen s1 x.fn (fieldAt b 32 4) = some g) ∧ (g.service = true → 64 ≤ fieldAt b 36 2) ∧ ∃ bs s2, (fieldAt b 38 1 = 1) ∧ (fieldAt b 39 1 = 0) ∧ (fieldAt b 40 8 < 2 ^ 55) ∧ (1 ≤ fieldAt b 48 2) ∧ (fieldAt b 48 2 ≤ 4096) ∧ (resZero b 50 6 = true) ∧ (fieldAt b 36 2 + fieldAt b 48 2 ≤ 4096) ∧ (readParam s1 x.fn x.ctx (fieldAt b 40 8) (fieldAt b 48 2) = .ok bs) ∧ (writePage s1 x.fn g (fieldAt b 36 2) bs = .ok s2) ∧ True) ∧
    (∃ (r : RingId) (x : Ring) (b : List Byte) (s s1 : State) (p : PktRef), (accepts s r x b s1 p) ∧ (pktOp b = 5) ∧ (1 ≤ fieldAt b 32 1) ∧ (fieldAt b 32 1 ≤ 4) ∧ (resZero b 34 2 = true) ∧ (fieldAt b 36 4 ≤ 100000) ∧ (1 ≤ fieldAt b 40 4) ∧ (fieldAt b 40 4 ≤ 10000000) ∧ (resZero b 44 20 = true) ∧ True) ∧
    (∃ (r : RingId) (x : Ring) (b : List Byte) (s s1 : State) (p : PktRef), (accepts s r x b s1 p) ∧ (pktOp b = 5) ∧ (1 ≤ fieldAt b 32 1) ∧ (fieldAt b 32 1 ≤ 4) ∧ (resZero b 34 2 = true) ∧ (fieldAt b 36 4 ≤ 100000) ∧ (1 ≤ fieldAt b 40 4) ∧ (fieldAt b 40 4 ≤ 10000000) ∧ (resZero b 44 20 = true) ∧ ((s.hints.filter (fun y => y.vd = x.fn && !y.active)).length < 4) ∧ (0 < fieldAt b 36 4) ∧ True) ∧
    (∃ (r : RingId) (x : Ring) (b : List Byte) (s s1 : State) (p : PktRef), (accepts s r x b s1 p) ∧ (pktOp b = 6) ∧ (fieldAt b 32 8 % 32 = 0) ∧ (fieldAt b 32 8 < 2 ^ 55) ∧ (1 ≤ fieldAt b 40 4) ∧ (fieldAt b 40 4 ≤ 65536) ∧ (resZero b 44 20 = true) ∧ ∃ ps bs, let n := fieldAt b 40 4
    let es := (List.range n).map (fun k => sliceB bs (32 * k) 32)
    (rangeOf s1 x.fn x.ctx false (fieldAt b 32 8) (32 * n) = .ok ps) ∧ (readPieces s1 x.fn ps = (bs, none)) ∧ (es.all moveEntryOk = true) ∧ True) :=
  ⟨⟨.cmd 4, pktRing (pkt 1 0 [(32, 4, 7), (36, 2, 4088), (38, 2, 8)]), (pkt 1 0 [(32, 4, 7), (36, 2, 4088), (38, 2, 8)]), pktVd (pktRing (pkt 1 0 [(32, 4, 7), (36, 2, 4088), (38, 2, 8)])), takenSt (pktVd (pktRing (pkt 1 0 [(32, 4, 7), (36, 2, 4088), (38, 2, 8)]))) (.cmd 4) (pktRing (pkt 1 0 [(32, 4, 7), (36, 2, 4088), (38, 2, 8)])) (pkt 1 0 [(32, 4, 7), (36, 2, 4088), (38, 2, 8)]), takenP (pktVd (pktRing (pkt 1 0 [(32, 4, 7), (36, 2, 4088), (38, 2, 8)]))) (.cmd 4) (pktRing (pkt 1 0 [(32, 4, 7), (36, 2, 4088), (38, 2, 8)])) (pkt 1 0 [(32, 4, 7), (36, 2, 4088), (38, 2, 8)]), accepts_of _ _ _ _ (by decide +kernel), by decide +kernel, by decide +kernel, by decide +kernel, by decide +kernel, by decide +kernel, by decide +kernel, trivial⟩,
   ⟨.cmd 4, pktRing (pkt 1 0 [(32, 4, 2), (36, 2, 4088), (38, 2, 8)]), (pkt 1 0 [(32, 4, 2), (36, 2, 4088), (38, 2, 8)]), pktVd (pktRing (pkt 1 0 [(32, 4, 2), (36, 2, 4088), (38, 2, 8)])), takenSt (pktVd (pktRing (pkt 1 0 [(32, 4, 2), (36, 2, 4088), (38, 2, 8)]))) (.cmd 4) (pktRing (pkt 1 0 [(32, 4, 2), (36, 2, 4088), (38, 2, 8)])) (pkt 1 0 [(32, 4, 2), (36, 2, 4088), (38, 2, 8)]), takenP (pktVd (pktRing (pkt 1 0 [(32, 4, 2), (36, 2, 4088), (38, 2, 8)]))) (.cmd 4) (pktRing (pkt 1 0 [(32, 4, 2), (36, 2, 4088), (38, 2, 8)])) (pkt 1 0 [(32, 4, 2), (36, 2, 4088), (38, 2, 8)]), accepts_of _ _ _ _ (by decide +kernel), by decide +kernel, by decide +kernel, by decide +kernel, by decide +kernel, by decide +kernel, { ctx := 3, store := 0x100000, len := 64 }, okVal (readParam (takenSt (pktVd (pktRing (pkt 1 0 [(32, 4, 2), (36, 2, 4088), (38, 2, 8)]))) (.cmd 4) (pktRing (pkt 1 0 [(32, 4, 2), (36, 2, 4088), (38, 2, 8)])) (pkt 1 0 [(32, 4, 2), (36, 2, 4088), (38, 2, 8)])) 1 3 0 8) [], okVal (readPage (takenSt (pktVd (pktRing (pkt 1 0 [(32, 4, 2), (36, 2, 4088), (38, 2, 8)]))) (.cmd 4) (pktRing (pkt 1 0 [(32, 4, 2), (36, 2, 4088), (38, 2, 8)])) (pkt 1 0 [(32, 4, 2), (36, 2, 4088), (38, 2, 8)])) 1 { ctx := 3, store := 0x100000, len := 64 }) [], [0, 0, 0, 0], by decide +kernel, by decide +kernel, okVal_of _ _ (by decide +kernel), okVal_of _ _ (by decide +kernel), by decide +kernel, trivial⟩,
   ⟨.cmd 4, pktRing (pkt 2 0 [(32, 4, 3), (36, 4, 1), (48, 2, 8), (50, 2, 1)]), (pkt 2 0 [(32, 4, 3), (36, 4, 1), (48, 2, 8), (50, 2, 1)]), pktVd (pktRing (pkt 2 0 [(32, 4, 3), (36, 4, 1), (48, 2, 8), (50, 2, 1)])), takenSt (pktVd (pktRing (pkt 2 0 [(32, 4, 3), (36, 4, 1), (48, 2, 8), (50, 2, 1)]))) (.cmd 4) (pktRing (pkt 2 0 [(32, 4, 3), (36, 4, 1), (48, 2, 8), (50, 2, 1)])) (pkt 2 0 [(32, 4, 3), (36, 4, 1), (48, 2, 8), (50, 2, 1)]), takenP (pktVd (pktRing (pkt 2 0 [(32, 4, 3), (36, 4, 1), (48, 2, 8), (50, 2, 1)]))) (.cmd 4) (pktRing (pkt 2 0 [(32, 4, 3), (36, 4, 1), (48, 2, 8), (50, 2, 1)])) (pkt 2 0 [(32, 4, 3), (36, 4, 1), (48, 2, 8), (50, 2, 1)]), accepts_of _ _ _ _ (by decide +kernel), by decide +kernel, by decide +kernel, by decide +kernel, by decide +kernel, by decide +kernel, by decide +kernel, { fn := 1 }, okVal (readParam (takenSt (pktVd (pktRing (pkt 2 0 [(32, 4, 3), (36, 4, 1), (48, 2, 8), (50, 2, 1)]))) (.cmd 4) (pktRing (pkt 2 0 [(32, 4, 3), (36, 4, 1), (48, 2, 8), (50, 2, 1)])) (pkt 2 0 [(32, 4, 3), (36, 4, 1), (48, 2, 8), (50, 2, 1)])) 1 3 0 8) [], [0, 0, 0, 0], by decide +kernel, by decide +kernel, okVal_of _ _ (by decide +kernel), by decide +kernel, trivial⟩,
   ⟨.cmd 4, pktRing (pkt 3 0 []), (pkt 3 0 []), pktMem (pktRing (pkt 3 0 [])) fillDesc, takenSt (pktMem (pktRing (pkt 3 0 [])) fillDesc) (.cmd 4) (pktRing (pkt 3 0 [])) (pkt 3 0 []), takenP (pktMem (pktRing (pkt 3 0 [])) fillDesc) (.cmd 4) (pktRing (pkt 3 0 [])) (pkt 3 0 []), accepts_of _ _ _ _ (by decide +kernel), by decide +kernel, by decide +kernel, by decide +kernel, by decide +kernel, fillDesc, (takeExtSlot (translateChunk { (takenSt (pktMem (pktRing (pkt 3 0 [])) fillDesc) (.cmd 4) (pktRing (pkt 3 0 [])) (pkt 3 0 [])) with xlt := { (takenSt (pktMem (pktRing (pkt 3 0 [])) fillDesc) (.cmd 4) (pktRing (pkt 3 0 [])) (pkt 3 0 [])).xlt with descs := put (takenSt (pktMem (pktRing (pkt 3 0 [])) fillDesc) (.cmd 4) (pktRing (pkt 3 0 [])) (pkt 3 0 [])).xlt.descs (takenSt (pktMem (pktRing (pkt 3 0 [])) fillDesc) (.cmd 4) (pktRing (pkt 3 0 [])) (pkt 3 0 [])).xlt.nextDesc (descOf fillDesc (pktRing (pkt 3 0 [])).fn (pktRing (pkt 3 0 [])).ctx (fieldAt (pkt 3 0 []) 32 8) (.packet (takenP (pktMem (pktRing (pkt 3 0 [])) fillDesc) (.cmd 4) (pktRing (pkt 3 0 [])) (pkt 3 0 [])))), nextDesc := (takenSt (pktMem (pktRing (pkt 3 0 [])) fillDesc) (.cmd 4) (pktRing (pkt 3 0 [])) (pkt 3 0 [])).xlt.nextDesc + 1 } } (takenSt (pktMem (pktRing (pkt 3 0 [])) fillDesc) (.cmd 4) (pktRing (pkt 3 0 [])) (pkt 3 0 [])).xlt.nextDesc) (takenSt (pktMem (pktRing (pkt 3 0 [])) fillDesc) (.cmd 4) (pktRing (pkt 3 0 [])) (pkt 3 0 [])).xlt.nextDesc).getD {}, descRead_of _ _ (by decide +kernel), by decide +kernel, exposes_of _ _ (by decide +kernel), some_getD _ _ (by decide +kernel), trivial⟩,
   ⟨.cmd 4, pktRing (pkt 4 0 [(32, 4, 2), (36, 2, 4080), (39, 1, 16)]), (pkt 4 0 [(32, 4, 2), (36, 2, 4080), (39, 1, 16)]), pktVd (pktRing (pkt 4 0 [(32, 4, 2), (36, 2, 4080), (39, 1, 16)])), takenSt (pktVd (pktRing (pkt 4 0 [(32, 4, 2), (36, 2, 4080), (39, 1, 16)]))) (.cmd 4) (pktRing (pkt 4 0 [(32, 4, 2), (36, 2, 4080), (39, 1, 16)])) (pkt 4 0 [(32, 4, 2), (36, 2, 4080), (39, 1, 16)]), takenP (pktVd (pktRing (pkt 4 0 [(32, 4, 2), (36, 2, 4080), (39, 1, 16)]))) (.cmd 4) (pktRing (pkt 4 0 [(32, 4, 2), (36, 2, 4080), (39, 1, 16)])) (pkt 4 0 [(32, 4, 2), (36, 2, 4080), (39, 1, 16)]), accepts_of _ _ _ _ (by decide +kernel), by decide +kernel, by decide +kernel, { ctx := 3, store := 0x100000, len := 64 }, by decide +kernel, fun h => by simp at h, okVal (writePage (takenSt (pktVd (pktRing (pkt 4 0 [(32, 4, 2), (36, 2, 4080), (39, 1, 16)]))) (.cmd 4) (pktRing (pkt 4 0 [(32, 4, 2), (36, 2, 4080), (39, 1, 16)])) (pkt 4 0 [(32, 4, 2), (36, 2, 4080), (39, 1, 16)])) (pktRing (pkt 4 0 [(32, 4, 2), (36, 2, 4080), (39, 1, 16)])).fn { ctx := 3, store := 0x100000, len := 64 } (fieldAt (pkt 4 0 [(32, 4, 2), (36, 2, 4080), (39, 1, 16)]) 36 2) (sliceB (pkt 4 0 [(32, 4, 2), (36, 2, 4080), (39, 1, 16)]) 40 (fieldAt (pkt 4 0 [(32, 4, 2), (36, 2, 4080), (39, 1, 16)]) 39 1))) {}, by decide +kernel, by decide +kernel, by decide +kernel, by decide +kernel, okVal_of _ _ (by decide +kernel), trivial⟩,
   ⟨.cmd 4, pktRing (pkt 4 0 [(32, 4, 2), (36, 2, 4064), (38, 1, 1), (48, 2, 32)]), (pkt 4 0 [(32, 4, 2), (36, 2, 4064), (38, 1, 1), (48, 2, 32)]), pktMem (pktRing (pkt 4 0 [(32, 4, 2), (36, 2, 4064), (38, 1, 1), (48, 2, 32)])) oneMove, takenSt (pktMem (pktRing (pkt 4 0 [(32, 4, 2), (36, 2, 4064), (38, 1, 1), (48, 2, 32)])) oneMove) (.cmd 4) (pktRing (pkt 4 0 [(32, 4, 2), (36, 2, 4064), (38, 1, 1), (48, 2, 32)])) (pkt 4 0 [(32, 4, 2), (36, 2, 4064), (38, 1, 1), (48, 2, 32)]), takenP (pktMem (pktRing (pkt 4 0 [(32, 4, 2), (36, 2, 4064), (38, 1, 1), (48, 2, 32)])) oneMove) (.cmd 4) (pktRing (pkt 4 0 [(32, 4, 2), (36, 2, 4064), (38, 1, 1), (48, 2, 32)])) (pkt 4 0 [(32, 4, 2), (36, 2, 4064), (38, 1, 1), (48, 2, 32)]), accepts_of _ _ _ _ (by decide +kernel), by decide +kernel, by decide +kernel, { ctx := 3, store := 0x100000, len := 64 }, by decide +kernel, fun h => by simp at h, oneMove, okVal (writePage (takenSt (pktMem (pktRing (pkt 4 0 [(32, 4, 2), (36, 2, 4064), (38, 1, 1), (48, 2, 32)])) oneMove) (.cmd 4) (pktRing (pkt 4 0 [(32, 4, 2), (36, 2, 4064), (38, 1, 1), (48, 2, 32)])) (pkt 4 0 [(32, 4, 2), (36, 2, 4064), (38, 1, 1), (48, 2, 32)])) (pktRing (pkt 4 0 [(32, 4, 2), (36, 2, 4064), (38, 1, 1), (48, 2, 32)])).fn { ctx := 3, store := 0x100000, len := 64 } (fieldAt (pkt 4 0 [(32, 4, 2), (36, 2, 4064), (38, 1, 1), (48, 2, 32)]) 36 2) oneMove) {}, by decide +kernel, by decide +kernel, by decide +kernel, by decide +kernel, by decide +kernel, by decide +kernel, by decide +kernel, ok_of _ _ (by decide +kernel), okVal_of _ _ (by decide +kernel), trivial⟩,
   ⟨.cmd 4, pktRing (pkt 5 0 [(32, 1, 4), (36, 4, 100000), (40, 4, 10000000)]), (pkt 5 0 [(32, 1, 4), (36, 4, 100000), (40, 4, 10000000)]), pktVd (pktRing (pkt 5 0 [(32, 1, 4), (36, 4, 100000), (40, 4, 10000000)])), takenSt (pktVd (pktRing (pkt 5 0 [(32, 1, 4), (36, 4, 100000), (40, 4, 10000000)]))) (.cmd 4) (pktRing (pkt 5 0 [(32, 1, 4), (36, 4, 100000), (40, 4, 10000000)])) (pkt 5 0 [(32, 1, 4), (36, 4, 100000), (40, 4, 10000000)]), takenP (pktVd (pktRing (pkt 5 0 [(32, 1, 4), (36, 4, 100000), (40, 4, 10000000)]))) (.cmd 4) (pktRing (pkt 5 0 [(32, 1, 4), (36, 4, 100000), (40, 4, 10000000)])) (pkt 5 0 [(32, 1, 4), (36, 4, 100000), (40, 4, 10000000)]), accepts_of _ _ _ _ (by decide +kernel), by decide +kernel, by decide +kernel, by decide +kernel, by decide +kernel, by decide +kernel, by decide +kernel, by decide +kernel, by decide +kernel, trivial⟩,
   ⟨.cmd 4, pktRing (pkt 5 0 [(32, 1, 1), (36, 4, 1), (40, 4, 1)]), (pkt 5 0 [(32, 1, 1), (36, 4, 1), (40, 4, 1)]), pktVd (pktRing (pkt 5 0 [(32, 1, 1), (36, 4, 1), (40, 4, 1)])), takenSt (pktVd (pktRing (pkt 5 0 [(32, 1, 1), (36, 4, 1), (40, 4, 1)]))) (.cmd 4) (pktRing (pkt 5 0 [(32, 1, 1), (36, 4, 1), (40, 4, 1)])) (pkt 5 0 [(32, 1, 1), (36, 4, 1), (40, 4, 1)]), takenP (pktVd (pktRing (pkt 5 0 [(32, 1, 1), (36, 4, 1), (40, 4, 1)]))) (.cmd 4) (pktRing (pkt 5 0 [(32, 1, 1), (36, 4, 1), (40, 4, 1)])) (pkt 5 0 [(32, 1, 1), (36, 4, 1), (40, 4, 1)]), accepts_of _ _ _ _ (by decide +kernel), by decide +kernel, by decide +kernel, by decide +kernel, by decide +kernel, by decide +kernel, by decide +kernel, by decide +kernel, by decide +kernel, by decide +kernel, by decide +kernel, trivial⟩,
   ⟨.cmd 4, pktRing (pkt 6 0 [(40, 4, 1)]), (pkt 6 0 [(40, 4, 1)]), pktMem (pktRing (pkt 6 0 [(40, 4, 1)])) oneMove, takenSt (pktMem (pktRing (pkt 6 0 [(40, 4, 1)])) oneMove) (.cmd 4) (pktRing (pkt 6 0 [(40, 4, 1)])) (pkt 6 0 [(40, 4, 1)]), takenP (pktMem (pktRing (pkt 6 0 [(40, 4, 1)])) oneMove) (.cmd 4) (pktRing (pkt 6 0 [(40, 4, 1)])) (pkt 6 0 [(40, 4, 1)]), accepts_of _ _ _ _ (by decide +kernel), by decide +kernel, by decide +kernel, by decide +kernel, by decide +kernel, by decide +kernel, by decide +kernel, okVal (rangeOf (takenSt (pktMem (pktRing (pkt 6 0 [(40, 4, 1)])) oneMove) (.cmd 4) (pktRing (pkt 6 0 [(40, 4, 1)])) (pkt 6 0 [(40, 4, 1)])) 1 3 false 0 32) [], oneMove, okVal_of _ _ (by decide +kernel), by decide +kernel, by decide +kernel, trivial⟩⟩

/-- The device with a packet on VF 1's admin ring, an open chain, and what the packets point to in host memory. -/
def admVd (x : Ring) : State :=
  { pktVd x with
    gfe := { (pktVd x).gfe with admins := [(1, x)], rings := [(4, { fn := 1, ctx := 3 })] }
    chains := [(1, { opened := true, sizeLog2 := 12, dpa := 0x10000 })]
    host := cellsAt 0x5000 (natLe 4 0x4B505254 ++ [1, 0, 1] ++ List.replicate 5 0 ++ [1] ++ List.replicate 7 0 ++ [64])
      ++ [(0x5040, 5), (0x5046, 0xFF), (0x5047, 0xFF)] ++ (List.range 12).map (fun i => (0x5058 + i, 0xFF)) ++ (List.range 6).map (fun i => (0x5078 + i, 0xFF)) ++ [(0x5098, 0xFF), (0x5099, 0xFF)]
      ++ cellsAt 0x7000 (natLe 4 0x4B505047 ++ [1, 0, 0, 0, 64]) ++ [(0x8002, 1)] }

theorem rangeRes_of (x : RangeRes) (h : (match x with | .ok _ => true | _ => false) = true) : ∃ ps, x = .ok ps := by
  cases x <;> simp at h ⊢

theorem page_of (s d : State) (fn : Nat) (e : Endpoint) (n : Nat)
    (h : (match takePage s fn e with | some q => decide (q.1 = n) | none => false) = true) :
    takePage s fn e = some (n, ((takePage s fn e).getD (0, d)).2) := by
  cases hp : takePage s fn e with
  | none => rw [hp] at h; simp at h
  | some q => rw [hp] at h; simp at h; simp [← h]

/-- States and operands that meet the hypotheses of every clause of ContextsRingsAndRoutines. -/
theorem wit_ContextsRingsAndRoutines :
    (∃ (r : RingId) (x : Ring) (b : List Byte) (s s1 : State) (p : PktRef), (accepts s r x b s1 p) ∧ (s.ready = []) ∧ let fn := x.fn
    (pktOp b = 0x80) ∧ (resZero b 40 24 = true) ∧ ∃ c, let d := readHost s1 (fieldAt b 32 8) 64
    (ctxBad s1 fn d = none) ∧ ((List.range 4096).find? (fun k => (s1.ctx? fn k).isNone) = some c) ∧ (s.obj.ctxs.length < 16384) ∧ True) ∧
    (∃ (r : RingId) (x : Ring) (b : List Byte) (s s1 : State) (p : PktRef), (accepts s r x b s1 p) ∧ (s.ready = []) ∧ let fn := x.fn
    let n := fieldAt b 32 2
    (pktOp b = 0x81) ∧ (resZero b 34 30 = true) ∧ (ctxLive s fn n = true) ∧ True) ∧
    (∃ (r : RingId) (x : Ring) (b : List Byte) (s s1 : State) (p : PktRef), (accepts s r x b s1 p) ∧ (s.ready = []) ∧ let fn := x.fn
    let n := fieldAt b 32 2
    (pktOp b = 0x81) ∧ (resZero b 34 30 = true) ∧ (ctxLive s fn n = false) ∧ True) ∧
    (∃ (r : RingId) (x : Ring) (b : List Byte) (s s1 : State) (p : PktRef), (accepts s r x b s1 p) ∧ (s.ready = []) ∧ let fn := x.fn
    let n := fieldAt b 32 2
    (pktOp b = 0x93) ∧ (fieldAt b 34 1 ≤ 1) ∧ (resZero b 35 29 = true) ∧ ∃ k, (s.ctx? fn n = some k) ∧ (k.st = .live) ∧ True) ∧
    (∃ (r : RingId) (x : Ring) (b : List Byte) (s s1 : State) (p : PktRef), (accepts s r x b s1 p) ∧ (s.ready = []) ∧ let fn := x.fn
    let n := fieldAt b 32 2
    (pktOp b = 0x93) ∧ (fieldAt b 34 1 ≤ 1) ∧ (resZero b 35 29 = true) ∧ (ctxLive s fn n = false) ∧ True) ∧
    (∃ (r : RingId) (x : Ring) (b : List Byte) (s s1 : State) (p : PktRef), (accepts s r x b s1 p) ∧ (s.ready = []) ∧ let fn := x.fn
    let n := fieldAt b 32 2
    (pktOp b = 0x82) ∧ (6 ≤ fieldAt b 34 1) ∧ (fieldAt b 34 1 ≤ 16) ∧ (6 ≤ fieldAt b 35 1) ∧ (fieldAt b 35 1 ≤ 16) ∧ (fieldAt b 36 1 ≤ 3) ∧ (resZero b 37 1 = true) ∧ (fieldAt b 38 2 ≤ vectorMax fn) ∧ (vaOk (fieldAt b 40 8) 4096 = true) ∧ (vaOk (fieldAt b 48 8) 4096 = true) ∧ (vaOk (fieldAt b 56 8) 65536 = true) ∧ ∃ m sp cp s2 s3, (ctxLive s fn n = true) ∧ ((List.range 4096).find? (fun k => !has s1.gfe.rings k && !ringBusy s1 k) = some m) ∧ (takePage s1 fn (.ringSq m) = some (sp, s2)) ∧ (takePage s2 fn (.ringCq m) = some (cp, s3)) ∧ True) ∧
    (∃ (r : RingId) (x : Ring) (b : List Byte) (s s1 : State) (p : PktRef), (accepts s r x b s1 p) ∧ (s.ready = []) ∧ let fn := x.fn
    let n := fieldAt b 32 2
    (pktOp b = 0x82) ∧ (6 ≤ fieldAt b 34 1) ∧ (fieldAt b 34 1 ≤ 16) ∧ (6 ≤ fieldAt b 35 1) ∧ (fieldAt b 35 1 ≤ 16) ∧ (fieldAt b 36 1 ≤ 3) ∧ (resZero b 37 1 = true) ∧ (fieldAt b 38 2 ≤ vectorMax fn) ∧ (vaOk (fieldAt b 40 8) 4096 = true) ∧ (vaOk (fieldAt b 48 8) 4096 = true) ∧ (vaOk (fieldAt b 56 8) 65536 = true) ∧ (ctxLive s fn n = false) ∧ True) ∧
    (∃ (r : RingId) (x : Ring) (b : List Byte) (s s1 : State) (p : PktRef), (accepts s r x b s1 p) ∧ (s.ready = []) ∧ let fn := x.fn
    let n := fieldAt b 32 2
    (pktOp b = 0x83) ∧ (resZero b 34 30 = true) ∧ ∃ q, (look s.gfe.rings n = some q) ∧ (q.fn = fn) ∧ (ctxLive s fn q.ctx = true) ∧ True) ∧
    (∃ (r : RingId) (x : Ring) (b : List Byte) (s s1 : State) (p : PktRef), (accepts s r x b s1 p) ∧ (s.ready = []) ∧ let n := fieldAt b 32 2
    (pktOp b = 0x83) ∧ (resZero b 34 30 = true) ∧ (look s.gfe.rings n = none) ∧ True) ∧
    (∃ (r : RingId) (x : Ring) (b : List Byte) (s s1 : State) (p : PktRef), (accepts s r x b s1 p) ∧ (s.ready = []) ∧ let fn := x.fn
    (pktOp b = 0x84) ∧ (resZero b 42 2 = true) ∧ (resZero b 56 8 = true) ∧ let ctx := fieldAt b 40 2
    let img := readHost s1 (fieldAt b 32 8) (fieldAt b 44 4)
    ∃ m k, (ctxLive s fn ctx = true) ∧ (fieldAt b 44 4 ≤ 2 ^ 20) ∧ (storeOk s1 fn ctx (fieldAt b 48 8) (fieldAt b 44 4)) ∧ (parseRoutine img (progLive s1 fn) = .ok m) ∧ (lowestFree s.gfe.routines 1 (2 ^ 32 - 1) = some k) ∧ True) ∧
    (∃ (r : RingId) (x : Ring) (b : List Byte) (s s1 : State) (p : PktRef), (accepts s r x b s1 p) ∧ (s.ready = []) ∧ let fn := x.fn
    (pktOp b = 0x84) ∧ (resZero b 42 2 = true) ∧ (resZero b 56 8 = true) ∧ let ctx := fieldAt b 40 2
    (ctxLive s fn ctx = false) ∧ True) ∧
    (∃ (r : RingId) (x : Ring) (b : List Byte) (s s1 : State) (p : PktRef), (accepts s r x b s1 p) ∧ (s.ready = []) ∧ let fn := x.fn
    (pktOp b = 0x85) ∧ (fieldAt b 56 1 < 2) ∧ (resZero b 57 7 = true) ∧ let k := fieldAt b 40 4
    let img := readHost s1 (fieldAt b 32 8) (fieldAt b 44 4)
    ∃ g q m, (curGen s fn k = some g) ∧ (look s.gfe.routines k = some q) ∧ (q.old = none) ∧ (ctxLive s fn g.ctx = true) ∧ ((fieldAt b 56 1).testBit 0 = true → ∃ pg, readPage s1 fn g = .ok pg) ∧ (fieldAt b 44 4 ≤ 2 ^ 20) ∧ (storeOk s1 fn g.ctx (fieldAt b 48 8) (fieldAt b 44 4)) ∧ (parseRoutine img (progLive s1 fn) = .ok m) ∧ True) ∧
    (∃ (r : RingId) (x : Ring) (b : List Byte) (s s1 : State) (p : PktRef), (accepts s r x b s1 p) ∧ (s.ready = []) ∧ let fn := x.fn
    (pktOp b = 0x85) ∧ (fieldAt b 56 1 < 2) ∧ (resZero b 57 7 = true) ∧ let k := fieldAt b 40 4
    (curGen s fn k = none) ∧ True) ∧
    (∃ (r : RingId) (x : Ring) (b : List Byte) (s s1 : State) (p : PktRef), (accepts s r x b s1 p) ∧ (s.ready = []) ∧ let fn := x.fn
    let h := fieldAt b 32 4
    (pktOp b = 0x86) ∧ (resZero b 36 28 = true) ∧ ∃ g, (curGen s fn h = some g) ∧ True) ∧
    (∃ (r : RingId) (x : Ring) (b : List Byte) (s s1 : State) (p : PktRef), (accepts s r x b s1 p) ∧ (s.ready = []) ∧ let fn := x.fn
    let h := fieldAt b 32 4
    (pktOp b = 0x86) ∧ (resZero b 36 28 = true) ∧ (curGen s fn h = none) ∧ True) ∧
    (∃ (r : RingId) (x : Ring) (b : List Byte) (s s1 : State) (p : PktRef), (accepts s r x b s1 p) ∧ (s.ready = []) ∧ let fn := x.fn
    (pktOp b = 0x87) ∧ (resZero b 42 2 = true) ∧ (resZero b 56 8 = true) ∧ let ctx := fieldAt b 40 2
    let img := readHost s1 (fieldAt b 32 8) (fieldAt b 44 4)
    ∃ k, (ctxLive s fn ctx = true) ∧ (128 ≤ fieldAt b 44 4) ∧ (fieldAt b 44 4 ≤ 64 + 2 ^ 20) ∧ (storeOk s1 fn ctx (fieldAt b 48 8) (fieldAt b 44 4)) ∧ (programOk img = true) ∧ (lowestFree s.gfe.programs 1 (2 ^ 32 - 1) = some k) ∧ True) ∧
    (∃ (r : RingId) (x : Ring) (b : List Byte) (s s1 : State) (p : PktRef), (accepts s r x b s1 p) ∧ (s.ready = []) ∧ let fn := x.fn
    (pktOp b = 0x87) ∧ (resZero b 42 2 = true) ∧ (resZero b 56 8 = true) ∧ let ctx := fieldAt b 40 2
    (ctxLive s fn ctx = false) ∧ True) ∧
    (∃ (r : RingId) (x : Ring) (b : List Byte) (s s1 : State) (p : PktRef), (accepts s r x b s1 p) ∧ (s.ready = []) ∧ let fn := x.fn
    let h := fieldAt b 32 4
    (pktOp b = 0x88) ∧ (resZero b 36 28 = true) ∧ (progLive s fn h = true) ∧ (programNamed s h = false) ∧ True) ∧
    (∃ (r : RingId) (x : Ring) (b : List Byte) (s s1 : State) (p : PktRef), (accepts s r x b s1 p) ∧ (s.ready = []) ∧ let fn := x.fn
    let h := fieldAt b 32 4
    (pktOp b = 0x88) ∧ (resZero b 36 28 = true) ∧ (progLive s fn h = false ∨ programNamed s h = true) ∧ True) :=
  ⟨⟨.admin 1, (pktRing (pkt 128 0 [(32, 8, 32768)])), (pkt 128 0 [(32, 8, 32768)]), admVd (pktRing (pkt 128 0 [(32, 8, 32768)])), takenSt (admVd (pktRing (pkt 128 0 [(32, 8, 32768)]))) (.admin 1) (pktRing (pkt 128 0 [(32, 8, 32768)])) (pkt 128 0 [(32, 8, 32768)]), takenP (admVd (pktRing (pkt 128 0 [(32, 8, 32768)]))) (.admin 1) (pktRing (pkt 128 0 [(32, 8, 32768)])) (pkt 128 0 [(32, 8, 32768)]), accepts_of _ _ _ _ (by decide +kernel), by decide +kernel, by decide +kernel, by decide +kernel, 0, by decide +kernel, by decide +kernel, by decide +kernel, trivial⟩,
   ⟨.admin 1, (pktRing (pkt 129 0 [(32, 2, 3)])), (pkt 129 0 [(32, 2, 3)]), admVd (pktRing (pkt 129 0 [(32, 2, 3)])), takenSt (admVd (pktRing (pkt 129 0 [(32, 2, 3)]))) (.admin 1) (pktRing (pkt 129 0 [(32, 2, 3)])) (pkt 129 0 [(32, 2, 3)]), takenP (admVd (pktRing (pkt 129 0 [(32, 2, 3)]))) (.admin 1) (pktRing (pkt 129 0 [(32, 2, 3)])) (pkt 129 0 [(32, 2, 3)]), accepts_of _ _ _ _ (by decide +kernel), by decide +kernel, by decide +kernel, by decide +kernel, by decide +kernel, trivial⟩,
   ⟨.admin 1, (pktRing (pkt 129 0 [(32, 2, 4)])), (pkt 129 0 [(32, 2, 4)]), admVd (pktRing (pkt 129 0 [(32, 2, 4)])), takenSt (admVd (pktRing (pkt 129 0 [(32, 2, 4)]))) (.admin 1) (pktRing (pkt 129 0 [(32, 2, 4)])) (pkt 129 0 [(32, 2, 4)]), takenP (admVd (pktRing (pkt 129 0 [(32, 2, 4)]))) (.admin 1) (pktRing (pkt 129 0 [(32, 2, 4)])) (pkt 129 0 [(32, 2, 4)]), accepts_of _ _ _ _ (by decide +kernel), by decide +kernel, by decide +kernel, by decide +kernel, by decide +kernel, trivial⟩,
   ⟨.admin 1, (pktRing (pkt 147 0 [(32, 2, 3), (34, 1, 1)])), (pkt 147 0 [(32, 2, 3), (34, 1, 1)]), admVd (pktRing (pkt 147 0 [(32, 2, 3), (34, 1, 1)])), takenSt (admVd (pktRing (pkt 147 0 [(32, 2, 3), (34, 1, 1)]))) (.admin 1) (pktRing (pkt 147 0 [(32, 2, 3), (34, 1, 1)])) (pkt 147 0 [(32, 2, 3), (34, 1, 1)]), takenP (admVd (pktRing (pkt 147 0 [(32, 2, 3), (34, 1, 1)]))) (.admin 1) (pktRing (pkt 147 0 [(32, 2, 3), (34, 1, 1)])) (pkt 147 0 [(32, 2, 3), (34, 1, 1)]), accepts_of _ _ _ _ (by decide +kernel), by decide +kernel, by decide +kernel, by decide +kernel, by decide +kernel, {}, by decide +kernel, by decide +kernel, trivial⟩,
   ⟨.admin 1, (pktRing (pkt 147 0 [(32, 2, 4095), (34, 1, 1)])), (pkt 147 0 [(32, 2, 4095), (34, 1, 1)]), admVd (pktRing (pkt 147 0 [(32, 2, 4095), (34, 1, 1)])), takenSt (admVd (pktRing (pkt 147 0 [(32, 2, 4095), (34, 1, 1)]))) (.admin 1) (pktRing (pkt 147 0 [(32, 2, 4095), (34, 1, 1)])) (pkt 147 0 [(32, 2, 4095), (34, 1, 1)]), takenP (admVd (pktRing (pkt 147 0 [(32, 2, 4095), (34, 1, 1)]))) (.admin 1) (pktRing (pkt 147 0 [(32, 2, 4095), (34, 1, 1)])) (pkt 147 0 [(32, 2, 4095), (34, 1, 1)]), accepts_of _ _ _ _ (by decide +kernel), by decide +kernel, by decide +kernel, by decide +kernel, by decide +kernel, by decide +kernel, trivial⟩,
   ⟨.admin 1, (pktRing (pkt 130 0 [(32, 2, 3), (34, 1, 16), (35, 1, 16), (36, 1, 3), (38, 2, 63), (56, 8, 65536)])), (pkt 130 0 [(32, 2, 3), (34, 1, 16), (35, 1, 16), (36, 1, 3), (38, 2, 63), (56, 8, 65536)]), admVd (pktRing (pkt 130 0 [(32, 2, 3), (34, 1, 16), (35, 1, 16), (36, 1, 3), (38, 2, 63), (56, 8, 65536)])), takenSt (admVd (pktRing (pkt 130 0 [(32, 2, 3), (34, 1, 16), (35, 1, 16), (36, 1, 3), (38, 2, 63), (56, 8, 65536)]))) (.admin 1) (pktRing (pkt 130 0 [(32, 2, 3), (34, 1, 16), (35, 1, 16), (36, 1, 3), (38, 2, 63), (56, 8, 65536)])) (pkt 130 0 [(32, 2, 3), (34, 1, 16), (35, 1, 16), (36, 1, 3), (38, 2, 63), (56, 8, 65536)]), takenP (admVd (pktRing (pkt 130 0 [(32, 2, 3), (34, 1, 16), (35, 1, 16), (36, 1, 3), (38, 2, 63), (56, 8, 65536)]))) (.admin 1) (pktRing (pkt 130 0 [(32, 2, 3), (34, 1, 16), (35, 1, 16), (36, 1, 3), (38, 2, 63), (56, 8, 65536)])) (pkt 130 0 [(32, 2, 3), (34, 1, 16), (35, 1, 16), (36, 1, 3), (38, 2, 63), (56, 8, 65536)]), accepts_of _ _ _ _ (by decide +kernel), by decide +kernel, by decide +kernel, by decide +kernel, by decide +kernel, by decide +kernel, by decide +kernel, by decide +kernel, by decide +kernel, by decide +kernel, by decide +kernel, by decide +kernel, by decide +kernel, 0, 16, 17, ((takePage (takenSt (admVd (pktRing (pkt 130 0 [(32, 2, 3), (34, 1, 16), (35, 1, 16), (36, 1, 3), (38, 2, 63), (56, 8, 65536)]))) (.admin 1) (pktRing (pkt 130 0 [(32, 2, 3), (34, 1, 16), (35, 1, 16), (36, 1, 3), (38, 2, 63), (56, 8, 65536)])) (pkt 130 0 [(32, 2, 3), (34, 1, 16), (35, 1, 16), (36, 1, 3), (38, 2, 63), (56, 8, 65536)])) 1 (.ringSq 0)).getD (0, {})).2, ((takePage (((takePage (takenSt (admVd (pktRing (pkt 130 0 [(32, 2, 3), (34, 1, 16), (35, 1, 16), (36, 1, 3), (38, 2, 63), (56, 8, 65536)]))) (.admin 1) (pktRing (pkt 130 0 [(32, 2, 3), (34, 1, 16), (35, 1, 16), (36, 1, 3), (38, 2, 63), (56, 8, 65536)])) (pkt 130 0 [(32, 2, 3), (34, 1, 16), (35, 1, 16), (36, 1, 3), (38, 2, 63), (56, 8, 65536)])) 1 (.ringSq 0)).getD (0, {})).2) 1 (.ringCq 0)).getD (0, {})).2, by decide +kernel, by decide +kernel, page_of _ _ _ _ _ (by decide +kernel), page_of _ _ _ _ _ (by decide +kernel), trivial⟩,
   ⟨.admin 1, (pktRing (pkt 130 0 [(32, 2, 4), (34, 1, 6), (35, 1, 6)])), (pkt 130 0 [(32, 2, 4), (34, 1, 6), (35, 1, 6)]), admVd (pktRing (pkt 130 0 [(32, 2, 4), (34, 1, 6), (35, 1, 6)])), takenSt (admVd (pktRing (pkt 130 0 [(32, 2, 4), (34, 1, 6), (35, 1, 6)]))) (.admin 1) (pktRing (pkt 130 0 [(32, 2, 4), (34, 1, 6), (35, 1, 6)])) (pkt 130 0 [(32, 2, 4), (34, 1, 6), (35, 1, 6)]), takenP (admVd (pktRing (pkt 130 0 [(32, 2, 4), (34, 1, 6), (35, 1, 6)]))) (.admin 1) (pktRing (pkt 130 0 [(32, 2, 4), (34, 1, 6), (35, 1, 6)])) (pkt 130 0 [(32, 2, 4), (34, 1, 6), (35, 1, 6)]), accepts_of _ _ _ _ (by decide +kernel), by decide +kernel, by decide +kernel, by decide +kernel, by decide +kernel, by decide +kernel, by decide +kernel, by decide +kernel, by decide +kernel, by decide +kernel, by decide +kernel, by decide +kernel, by decide +kernel, by decide +kernel, trivial⟩,
   ⟨.admin 1, (pktRing (pkt 131 0 [(32, 2, 4)])), (pkt 131 0 [(32, 2, 4)]), admVd (pktRing (pkt 131 0 [(32, 2, 4)])), takenSt (admVd (pktRing (pkt 131 0 [(32, 2, 4)]))) (.admin 1) (pktRing (pkt 131 0 [(32, 2, 4)])) (pkt 131 0 [(32, 2, 4)]), takenP (admVd (pktRing (pkt 131 0 [(32, 2, 4)]))) (.admin 1) (pktRing (pkt 131 0 [(32, 2, 4)])) (pkt 131 0 [(32, 2, 4)]), accepts_of _ _ _ _ (by decide +kernel), by decide +kernel, by decide +kernel, by decide +kernel, { fn := 1, ctx := 3 }, by decide +kernel, by decide +kernel, by decide +kernel, trivial⟩,
   ⟨.admin 1, (pktRing (pkt 131 0 [(32, 2, 5)])), (pkt 131 0 [(32, 2, 5)]), admVd (pktRing (pkt 131 0 [(32, 2, 5)])), takenSt (admVd (pktRing (pkt 131 0 [(32, 2, 5)]))) (.admin 1) (pktRing (pkt 131 0 [(32, 2, 5)])) (pkt 131 0 [(32, 2, 5)]), takenP (admVd (pktRing (pkt 131 0 [(32, 2, 5)]))) (.admin 1) (pktRing (pkt 131 0 [(32, 2, 5)])) (pkt 131 0 [(32, 2, 5)]), accepts_of _ _ _ _ (by decide +kernel), by decide +kernel, by decide +kernel, by decide +kernel, by decide +kernel, trivial⟩,
   ⟨.admin 1, (pktRing (pkt 132 0 [(32, 8, 20480), (40, 2, 3), (44, 4, 4096), (48, 8, 2097152)])), (pkt 132 0 [(32, 8, 20480), (40, 2, 3), (44, 4, 4096), (48, 8, 2097152)]), admVd (pktRing (pkt 132 0 [(32, 8, 20480), (40, 2, 3), (44, 4, 4096), (48, 8, 2097152)])), takenSt (admVd (pktRing (pkt 132 0 [(32, 8, 20480), (40, 2, 3), (44, 4, 4096), (48, 8, 2097152)]))) (.admin 1) (pktRing (pkt 132 0 [(32, 8, 20480), (40, 2, 3), (44, 4, 4096), (48, 8, 2097152)])) (pkt 132 0 [(32, 8, 20480), (40, 2, 3), (44, 4, 4096), (48, 8, 2097152)]), takenP (admVd (pktRing (pkt 132 0 [(32, 8, 20480), (40, 2, 3), (44, 4, 4096), (48, 8, 2097152)]))) (.admin 1) (pktRing (pkt 132 0 [(32, 8, 20480), (40, 2, 3), (44, 4, 4096), (48, 8, 2097152)])) (pkt 132 0 [(32, 8, 20480), (40, 2, 3), (44, 4, 4096), (48, 8, 2097152)]), accepts_of _ _ _ _ (by decide +kernel), by decide +kernel, by decide +kernel, by decide +kernel, by decide +kernel, okVal (parseRoutine (readHost (takenSt (admVd (pktRing (pkt 132 0 [(32, 8, 20480), (40, 2, 3), (44, 4, 4096), (48, 8, 2097152)]))) (.admin 1) (pktRing (pkt 132 0 [(32, 8, 20480), (40, 2, 3), (44, 4, 4096), (48, 8, 2097152)])) (pkt 132 0 [(32, 8, 20480), (40, 2, 3), (44, 4, 4096), (48, 8, 2097152)])) (fieldAt (pkt 132 0 [(32, 8, 20480), (40, 2, 3), (44, 4, 4096), (48, 8, 2097152)]) 32 8) (fieldAt (pkt 132 0 [(32, 8, 20480), (40, 2, 3), (44, 4, 4096), (48, 8, 2097152)]) 44 4)) (progLive (takenSt (admVd (pktRing (pkt 132 0 [(32, 8, 20480), (40, 2, 3), (44, 4, 4096), (48, 8, 2097152)]))) (.admin 1) (pktRing (pkt 132 0 [(32, 8, 20480), (40, 2, 3), (44, 4, 4096), (48, 8, 2097152)])) (pkt 132 0 [(32, 8, 20480), (40, 2, 3), (44, 4, 4096), (48, 8, 2097152)])) ((pktRing (pkt 132 0 [(32, 8, 20480), (40, 2, 3), (44, 4, 4096), (48, 8, 2097152)]))).fn)) {}, 1, by decide +kernel, by decide +kernel, rangeRes_of _ (by decide +kernel), okVal_of _ _ (by decide +kernel), by decide +kernel, trivial⟩,
   ⟨.admin 1, (pktRing (pkt 132 0 [(40, 2, 4)])), (pkt 132 0 [(40, 2, 4)]), admVd (pktRing (pkt 132 0 [(40, 2, 4)])), takenSt (admVd (pktRing (pkt 132 0 [(40, 2, 4)]))) (.admin 1) (pktRing (pkt 132 0 [(40, 2, 4)])) (pkt 132 0 [(40, 2, 4)]), takenP (admVd (pktRing (pkt 132 0 [(40, 2, 4)]))) (.admin 1) (pktRing (pkt 132 0 [(40, 2, 4)])) (pkt 132 0 [(40, 2, 4)]), accepts_of _ _ _ _ (by decide +kernel), by decide +kernel, by decide +kernel, by decide +kernel, by decide +kernel, by decide +kernel, trivial⟩,
   ⟨.admin 1, (pktRing (pkt 133 0 [(32, 8, 20480), (40, 4, 2), (44, 4, 4096), (48, 8, 2097152), (56, 1, 1)])), (pkt 133 0 [(32, 8, 20480), (40, 4, 2), (44, 4, 4096), (48, 8, 2097152), (56, 1, 1)]), admVd (pktRing (pkt 133 0 [(32, 8, 20480), (40, 4, 2), (44, 4, 4096), (48, 8, 2097152), (56, 1, 1)])), takenSt (admVd (pktRing (pkt 133 0 [(32, 8, 20480), (40, 4, 2), (44, 4, 4096), (48, 8, 2097152), (56, 1, 1)]))) (.admin 1) (pktRing (pkt 133 0 [(32, 8, 20480), (40, 4, 2), (44, 4, 4096), (48, 8, 2097152), (56, 1, 1)])) (pkt 133 0 [(32, 8, 20480), (40, 4, 2), (44, 4, 4096), (48, 8, 2097152), (56, 1, 1)]), takenP (admVd (pktRing (pkt 133 0 [(32, 8, 20480), (40, 4, 2), (44, 4, 4096), (48, 8, 2097152), (56, 1, 1)]))) (.admin 1) (pktRing (pkt 133 0 [(32, 8, 20480), (40, 4, 2), (44, 4, 4096), (48, 8, 2097152), (56, 1, 1)])) (pkt 133 0 [(32, 8, 20480), (40, 4, 2), (44, 4, 4096), (48, 8, 2097152), (56, 1, 1)]), accepts_of _ _ _ _ (by decide +kernel), by decide +kernel, by decide +kernel, by decide +kernel, by decide +kernel, { ctx := 3, store := 0x100000, len := 64 }, { fn := 1, cur := some { ctx := 3, store := 0x100000, len := 64 } }, okVal (parseRoutine (readHost (takenSt (admVd (pktRing (pkt 133 0 [(32, 8, 20480), (40, 4, 2), (44, 4, 4096), (48, 8, 2097152), (56, 1, 1)]))) (.admin 1) (pktRing (pkt 133 0 [(32, 8, 20480), (40, 4, 2), (44, 4, 4096), (48, 8, 2097152), (56, 1, 1)])) (pkt 133 0 [(32, 8, 20480), (40, 4, 2), (44, 4, 4096), (48, 8, 2097152), (56, 1, 1)])) (fieldAt (pkt 133 0 [(32, 8, 20480), (40, 4, 2), (44, 4, 4096), (48, 8, 2097152), (56, 1, 1)]) 32 8) (fieldAt (pkt 133 0 [(32, 8, 20480), (40, 4, 2), (44, 4, 4096), (48, 8, 2097152), (56, 1, 1)]) 44 4)) (progLive (takenSt (admVd (pktRing (pkt 133 0 [(32, 8, 20480), (40, 4, 2), (44, 4, 4096), (48, 8, 2097152), (56, 1, 1)]))) (.admin 1) (pktRing (pkt 133 0 [(32, 8, 20480), (40, 4, 2), (44, 4, 4096), (48, 8, 2097152), (56, 1, 1)])) (pkt 133 0 [(32, 8, 20480), (40, 4, 2), (44, 4, 4096), (48, 8, 2097152), (56, 1, 1)])) ((pktRing (pkt 133 0 [(32, 8, 20480), (40, 4, 2), (44, 4, 4096), (48, 8, 2097152), (56, 1, 1)]))).fn)) {}, by decide +kernel, by decide +kernel, by decide +kernel, by decide +kernel, fun _ => ⟨_, okVal_of _ [] (by decide +kernel)⟩, by decide +kernel, rangeRes_of _ (by decide +kernel), okVal_of _ _ (by decide +kernel), trivial⟩,
   ⟨.admin 1, (pktRing (pkt 133 0 [(40, 4, 9)])), (pkt 133 0 [(40, 4, 9)]), admVd (pktRing (pkt 133 0 [(40, 4, 9)])), takenSt (admVd (pktRing (pkt 133 0 [(40, 4, 9)]))) (.admin 1) (pktRing (pkt 133 0 [(40, 4, 9)])) (pkt 133 0 [(40, 4, 9)]), takenP (admVd (pktRing (pkt 133 0 [(40, 4, 9)]))) (.admin 1) (pktRing (pkt 133 0 [(40, 4, 9)])) (pkt 133 0 [(40, 4, 9)]), accepts_of _ _ _ _ (by decide +kernel), by decide +kernel, by decide +kernel, by decide +kernel, by decide +kernel, by decide +kernel, trivial⟩,
   ⟨.admin 1, (pktRing (pkt 134 0 [(32, 4, 2)])), (pkt 134 0 [(32, 4, 2)]), admVd (pktRing (pkt 134 0 [(32, 4, 2)])), takenSt (admVd (pktRing (pkt 134 0 [(32, 4, 2)]))) (.admin 1) (pktRing (pkt 134 0 [(32, 4, 2)])) (pkt 134 0 [(32, 4, 2)]), takenP (admVd (pktRing (pkt 134 0 [(32, 4, 2)]))) (.admin 1) (pktRing (pkt 134 0 [(32, 4, 2)])) (pkt 134 0 [(32, 4, 2)]), accepts_of _ _ _ _ (by decide +kernel), by decide +kernel, by decide +kernel, by decide +kernel, { ctx := 3, store := 0x100000, len := 64 }, by decide +kernel, trivial⟩,
   ⟨.admin 1, (pktRing (pkt 134 0 [(32, 4, 9)])), (pkt 134 0 [(32, 4, 9)]), admVd (pktRing (pkt 134 0 [(32, 4, 9)])), takenSt (admVd (pktRing (pkt 134 0 [(32, 4, 9)]))) (.admin 1) (pktRing (pkt 134 0 [(32, 4, 9)])) (pkt 134 0 [(32, 4, 9)]), takenP (admVd (pktRing (pkt 134 0 [(32, 4, 9)]))) (.admin 1) (pktRing (pkt 134 0 [(32, 4, 9)])) (pkt 134 0 [(32, 4, 9)]), accepts_of _ _ _ _ (by decide +kernel), by decide +kernel, by decide +kernel, by decide +kernel, by decide +kernel, trivial⟩,
   ⟨.admin 1, (pktRing (pkt 135 0 [(32, 8, 28672), (40, 2, 3), (44, 4, 128), (48, 8, 2097152)])), (pkt 135 0 [(32, 8, 28672), (40, 2, 3), (44, 4, 128), (48, 8, 2097152)]), admVd (pktRing (pkt 135 0 [(32, 8, 28672), (40, 2, 3), (44, 4, 128), (48, 8, 2097152)])), takenSt (admVd (pktRing (pkt 135 0 [(32, 8, 28672), (40, 2, 3), (44, 4, 128), (48, 8, 2097152)]))) (.admin 1) (pktRing (pkt 135 0 [(32, 8, 28672), (40, 2, 3), (44, 4, 128), (48, 8, 2097152)])) (pkt 135 0 [(32, 8, 28672), (40, 2, 3), (44, 4, 128), (48, 8, 2097152)]), takenP (admVd (pktRing (pkt 135 0 [(32, 8, 28672), (40, 2, 3), (44, 4, 128), (48, 8, 2097152)]))) (.admin 1) (pktRing (pkt 135 0 [(32, 8, 28672), (40, 2, 3), (44, 4, 128), (48, 8, 2097152)])) (pkt 135 0 [(32, 8, 28672), (40, 2, 3), (44, 4, 128), (48, 8, 2097152)]), accepts_of _ _ _ _ (by decide +kernel), by decide +kernel, by decide +kernel, by decide +kernel, by decide +kernel, 1, by decide +kernel, by decide +kernel, by decide +kernel, rangeRes_of _ (by decide +kernel), by decide +kernel, by decide +kernel, trivial⟩,
   ⟨.admin 1, (pktRing (pkt 135 0 [(40, 2, 4)])), (pkt 135 0 [(40, 2, 4)]), admVd (pktRing (pkt 135 0 [(40, 2, 4)])), takenSt (admVd (pktRing (pkt 135 0 [(40, 2, 4)]))) (.admin 1) (pktRing (pkt 135 0 [(40, 2, 4)])) (pkt 135 0 [(40, 2, 4)]), takenP (admVd (pktRing (pkt 135 0 [(40, 2, 4)]))) (.admin 1) (pktRing (pkt 135 0 [(40, 2, 4)])) (pkt 135 0 [(40, 2, 4)]), accepts_of _ _ _ _ (by decide +kernel), by decide +kernel, by decide +kernel, by decide +kernel, by decide +kernel, by decide +kernel, trivial⟩,
   ⟨.admin 1, (pktRing (pkt 136 0 [(32, 4, 3)])), (pkt 136 0 [(32, 4, 3)]), admVd (pktRing (pkt 136 0 [(32, 4, 3)])), takenSt (admVd (pktRing (pkt 136 0 [(32, 4, 3)]))) (.admin 1) (pktRing (pkt 136 0 [(32, 4, 3)])) (pkt 136 0 [(32, 4, 3)]), takenP (admVd (pktRing (pkt 136 0 [(32, 4, 3)]))) (.admin 1) (pktRing (pkt 136 0 [(32, 4, 3)])) (pkt 136 0 [(32, 4, 3)]), accepts_of _ _ _ _ (by decide +kernel), by decide +kernel, by decide +kernel, by decide +kernel, by decide +kernel, by decide +kernel, trivial⟩,
   ⟨.admin 1, (pktRing (pkt 136 0 [(32, 4, 4)])), (pkt 136 0 [(32, 4, 4)]), admVd (pktRing (pkt 136 0 [(32, 4, 4)])), takenSt (admVd (pktRing (pkt 136 0 [(32, 4, 4)]))) (.admin 1) (pktRing (pkt 136 0 [(32, 4, 4)])) (pkt 136 0 [(32, 4, 4)]), takenP (admVd (pktRing (pkt 136 0 [(32, 4, 4)]))) (.admin 1) (pktRing (pkt 136 0 [(32, 4, 4)])) (pkt 136 0 [(32, 4, 4)]), accepts_of _ _ _ _ (by decide +kernel), by decide +kernel, by decide +kernel, by decide +kernel, .inl (by decide +kernel), trivial⟩⟩

/-- The device of admVd with a task, a work queue, services, a queue pair, a Lift queue and a memory object, and more descriptors. -/
def objVd (x : Ring) : State :=
  { admVd x with
    gfe := { (admVd x).gfe with tasks := [(6, aTask)], wqs := [(4, aWq)], services := [(2, reqSvc), (3, { reqSvc with st := .run })], qps := [(8, reqQp)] }
    talko := { liftqs := [(4, aLiftQ)] }
    obj := { (admVd x).obj with objs := [(5, { size := 65536 })], refs := [(refKey 1 9, { ctx := 3, obj := 5, va := 0x100000 })] }
    host := cellsAt 0x9000 ([2] ++ List.replicate 87 0 ++ natLe 4 2 ++ natLe 4 256 ++ natLe 4 1000 ++ natLe 4 1048576 ++ natLe 4 65536)
      ++ cellsAt 0xA000 (natLe 4 2 ++ natLe 2 3 ++ [4, 16] ++ natLe 8 0 ++ natLe 8 0x1000 ++ natLe 4 1 ++ natLe 4 1 ++ natLe 2 4096 ++ [1, 63, 0xFF, 0xFF, 0xFF])
      ++ cellsAt 0xB000 ([1, 1, 3, 0] ++ natLe 4 0 ++ natLe 8 0x200000 ++ natLe 8 65536 ++ natLe 4 65535)
      ++ cellsAt 0xC000 ([2, 0, 3, 0] ++ natLe 4 9 ++ natLe 8 0x200000 ++ natLe 8 65536) }
def runningVd (x : Ring) : State := { objVd x with gfe := { (objVd x).gfe with tasks := [(6, { aTask with st := .waiting })], wqs := [(4, { aWq with task := some 6 })] } }
def rangeVal (x : RangeRes) : List (Bool × Nat × Nat) := match x with | .ok ps => ps | _ => []

theorem rangeVal_of (x : RangeRes) (h : (match x with | .ok _ => true | _ => false) = true) : x = .ok (rangeVal x) := by
  cases x <;> simp [rangeVal] at h ⊢

theorem find_zero (p : Nat → Bool) (n : Nat) (h : p 0 = true) : (List.range (n + 1)).find? p = some 0 := by
  rw [List.range_succ_eq_map, List.find?_cons_of_pos h]

theorem find_one (p : Nat → Bool) (n : Nat) (h0 : p 0 = false) (h : p 1 = true) : (List.range (n + 2)).find? p = some 1 := by
  rw [List.range_succ_eq_map, List.find?_cons_of_neg (by simp [h0]), List.range_succ_eq_map, List.map_cons, List.find?_cons_of_pos h]

/-- States and operands that meet the hypotheses of every clause of TasksServicesAndQueues. -/
theorem wit_TasksServicesAndQueues :
    (∃ (r : RingId) (x : Ring) (b : List Byte) (s s1 : State) (p : PktRef), (accepts s r x b s1 p) ∧ let fn := x.fn
    let n := fieldAt b 32 2
    (pktOp b = 0x8B) ∧ (4 ≤ fieldAt b 34 1) ∧ (fieldAt b 34 1 ≤ 12) ∧ (fieldAt b 35 1 < 2) ∧ (resZero b 36 4 = true) ∧ (resZero b 48 16 = true) ∧ (fieldAt b 40 8 + 64 + 64 * 2 ^ fieldAt b 34 1 ≤ 2 ^ 55) ∧ ∃ ps k, (ctxLive s fn n = true) ∧ (devRange s1 fn n (fieldAt b 40 8) (64 + 64 * 2 ^ fieldAt b 34 1) true = .ok ps) ∧ (lowestFree s.gfe.wqs 0 4096 = some k) ∧ (fieldAt b 35 1 = 0) ∧ True) ∧
    (∃ (r : RingId) (x : Ring) (b : List Byte) (s s1 : State) (p : PktRef), (accepts s r x b s1 p) ∧ let fn := x.fn
    let n := fieldAt b 32 2
    (pktOp b = 0x8B) ∧ (4 ≤ fieldAt b 34 1) ∧ (fieldAt b 34 1 ≤ 12) ∧ (fieldAt b 35 1 < 2) ∧ (resZero b 36 4 = true) ∧ (resZero b 48 16 = true) ∧ (fieldAt b 40 8 + 64 + 64 * 2 ^ fieldAt b 34 1 ≤ 2 ^ 55) ∧ ∃ ps k, (ctxLive s fn n = true) ∧ (devRange s1 fn n (fieldAt b 40 8) (64 + 64 * 2 ^ fieldAt b 34 1) true = .ok ps) ∧ (lowestFree s.gfe.wqs 0 4096 = some k) ∧ ∃ pg s2, (fieldAt b 35 1 = 1) ∧ (takePage s1 fn (.wq k) = some (pg, s2)) ∧ True) ∧
    (∃ (r : RingId) (x : Ring) (b : List Byte) (s s1 : State) (p : PktRef), (accepts s r x b s1 p) ∧ let fn := x.fn
    let n := fieldAt b 32 2
    (pktOp b = 0x8B) ∧ (4 ≤ fieldAt b 34 1) ∧ (fieldAt b 34 1 ≤ 12) ∧ (fieldAt b 35 1 < 2) ∧ (resZero b 36 4 = true) ∧ (resZero b 48 16 = true) ∧ (fieldAt b 40 8 + 64 + 64 * 2 ^ fieldAt b 34 1 ≤ 2 ^ 55) ∧ (ctxLive s fn n = false) ∧ True) ∧
    (∃ (r : RingId) (x : Ring) (b : List Byte) (s s1 : State) (p : PktRef), (accepts s r x b s1 p) ∧ let fn := x.fn
    let n := fieldAt b 32 2
    (pktOp b = 0x8C) ∧ (resZero b 34 30 = true) ∧ ∃ q, (s.wq? n = some q) ∧ (q.fn = fn) ∧ (ctxLive s fn q.ctx = true) ∧ True) ∧
    (∃ (r : RingId) (x : Ring) (b : List Byte) (s s1 : State) (p : PktRef), (accepts s r x b s1 p) ∧ let fn := x.fn
    let n := fieldAt b 32 2
    (pktOp b = 0x8C) ∧ (resZero b 34 30 = true) ∧ ∃ q, (s.wq? n = some q) ∧ (q.fn = fn) ∧ (ctxLive s fn q.ctx = true) ∧ (q.task = none) ∧ True) ∧
    (∃ (r : RingId) (x : Ring) (b : List Byte) (s s1 : State) (p : PktRef), (accepts s r x b s1 p) ∧ let n := fieldAt b 32 2
    (pktOp b = 0x8C) ∧ (resZero b 34 30 = true) ∧ (s.wq? n = none) ∧ True) ∧
    (∃ (r : RingId) (x : Ring) (b : List Byte) (s s1 : State) (p : PktRef), (accepts s r x b s1 p) ∧ let fn := x.fn
    let h := fieldAt b 32 4
    (pktOp b = 0x89) ∧ (fieldAt b 42 2 ≤ 4096) ∧ (resZero b 44 4 = true) ∧ (fieldAt b 48 8 < 2 ^ 55) ∧ (resZero b 56 8 = true) ∧ let w := fieldAt b 36 2
    let e := fieldAt b 38 2
    let su := fieldAt b 40 2
    ∃ g q par k m, (look s.gfe.programs h = some g) ∧ (s.wq? w = some q) ∧ (g.fn = fn) ∧ (q.fn = fn) ∧ (ctxLive s fn q.ctx = true) ∧ (q.task = none) ∧ (taskEngine s fn e = true) ∧ (coreTasks s (engCore e) < 2) ∧ (engTask s e = none) ∧ (su = 0xFFFF ∨ taskEngine s fn su = true ∧ coreCg (engCore su) ≠ coreCg (engCore e) ∧ coreTasks s (engCore su) < 2) ∧ (readParam s1 fn q.ctx (fieldAt b 48 8) (fieldAt b 42 2) = .ok par) ∧ ((s.eng e).run = none) ∧ (freeSlot s1 (engCore e) = some k) ∧ (lowestFree s.gfe.tasks 1 (2 ^ 32) = some m) ∧ True) ∧
    (∃ (r : RingId) (x : Ring) (b : List Byte) (s s1 : State) (p : PktRef), (accepts s r x b s1 p) ∧ let h := fieldAt b 32 4
    (pktOp b = 0x89) ∧ (fieldAt b 42 2 ≤ 4096) ∧ (resZero b 44 4 = true) ∧ (fieldAt b 48 8 < 2 ^ 55) ∧ (resZero b 56 8 = true) ∧ let w := fieldAt b 36 2
    (look s.gfe.programs h = none ∨ s.wq? w = none) ∧ True) ∧
    (∃ (r : RingId) (x : Ring) (b : List Byte) (s s1 : State) (p : PktRef), (accepts s r x b s1 p) ∧ let fn := x.fn
    let h := fieldAt b 32 4
    (pktOp b = 0x8A) ∧ (resZero b 36 28 = true) ∧ ∃ k, (s.task? h = some k) ∧ (k.fn = fn) ∧ (k.st = .waiting) ∧ True) ∧
    (∃ (r : RingId) (x : Ring) (b : List Byte) (s s1 : State) (p : PktRef), (accepts s r x b s1 p) ∧ let fn := x.fn
    let h := fieldAt b 32 4
    (pktOp b = 0x8A) ∧ (resZero b 36 28 = true) ∧ ∃ k, (s.task? h = some k) ∧ (k.fn = fn) ∧ (k.st ≠ .waiting) ∧ True) ∧
    (∃ (r : RingId) (x : Ring) (b : List Byte) (s s1 : State) (p : PktRef), (accepts s r x b s1 p) ∧ let h := fieldAt b 32 4
    (pktOp b = 0x8A) ∧ (resZero b 36 28 = true) ∧ (s.task? h = none) ∧ True) ∧
    (∃ (r : RingId) (x : Ring) (b : List Byte) (s s1 : State) (p : PktRef), (accepts s r x b s1 p) ∧ let fn := x.fn
    (pktOp b = 0x8D) ∧ (resZero b 42 22 = true) ∧ let ctx := fieldAt b 40 2
    let d := readHost s1 (fieldAt b 32 8) 128
    ∃ k, (ctxLive s fn ctx = true) ∧ (svcBad d = none) ∧ ((curGen s fn (fieldAt d 88 4)).isSome = true) ∧ ((s.gfe.services.filter (fun q => q.2.d.vd = fn)).length < 16) ∧ (lowestFree s.gfe.services 1 (2 ^ 32 - 1) = some k) ∧ True) ∧
    (∃ (r : RingId) (x : Ring) (b : List Byte) (s s1 : State) (p : PktRef), (accepts s r x b s1 p) ∧ let fn := x.fn
    (pktOp b = 0x8D) ∧ (resZero b 42 22 = true) ∧ let ctx := fieldAt b 40 2
    (ctxLive s fn ctx = false) ∧ True) ∧
    (∃ (r : RingId) (x : Ring) (b : List Byte) (s s1 : State) (p : PktRef), (accepts s r x b s1 p) ∧ let fn := x.fn
    let h := fieldAt b 32 4
    (pktOp b = 0x8E) ∧ (resZero b 36 28 = true) ∧ ∃ v, (s.service? h = some v) ∧ (v.d.fn = fn) ∧ (v.dereg = none) ∧ True) ∧
    (∃ (r : RingId) (x : Ring) (b : List Byte) (s s1 : State) (p : PktRef), (accepts s r x b s1 p) ∧ let fn := x.fn
    let h := fieldAt b 32 4
    (pktOp b = 0x8E) ∧ (resZero b 36 28 = true) ∧ ∃ v, (s.service? h = some v) ∧ (v.d.fn = fn) ∧ (v.dereg = none) ∧ (stepRunning { v with dereg := some p } = true) ∧ (s.ready = []) ∧ True) ∧
    (∃ (r : RingId) (x : Ring) (b : List Byte) (s s1 : State) (p : PktRef), (accepts s r x b s1 p) ∧ let h := fieldAt b 32 4
    (pktOp b = 0x8E) ∧ (resZero b 36 28 = true) ∧ (s.service? h = none) ∧ True) ∧
    (∃ (r : RingId) (x : Ring) (b : List Byte) (s s1 : State) (p : PktRef), (accepts s r x b s1 p) ∧ let fn := x.fn
    (pktOp b = 0x8F) ∧ (resZero b 40 24 = true) ∧ let d := readHost s1 (fieldAt b 32 8) 64
    ∃ k rp sp s2 s3, (qpBad s1 fn d = none) ∧ (lowestFree s.gfe.qps 0 4096 = some k) ∧ (takePage s1 fn (.qpReq k) = some (rp, s2)) ∧ (takePage s2 fn (.qpRsp k) = some (sp, s3)) ∧ True) ∧
    (∃ (r : RingId) (x : Ring) (b : List Byte) (s s1 : State) (p : PktRef), (accepts s r x b s1 p) ∧ let fn := x.fn
    let n := fieldAt b 32 2
    (pktOp b = 0x90) ∧ (resZero b 34 30 = true) ∧ ∃ q, (s.qp? n = some q) ∧ (q.fn = fn) ∧ (ctxLive s fn q.ctx = true) ∧ True) ∧
    (∃ (r : RingId) (x : Ring) (b : List Byte) (s s1 : State) (p : PktRef), (accepts s r x b s1 p) ∧ let n := fieldAt b 32 2
    (pktOp b = 0x90) ∧ (resZero b 34 30 = true) ∧ (s.qp? n = none) ∧ True) ∧
    (∃ (r : RingId) (x : Ring) (b : List Byte) (s s1 : State) (p : PktRef), (accepts s r x b s1 p) ∧ let fn := x.fn
    let n := fieldAt b 32 2
    (pktOp b = 0x91) ∧ (fieldAt b 34 1 ≤ 23) ∧ (4 ≤ fieldAt b 35 1) ∧ (fieldAt b 35 1 ≤ 12) ∧ (resZero b 36 4 = true) ∧ (fieldAt b 40 8 < 2 ^ 55) ∧ (fieldAt b 48 8 < 2 ^ 55) ∧ (resZero b 56 8 = true) ∧ ∃ k pg s2, (ctxLive s fn n = true) ∧ (s.portVd (fieldAt b 34 1) = some fn) ∧ ((s.talko.liftqs.filter (fun q => q.2.port = fieldAt b 34 1)).length < 64) ∧ (lowestFree s.talko.liftqs 0 1536 = some k) ∧ (takePage s1 fn (.liftq k) = some (pg, s2)) ∧ True) ∧
    (∃ (r : RingId) (x : Ring) (b : List Byte) (s s1 : State) (p : PktRef), (accepts s r x b s1 p) ∧ let fn := x.fn
    let n := fieldAt b 32 2
    (pktOp b = 0x91) ∧ (fieldAt b 34 1 ≤ 23) ∧ (4 ≤ fieldAt b 35 1) ∧ (fieldAt b 35 1 ≤ 12) ∧ (resZero b 36 4 = true) ∧ (fieldAt b 40 8 < 2 ^ 55) ∧ (fieldAt b 48 8 < 2 ^ 55) ∧ (resZero b 56 8 = true) ∧ (ctxLive s fn n = true) ∧ (s.portVd (fieldAt b 34 1) ≠ some fn) ∧ True) ∧
    (∃ (r : RingId) (x : Ring) (b : List Byte) (s s1 : State) (p : PktRef), (accepts s r x b s1 p) ∧ let fn := x.fn
    let n := fieldAt b 32 2
    (pktOp b = 0x92) ∧ (resZero b 34 30 = true) ∧ ∃ q, (s.liftq? n = some q) ∧ (q.fn = fn) ∧ (ctxLive s fn q.ctx = true) ∧ True) ∧
    (∃ (r : RingId) (x : Ring) (b : List Byte) (s s1 : State) (p : PktRef), (accepts s r x b s1 p) ∧ let n := fieldAt b 32 2
    (pktOp b = 0x92) ∧ (resZero b 34 30 = true) ∧ (s.liftq? n = none) ∧ True) ∧
    (∃ (r : RingId) (x : Ring) (b : List Byte) (s s1 : State) (p : PktRef), (accepts s r x b s1 p) ∧ let fn := x.fn
    (pktOp b = 0x94) ∧ (resZero b 40 24 = true) ∧ let d := readHost s1 (fieldAt b 32 8) 64
    ∃ k o, (memobjBad s1 fn d = none) ∧ (s.obj.refs.length < 1048576) ∧ ((s.obj.refs.filter (fun q => q.1 / 2 ^ 32 = fn)).length < 262144) ∧ ((List.range 262145).find? (fun j => j ≠ 0 && !has s.obj.refs (refKey fn j)) = some k) ∧ ((List.range 1048577).find? (fun j => !has s.obj.objs j) = some o) ∧ (fieldAt d 0 1 = 1) ∧ True) ∧
    (∃ (r : RingId) (x : Ring) (b : List Byte) (s s1 : State) (p : PktRef), (accepts s r x b s1 p) ∧ let fn := x.fn
    (pktOp b = 0x94) ∧ (resZero b 40 24 = true) ∧ let d := readHost s1 (fieldAt b 32 8) 64
    ∃ k o, (memobjBad s1 fn d = none) ∧ (s.obj.refs.length < 1048576) ∧ ((s.obj.refs.filter (fun q => q.1 / 2 ^ 32 = fn)).length < 262144) ∧ ((List.range 262145).find? (fun j => j ≠ 0 && !has s.obj.refs (refKey fn j)) = some k) ∧ ((List.range 1048577).find? (fun j => !has s.obj.objs j) = some o) ∧ ∃ j y, (fieldAt d 0 1 = 2) ∧ (refObj s (refKey fn (fieldAt d 4 4)) = some (j, y)) ∧ True) ∧
    (∃ (r : RingId) (x : Ring) (b : List Byte) (s s1 : State) (p : PktRef), (accepts s r x b s1 p) ∧ let fn := x.fn
    let h := fieldAt b 32 4
    (pktOp b = 0x95) ∧ (resZero b 36 28 = true) ∧ ∃ q, (look s.obj.refs (refKey fn h) = some q) ∧ True) ∧
    (∃ (r : RingId) (x : Ring) (b : List Byte) (s s1 : State) (p : PktRef), (accepts s r x b s1 p) ∧ let fn := x.fn
    let h := fieldAt b 32 4
    (pktOp b = 0x95) ∧ (resZero b 36 28 = true) ∧ (look s.obj.refs (refKey fn h) = none) ∧ True) :=
  ⟨⟨.admin 1, (pktRing (pkt 139 0 [(32, 2, 3), (34, 1, 12), (40, 8, 4096)])), (pkt 139 0 [(32, 2, 3), (34, 1, 12), (40, 8, 4096)]), objVd (pktRing (pkt 139 0 [(32, 2, 3), (34, 1, 12), (40, 8, 4096)])), takenSt (objVd (pktRing (pkt 139 0 [(32, 2, 3), (34, 1, 12), (40, 8, 4096)]))) (.admin 1) (pktRing (pkt 139 0 [(32, 2, 3), (34, 1, 12), (40, 8, 4096)])) (pkt 139 0 [(32, 2, 3), (34, 1, 12), (40, 8, 4096)]), takenP (objVd (pktRing (pkt 139 0 [(32, 2, 3), (34, 1, 12), (40, 8, 4096)]))) (.admin 1) (pktRing (pkt 139 0 [(32, 2, 3), (34, 1, 12), (40, 8, 4096)])) (pkt 139 0 [(32, 2, 3), (34, 1, 12), (40, 8, 4096)]), accepts_of _ _ _ _ (by decide +kernel), by decide +kernel, by decide +kernel, by decide +kernel, by decide +kernel, by decide +kernel, by decide +kernel, by decide +kernel, rangeVal (devRange (takenSt (objVd (pktRing (pkt 139 0 [(32, 2, 3), (34, 1, 12), (40, 8, 4096)]))) (.admin 1) (pktRing (pkt 139 0 [(32, 2, 3), (34, 1, 12), (40, 8, 4096)])) (pkt 139 0 [(32, 2, 3), (34, 1, 12), (40, 8, 4096)])) ((pktRing (pkt 139 0 [(32, 2, 3), (34, 1, 12), (40, 8, 4096)]))).fn (fieldAt (pkt 139 0 [(32, 2, 3), (34, 1, 12), (40, 8, 4096)]) 32 2) (fieldAt (pkt 139 0 [(32, 2, 3), (34, 1, 12), (40, 8, 4096)]) 40 8) (64 + 64 * 2 ^ fieldAt (pkt 139 0 [(32, 2, 3), (34, 1, 12), (40, 8, 4096)]) 34 1) true), 0, by decide +kernel, rangeVal_of _ (by decide +kernel), by decide +kernel, by decide +kernel, trivial⟩,
   ⟨.admin 1, (pktRing (pkt 139 0 [(32, 2, 3), (34, 1, 12), (40, 8, 4096), (35, 1, 1)])), (pkt 139 0 [(32, 2, 3), (34, 1, 12), (40, 8, 4096), (35, 1, 1)]), objVd (pktRing (pkt 139 0 [(32, 2, 3), (34, 1, 12), (40, 8, 4096), (35, 1, 1)])), takenSt (objVd (pktRing (pkt 139 0 [(32, 2, 3), (34, 1, 12), (40, 8, 4096), (35, 1, 1)]))) (.admin 1) (pktRing (pkt 139 0 [(32, 2, 3), (34, 1, 12), (40, 8, 4096), (35, 1, 1)])) (pkt 139 0 [(32, 2, 3), (34, 1, 12), (40, 8, 4096), (35, 1, 1)]), takenP (objVd (pktRing (pkt 139 0 [(32, 2, 3), (34, 1, 12), (40, 8, 4096), (35, 1, 1)]))) (.admin 1) (pktRing (pkt 139 0 [(32, 2, 3), (34, 1, 12), (40, 8, 4096), (35, 1, 1)])) (pkt 139 0 [(32, 2, 3), (34, 1, 12), (40, 8, 4096), (35, 1, 1)]), accepts_of _ _ _ _ (by decide +kernel), by decide +kernel, by decide +kernel, by decide +kernel, by decide +kernel, by decide +kernel, by decide +kernel, by decide +kernel, rangeVal (devRange (takenSt (objVd (pktRing (pkt 139 0 [(32, 2, 3), (34, 1, 12), (40, 8, 4096), (35, 1, 1)]))) (.admin 1) (pktRing (pkt 139 0 [(32, 2, 3), (34, 1, 12), (40, 8, 4096), (35, 1, 1)])) (pkt 139 0 [(32, 2, 3), (34, 1, 12), (40, 8, 4096), (35, 1, 1)])) ((pktRing (pkt 139 0 [(32, 2, 3), (34, 1, 12), (40, 8, 4096), (35, 1, 1)]))).fn (fieldAt (pkt 139 0 [(32, 2, 3), (34, 1, 12), (40, 8, 4096), (35, 1, 1)]) 32 2) (fieldAt (pkt 139 0 [(32, 2, 3), (34, 1, 12), (40, 8, 4096), (35, 1, 1)]) 40 8) (64 + 64 * 2 ^ fieldAt (pkt 139 0 [(32, 2, 3), (34, 1, 12), (40, 8, 4096), (35, 1, 1)]) 34 1) true), 0, by decide +kernel, rangeVal_of _ (by decide +kernel), by decide +kernel, 16, ((takePage (takenSt (objVd (pktRing (pkt 139 0 [(32, 2, 3), (34, 1, 12), (40, 8, 4096), (35, 1, 1)]))) (.admin 1) (pktRing (pkt 139 0 [(32, 2, 3), (34, 1, 12), (40, 8, 4096), (35, 1, 1)])) (pkt 139 0 [(32, 2, 3), (34, 1, 12), (40, 8, 4096), (35, 1, 1)])) ((pktRing (pkt 139 0 [(32, 2, 3), (34, 1, 12), (40, 8, 4096), (35, 1, 1)]))).fn (.wq 0)).getD (0, {})).2, by decide +kernel, page_of _ _ _ _ _ (by decide +kernel), trivial⟩,
   ⟨.admin 1, (pktRing (pkt 139 0 [(32, 2, 4), (34, 1, 4)])), (pkt 139 0 [(32, 2, 4), (34, 1, 4)]), objVd (pktRing (pkt 139 0 [(32, 2, 4), (34, 1, 4)])), takenSt (objVd (pktRing (pkt 139 0 [(32, 2, 4), (34, 1, 4)]))) (.admin 1) (pktRing (pkt 139 0 [(32, 2, 4), (34, 1, 4)])) (pkt 139 0 [(32, 2, 4), (34, 1, 4)]), takenP (objVd (pktRing (pkt 139 0 [(32, 2, 4), (34, 1, 4)]))) (.admin 1) (pktRing (pkt 139 0 [(32, 2, 4), (34, 1, 4)])) (pkt 139 0 [(32, 2, 4), (34, 1, 4)]), accepts_of _ _ _ _ (by decide +kernel), by decide +kernel, by decide +kernel, by decide +kernel, by decide +kernel, by decide +kernel, by decide +kernel, by decide +kernel, by decide +kernel, trivial⟩,
   ⟨.admin 1, (pktRing (pkt 140 0 [(32, 2, 4)])), (pkt 140 0 [(32, 2, 4)]), runningVd (pktRing (pkt 140 0 [(32, 2, 4)])), takenSt (runningVd (pktRing (pkt 140 0 [(32, 2, 4)]))) (.admin 1) (pktRing (pkt 140 0 [(32, 2, 4)])) (pkt 140 0 [(32, 2, 4)]), takenP (runningVd (pktRing (pkt 140 0 [(32, 2, 4)]))) (.admin 1) (pktRing (pkt 140 0 [(32, 2, 4)])) (pkt 140 0 [(32, 2, 4)]), accepts_of _ _ _ _ (by decide +kernel), by decide +kernel, by decide +kernel, { aWq with task := some 6 }, by decide +kernel, by decide +kernel, by decide +kernel, trivial⟩,
   ⟨.admin 1, (pktRing (pkt 140 0 [(32, 2, 4)])), (pkt 140 0 [(32, 2, 4)]), objVd (pktRing (pkt 140 0 [(32, 2, 4)])), takenSt (objVd (pktRing (pkt 140 0 [(32, 2, 4)]))) (.admin 1) (pktRing (pkt 140 0 [(32, 2, 4)])) (pkt 140 0 [(32, 2, 4)]), takenP (objVd (pktRing (pkt 140 0 [(32, 2, 4)]))) (.admin 1) (pktRing (pkt 140 0 [(32, 2, 4)])) (pkt 140 0 [(32, 2, 4)]), accepts_of _ _ _ _ (by decide +kernel), by decide +kernel, by decide +kernel, aWq, by decide +kernel, by decide +kernel, by decide +kernel, by decide +kernel, trivial⟩,
   ⟨.admin 1, (pktRing (pkt 140 0 [(32, 2, 5)])), (pkt 140 0 [(32, 2, 5)]), objVd (pktRing (pkt 140 0 [(32, 2, 5)])), takenSt (objVd (pktRing (pkt 140 0 [(32, 2, 5)]))) (.admin 1) (pktRing (pkt 140 0 [(32, 2, 5)])) (pkt 140 0 [(32, 2, 5)]), takenP (objVd (pktRing (pkt 140 0 [(32, 2, 5)]))) (.admin 1) (pktRing (pkt 140 0 [(32, 2, 5)])) (pkt 140 0 [(32, 2, 5)]), accepts_of _ _ _ _ (by decide +kernel), by decide +kernel, by decide +kernel, by decide +kernel, trivial⟩,
   ⟨.admin 1, (pktRing (pkt 137 0 [(32, 4, 3), (36, 2, 4), (38, 2, 111), (40, 2, 65535), (42, 2, 4096)])), (pkt 137 0 [(32, 4, 3), (36, 2, 4), (38, 2, 111), (40, 2, 65535), (42, 2, 4096)]), objVd (pktRing (pkt 137 0 [(32, 4, 3), (36, 2, 4), (38, 2, 111), (40, 2, 65535), (42, 2, 4096)])), takenSt (objVd (pktRing (pkt 137 0 [(32, 4, 3), (36, 2, 4), (38, 2, 111), (40, 2, 65535), (42, 2, 4096)]))) (.admin 1) (pktRing (pkt 137 0 [(32, 4, 3), (36, 2, 4), (38, 2, 111), (40, 2, 65535), (42, 2, 4096)])) (pkt 137 0 [(32, 4, 3), (36, 2, 4), (38, 2, 111), (40, 2, 65535), (42, 2, 4096)]), takenP (objVd (pktRing (pkt 137 0 [(32, 4, 3), (36, 2, 4), (38, 2, 111), (40, 2, 65535), (42, 2, 4096)]))) (.admin 1) (pktRing (pkt 137 0 [(32, 4, 3), (36, 2, 4), (38, 2, 111), (40, 2, 65535), (42, 2, 4096)])) (pkt 137 0 [(32, 4, 3), (36, 2, 4), (38, 2, 111), (40, 2, 65535), (42, 2, 4096)]), accepts_of _ _ _ _ (by decide +kernel), by decide +kernel, by decide +kernel, by decide +kernel, by decide +kernel, by decide +kernel, { fn := 1 }, aWq, okVal (readParam (takenSt (objVd (pktRing (pkt 137 0 [(32, 4, 3), (36, 2, 4), (38, 2, 111), (40, 2, 65535), (42, 2, 4096)]))) (.admin 1) (pktRing (pkt 137 0 [(32, 4, 3), (36, 2, 4), (38, 2, 111), (40, 2, 65535), (42, 2, 4096)])) (pkt 137 0 [(32, 4, 3), (36, 2, 4), (38, 2, 111), (40, 2, 65535), (42, 2, 4096)])) ((pktRing (pkt 137 0 [(32, 4, 3), (36, 2, 4), (38, 2, 111), (40, 2, 65535), (42, 2, 4096)]))).fn 3 (fieldAt (pkt 137 0 [(32, 4, 3), (36, 2, 4), (38, 2, 111), (40, 2, 65535), (42, 2, 4096)]) 48 8) (fieldAt (pkt 137 0 [(32, 4, 3), (36, 2, 4), (38, 2, 111), (40, 2, 65535), (42, 2, 4096)]) 42 2)) [], 0, 1, by decide +kernel, by decide +kernel, by decide +kernel, by decide +kernel, by decide +kernel, by decide +kernel, by decide +kernel, by decide +kernel, by decide +kernel, .inl (by decide +kernel), okVal_of _ _ (by decide +kernel), by decide +kernel, by decide +kernel, by decide +kernel, trivial⟩,
   ⟨.admin 1, (pktRing (pkt 137 0 [(32, 4, 3), (36, 2, 5)])), (pkt 137 0 [(32, 4, 3), (36, 2, 5)]), objVd (pktRing (pkt 137 0 [(32, 4, 3), (36, 2, 5)])), takenSt (objVd (pktRing (pkt 137 0 [(32, 4, 3), (36, 2, 5)]))) (.admin 1) (pktRing (pkt 137 0 [(32, 4, 3), (36, 2, 5)])) (pkt 137 0 [(32, 4, 3), (36, 2, 5)]), takenP (objVd (pktRing (pkt 137 0 [(32, 4, 3), (36, 2, 5)]))) (.admin 1) (pktRing (pkt 137 0 [(32, 4, 3), (36, 2, 5)])) (pkt 137 0 [(32, 4, 3), (36, 2, 5)]), accepts_of _ _ _ _ (by decide +kernel), by decide +kernel, by decide +kernel, by decide +kernel, by decide +kernel, by decide +kernel, .inr (by decide +kernel), trivial⟩,
   ⟨.admin 1, (pktRing (pkt 138 0 [(32, 4, 6)])), (pkt 138 0 [(32, 4, 6)]), runningVd (pktRing (pkt 138 0 [(32, 4, 6)])), takenSt (runningVd (pktRing (pkt 138 0 [(32, 4, 6)]))) (.admin 1) (pktRing (pkt 138 0 [(32, 4, 6)])) (pkt 138 0 [(32, 4, 6)]), takenP (runningVd (pktRing (pkt 138 0 [(32, 4, 6)]))) (.admin 1) (pktRing (pkt 138 0 [(32, 4, 6)])) (pkt 138 0 [(32, 4, 6)]), accepts_of _ _ _ _ (by decide +kernel), by decide +kernel, by decide +kernel, { aTask with st := .waiting }, by decide +kernel, by decide +kernel, by decide +kernel, trivial⟩,
   ⟨.admin 1, (pktRing (pkt 138 0 [(32, 4, 6)])), (pkt 138 0 [(32, 4, 6)]), objVd (pktRing (pkt 138 0 [(32, 4, 6)])), takenSt (objVd (pktRing (pkt 138 0 [(32, 4, 6)]))) (.admin 1) (pktRing (pkt 138 0 [(32, 4, 6)])) (pkt 138 0 [(32, 4, 6)]), takenP (objVd (pktRing (pkt 138 0 [(32, 4, 6)]))) (.admin 1) (pktRing (pkt 138 0 [(32, 4, 6)])) (pkt 138 0 [(32, 4, 6)]), accepts_of _ _ _ _ (by decide +kernel), by decide +kernel, by decide +kernel, aTask, by decide +kernel, by decide +kernel, by decide +kernel, trivial⟩,
   ⟨.admin 1, (pktRing (pkt 138 0 [(32, 4, 7)])), (pkt 138 0 [(32, 4, 7)]), objVd (pktRing (pkt 138 0 [(32, 4, 7)])), takenSt (objVd (pktRing (pkt 138 0 [(32, 4, 7)]))) (.admin 1) (pktRing (pkt 138 0 [(32, 4, 7)])) (pkt 138 0 [(32, 4, 7)]), takenP (objVd (pktRing (pkt 138 0 [(32, 4, 7)]))) (.admin 1) (pktRing (pkt 138 0 [(32, 4, 7)])) (pkt 138 0 [(32, 4, 7)]), accepts_of _ _ _ _ (by decide +kernel), by decide +kernel, by decide +kernel, by decide +kernel, trivial⟩,
   ⟨.admin 1, (pktRing (pkt 141 0 [(32, 8, 36864), (40, 2, 3)])), (pkt 141 0 [(32, 8, 36864), (40, 2, 3)]), objVd (pktRing (pkt 141 0 [(32, 8, 36864), (40, 2, 3)])), takenSt (objVd (pktRing (pkt 141 0 [(32, 8, 36864), (40, 2, 3)]))) (.admin 1) (pktRing (pkt 141 0 [(32, 8, 36864), (40, 2, 3)])) (pkt 141 0 [(32, 8, 36864), (40, 2, 3)]), takenP (objVd (pktRing (pkt 141 0 [(32, 8, 36864), (40, 2, 3)]))) (.admin 1) (pktRing (pkt 141 0 [(32, 8, 36864), (40, 2, 3)])) (pkt 141 0 [(32, 8, 36864), (40, 2, 3)]), accepts_of _ _ _ _ (by decide +kernel), by decide +kernel, by decide +kernel, 1, by decide +kernel, by decide +kernel, by decide +kernel, by decide +kernel, by decide +kernel, trivial⟩,
   ⟨.admin 1, (pktRing (pkt 141 0 [(32, 8, 36864), (40, 2, 4)])), (pkt 141 0 [(32, 8, 36864), (40, 2, 4)]), objVd (pktRing (pkt 141 0 [(32, 8, 36864), (40, 2, 4)])), takenSt (objVd (pktRing (pkt 141 0 [(32, 8, 36864), (40, 2, 4)]))) (.admin 1) (pktRing (pkt 141 0 [(32, 8, 36864), (40, 2, 4)])) (pkt 141 0 [(32, 8, 36864), (40, 2, 4)]), takenP (objVd (pktRing (pkt 141 0 [(32, 8, 36864), (40, 2, 4)]))) (.admin 1) (pktRing (pkt 141 0 [(32, 8, 36864), (40, 2, 4)])) (pkt 141 0 [(32, 8, 36864), (40, 2, 4)]), accepts_of _ _ _ _ (by decide +kernel), by decide +kernel, by decide +kernel, by decide +kernel, trivial⟩,
   ⟨.admin 1, (pktRing (pkt 142 0 [(32, 4, 2)])), (pkt 142 0 [(32, 4, 2)]), objVd (pktRing (pkt 142 0 [(32, 4, 2)])), takenSt (objVd (pktRing (pkt 142 0 [(32, 4, 2)]))) (.admin 1) (pktRing (pkt 142 0 [(32, 4, 2)])) (pkt 142 0 [(32, 4, 2)]), takenP (objVd (pktRing (pkt 142 0 [(32, 4, 2)]))) (.admin 1) (pktRing (pkt 142 0 [(32, 4, 2)])) (pkt 142 0 [(32, 4, 2)]), accepts_of _ _ _ _ (by decide +kernel), by decide +kernel, by decide +kernel, reqSvc, by decide +kernel, by decide +kernel, by decide +kernel, trivial⟩,
   ⟨.admin 1, (pktRing (pkt 142 0 [(32, 4, 3)])), (pkt 142 0 [(32, 4, 3)]), objVd (pktRing (pkt 142 0 [(32, 4, 3)])), takenSt (objVd (pktRing (pkt 142 0 [(32, 4, 3)]))) (.admin 1) (pktRing (pkt 142 0 [(32, 4, 3)])) (pkt 142 0 [(32, 4, 3)]), takenP (objVd (pktRing (pkt 142 0 [(32, 4, 3)]))) (.admin 1) (pktRing (pkt 142 0 [(32, 4, 3)])) (pkt 142 0 [(32, 4, 3)]), accepts_of _ _ _ _ (by decide +kernel), by decide +kernel, by decide +kernel, { reqSvc with st := .run }, by decide +kernel, by decide +kernel, by decide +kernel, by decide +kernel, by decide +kernel, trivial⟩,
   ⟨.admin 1, (pktRing (pkt 142 0 [(32, 4, 4)])), (pkt 142 0 [(32, 4, 4)]), objVd (pktRing (pkt 142 0 [(32, 4, 4)])), takenSt (objVd (pktRing (pkt 142 0 [(32, 4, 4)]))) (.admin 1) (pktRing (pkt 142 0 [(32, 4, 4)])) (pkt 142 0 [(32, 4, 4)]), takenP (objVd (pktRing (pkt 142 0 [(32, 4, 4)]))) (.admin 1) (pktRing (pkt 142 0 [(32, 4, 4)])) (pkt 142 0 [(32, 4, 4)]), accepts_of _ _ _ _ (by decide +kernel), by decide +kernel, by decide +kernel, by decide +kernel, trivial⟩,
   ⟨.admin 1, (pktRing (pkt 143 0 [(32, 8, 40960)])), (pkt 143 0 [(32, 8, 40960)]), objVd (pktRing (pkt 143 0 [(32, 8, 40960)])), takenSt (objVd (pktRing (pkt 143 0 [(32, 8, 40960)]))) (.admin 1) (pktRing (pkt 143 0 [(32, 8, 40960)])) (pkt 143 0 [(32, 8, 40960)]), takenP (objVd (pktRing (pkt 143 0 [(32, 8, 40960)]))) (.admin 1) (pktRing (pkt 143 0 [(32, 8, 40960)])) (pkt 143 0 [(32, 8, 40960)]), accepts_of _ _ _ _ (by decide +kernel), by decide +kernel, by decide +kernel, 0, 16, 17, ((takePage (takenSt (objVd (pktRing (pkt 143 0 [(32, 8, 40960)]))) (.admin 1) (pktRing (pkt 143 0 [(32, 8, 40960)])) (pkt 143 0 [(32, 8, 40960)])) ((pktRing (pkt 143 0 [(32, 8, 40960)]))).fn (.qpReq 0)).getD (0, {})).2, ((takePage (((takePage (takenSt (objVd (pktRing (pkt 143 0 [(32, 8, 40960)]))) (.admin 1) (pktRing (pkt 143 0 [(32, 8, 40960)])) (pkt 143 0 [(32, 8, 40960)])) ((pktRing (pkt 143 0 [(32, 8, 40960)]))).fn (.qpReq 0)).getD (0, {})).2) ((pktRing (pkt 143 0 [(32, 8, 40960)]))).fn (.qpRsp 0)).getD (0, {})).2, by decide +kernel, by decide +kernel, page_of _ _ _ _ _ (by decide +kernel), page_of _ _ _ _ _ (by decide +kernel), trivial⟩,
   ⟨.admin 1, (pktRing (pkt 144 0 [(32, 2, 8)])), (pkt 144 0 [(32, 2, 8)]), objVd (pktRing (pkt 144 0 [(32, 2, 8)])), takenSt (objVd (pktRing (pkt 144 0 [(32, 2, 8)]))) (.admin 1) (pktRing (pkt 144 0 [(32, 2, 8)])) (pkt 144 0 [(32, 2, 8)]), takenP (objVd (pktRing (pkt 144 0 [(32, 2, 8)]))) (.admin 1) (pktRing (pkt 144 0 [(32, 2, 8)])) (pkt 144 0 [(32, 2, 8)]), accepts_of _ _ _ _ (by decide +kernel), by decide +kernel, by decide +kernel, reqQp, by decide +kernel, by decide +kernel, by decide +kernel, trivial⟩,
   ⟨.admin 1, (pktRing (pkt 144 0 [(32, 2, 9)])), (pkt 144 0 [(32, 2, 9)]), objVd (pktRing (pkt 144 0 [(32, 2, 9)])), takenSt (objVd (pktRing (pkt 144 0 [(32, 2, 9)]))) (.admin 1) (pktRing (pkt 144 0 [(32, 2, 9)])) (pkt 144 0 [(32, 2, 9)]), takenP (objVd (pktRing (pkt 144 0 [(32, 2, 9)]))) (.admin 1) (pktRing (pkt 144 0 [(32, 2, 9)])) (pkt 144 0 [(32, 2, 9)]), accepts_of _ _ _ _ (by decide +kernel), by decide +kernel, by decide +kernel, by decide +kernel, trivial⟩,
   ⟨.admin 1, (pktRing (pkt 145 0 [(32, 2, 3), (34, 1, 0), (35, 1, 12)])), (pkt 145 0 [(32, 2, 3), (34, 1, 0), (35, 1, 12)]), objVd (pktRing (pkt 145 0 [(32, 2, 3), (34, 1, 0), (35, 1, 12)])), takenSt (objVd (pktRing (pkt 145 0 [(32, 2, 3), (34, 1, 0), (35, 1, 12)]))) (.admin 1) (pktRing (pkt 145 0 [(32, 2, 3), (34, 1, 0), (35, 1, 12)])) (pkt 145 0 [(32, 2, 3), (34, 1, 0), (35, 1, 12)]), takenP (objVd (pktRing (pkt 145 0 [(32, 2, 3), (34, 1, 0), (35, 1, 12)]))) (.admin 1) (pktRing (pkt 145 0 [(32, 2, 3), (34, 1, 0), (35, 1, 12)])) (pkt 145 0 [(32, 2, 3), (34, 1, 0), (35, 1, 12)]), accepts_of _ _ _ _ (by decide +kernel), by decide +kernel, by decide +kernel, by decide +kernel, by decide +kernel, by decide +kernel, by decide +kernel, by decide +kernel, by decide +kernel, 0, 16, ((takePage (takenSt (objVd (pktRing (pkt 145 0 [(32, 2, 3), (34, 1, 0), (35, 1, 12)]))) (.admin 1) (pktRing (pkt 145 0 [(32, 2, 3), (34, 1, 0), (35, 1, 12)])) (pkt 145 0 [(32, 2, 3), (34, 1, 0), (35, 1, 12)])) ((pktRing (pkt 145 0 [(32, 2, 3), (34, 1, 0), (35, 1, 12)]))).fn (.liftq 0)).getD (0, {})).2, by decide +kernel, by decide +kernel, by decide +kernel, by decide +kernel, page_of _ _ _ _ _ (by decide +kernel), trivial⟩,
   ⟨.admin 1, (pktRing (pkt 145 0 [(32, 2, 3), (34, 1, 23), (35, 1, 4)])), (pkt 145 0 [(32, 2, 3), (34, 1, 23), (35, 1, 4)]), objVd (pktRing (pkt 145 0 [(32, 2, 3), (34, 1, 23), (35, 1, 4)])), takenSt (objVd (pktRing (pkt 145 0 [(32, 2, 3), (34, 1, 23), (35, 1, 4)]))) (.admin 1) (pktRing (pkt 145 0 [(32, 2, 3), (34, 1, 23), (35, 1, 4)])) (pkt 145 0 [(32, 2, 3), (34, 1, 23), (35, 1, 4)]), takenP (objVd (pktRing (pkt 145 0 [(32, 2, 3), (34, 1, 23), (35, 1, 4)]))) (.admin 1) (pktRing (pkt 145 0 [(32, 2, 3), (34, 1, 23), (35, 1, 4)])) (pkt 145 0 [(32, 2, 3), (34, 1, 23), (35, 1, 4)]), accepts_of _ _ _ _ (by decide +kernel), by decide +kernel, by decide +kernel, by decide +kernel, by decide +kernel, by decide +kernel, by decide +kernel, by decide +kernel, by decide +kernel, by decide +kernel, by decide +kernel, trivial⟩,
   ⟨.admin 1, (pktRing (pkt 146 0 [(32, 2, 4)])), (pkt 146 0 [(32, 2, 4)]), objVd (pktRing (pkt 146 0 [(32, 2, 4)])), takenSt (objVd (pktRing (pkt 146 0 [(32, 2, 4)]))) (.admin 1) (pktRing (pkt 146 0 [(32, 2, 4)])) (pkt 146 0 [(32, 2, 4)]), takenP (objVd (pktRing (pkt 146 0 [(32, 2, 4)]))) (.admin 1) (pktRing (pkt 146 0 [(32, 2, 4)])) (pkt 146 0 [(32, 2, 4)]), accepts_of _ _ _ _ (by decide +kernel), by decide +kernel, by decide +kernel, aLiftQ, by decide +kernel, by decide +kernel, by decide +kernel, trivial⟩,
   ⟨.admin 1, (pktRing (pkt 146 0 [(32, 2, 5)])), (pkt 146 0 [(32, 2, 5)]), objVd (pktRing (pkt 146 0 [(32, 2, 5)])), takenSt (objVd (pktRing (pkt 146 0 [(32, 2, 5)]))) (.admin 1) (pktRing (pkt 146 0 [(32, 2, 5)])) (pkt 146 0 [(32, 2, 5)]), takenP (objVd (pktRing (pkt 146 0 [(32, 2, 5)]))) (.admin 1) (pktRing (pkt 146 0 [(32, 2, 5)])) (pkt 146 0 [(32, 2, 5)]), accepts_of _ _ _ _ (by decide +kernel), by decide +kernel, by decide +kernel, by decide +kernel, trivial⟩,
   ⟨.admin 1, (pktRing (pkt 148 0 [(32, 8, 45056)])), (pkt 148 0 [(32, 8, 45056)]), objVd (pktRing (pkt 148 0 [(32, 8, 45056)])), takenSt (objVd (pktRing (pkt 148 0 [(32, 8, 45056)]))) (.admin 1) (pktRing (pkt 148 0 [(32, 8, 45056)])) (pkt 148 0 [(32, 8, 45056)]), takenP (objVd (pktRing (pkt 148 0 [(32, 8, 45056)]))) (.admin 1) (pktRing (pkt 148 0 [(32, 8, 45056)])) (pkt 148 0 [(32, 8, 45056)]), accepts_of _ _ _ _ (by decide +kernel), by decide +kernel, by decide +kernel, 1, 0, by decide +kernel, by decide +kernel, by decide +kernel, find_one _ _ (by decide +kernel) (by decide +kernel), find_zero _ _ (by decide +kernel), by decide +kernel, trivial⟩,
   ⟨.admin 1, (pktRing (pkt 148 0 [(32, 8, 49152)])), (pkt 148 0 [(32, 8, 49152)]), objVd (pktRing (pkt 148 0 [(32, 8, 49152)])), takenSt (objVd (pktRing (pkt 148 0 [(32, 8, 49152)]))) (.admin 1) (pktRing (pkt 148 0 [(32, 8, 49152)])) (pkt 148 0 [(32, 8, 49152)]), takenP (objVd (pktRing (pkt 148 0 [(32, 8, 49152)]))) (.admin 1) (pktRing (pkt 148 0 [(32, 8, 49152)])) (pkt 148 0 [(32, 8, 49152)]), accepts_of _ _ _ _ (by decide +kernel), by decide +kernel, by decide +kernel, 1, 0, by decide +kernel, by decide +kernel, by decide +kernel, find_one _ _ (by decide +kernel) (by decide +kernel), find_zero _ _ (by decide +kernel), 5, { size := 65536 }, by decide +kernel, by decide +kernel, trivial⟩,
   ⟨.admin 1, (pktRing (pkt 149 0 [(32, 4, 9)])), (pkt 149 0 [(32, 4, 9)]), objVd (pktRing (pkt 149 0 [(32, 4, 9)])), takenSt (objVd (pktRing (pkt 149 0 [(32, 4, 9)]))) (.admin 1) (pktRing (pkt 149 0 [(32, 4, 9)])) (pkt 149 0 [(32, 4, 9)]), takenP (objVd (pktRing (pkt 149 0 [(32, 4, 9)]))) (.admin 1) (pktRing (pkt 149 0 [(32, 4, 9)])) (pkt 149 0 [(32, 4, 9)]), accepts_of _ _ _ _ (by decide +kernel), by decide +kernel, by decide +kernel, { ctx := 3, obj := 5, va := 0x100000 }, by decide +kernel, trivial⟩,
   ⟨.admin 1, (pktRing (pkt 149 0 [(32, 4, 10)])), (pkt 149 0 [(32, 4, 10)]), objVd (pktRing (pkt 149 0 [(32, 4, 10)])), takenSt (objVd (pktRing (pkt 149 0 [(32, 4, 10)]))) (.admin 1) (pktRing (pkt 149 0 [(32, 4, 10)])) (pkt 149 0 [(32, 4, 10)]), takenP (objVd (pktRing (pkt 149 0 [(32, 4, 10)]))) (.admin 1) (pktRing (pkt 149 0 [(32, 4, 10)])) (pkt 149 0 [(32, 4, 10)]), accepts_of _ _ _ _ (by decide +kernel), by decide +kernel, by decide +kernel, by decide +kernel, trivial⟩⟩

/-- Signal slot 5 of VF 1 selects fence 6. -/
def slotVd (v : Nat) (a : Option (Nat × Nat)) : State :=
  { openVd with
    fns := [(1, { gfe := { en := true }, int := { sel := [(5, { fence := 6, vector := 2 })] } })]
    obj := { openVd.obj with fences := [(fenceKey 1 6, { value := BitVec.ofNat 64 v, arm := a })] } }

/-- States and operands that meet the hypotheses of every clause of SignalSlotsAndMirrors. -/
theorem wit_SignalSlotsAndMirrors :
    (∃ (f : FnId) (n : Fin 64) (v : W64) (s : State), (fnOpen s f.val = true) ∧ ((s.fn f.val).resetting = false) ∧ let k := slotFence s f n
    let x := s.fence f.val k
    (x.value.toNat = errValue) ∧ True) ∧
    (∃ (f : FnId) (n : Fin 64) (v : W64) (s : State), (fnOpen s f.val = true) ∧ ((s.fn f.val).resetting = false) ∧ let k := slotFence s f n
    let x := s.fence f.val k
    (x.value.toNat = lastValue) ∧ (v.toNat ≠ errValue) ∧ True) ∧
    (∃ (f : FnId) (n : Fin 64) (v : W64) (s : State), (fnOpen s f.val = true) ∧ ((s.fn f.val).resetting = false) ∧ let k := slotFence s f n
    let x := s.fence f.val k
    (x.value.toNat ≠ errValue) ∧ (v.toNat = errValue) ∧ True) ∧
    (∃ (f : FnId) (n : Fin 64) (v : W64) (s : State), (fnOpen s f.val = true) ∧ ((s.fn f.val).resetting = false) ∧ let k := slotFence s f n
    let x := s.fence f.val k
    (x.value.toNat ≠ errValue) ∧ (x.value.toNat ≠ lastValue) ∧ (v = x.value) ∧ True) ∧
    (∃ (f : FnId) (n : Fin 64) (v : W64) (s : State), (fnOpen s f.val = true) ∧ ((s.fn f.val).resetting = false) ∧ let k := slotFence s f n
    let x := s.fence f.val k
    (x.value.toNat ≠ errValue) ∧ (x.value.toNat ≠ lastValue) ∧ (v.toNat < x.value.toNat) ∧ True) ∧
    (∃ (f : FnId) (n : Fin 64) (v : W64) (s : State), (fnOpen s f.val = true) ∧ ((s.fn f.val).resetting = false) ∧ let k := slotFence s f n
    let x := s.fence f.val k
    (x.value.toNat < v.toNat) ∧ (v.toNat ≠ errValue) ∧ (x.value.toNat ≠ lastValue) ∧ True) ∧
    (∃ (f : FnId) (n : Fin 64) (v : W64) (s : State), (fnOpen s f.val = true) ∧ ((s.fn f.val).resetting = false) ∧ let k := slotFence s f n
    let x := s.fence f.val k
    (v.toNat ≤ x.value.toNat) ∧ True) ∧
    (∃ (f : FnId) (n : Fin 64) (v : W64) (s : State), (fnOpen s f.val = true) ∧ ((s.fn f.val).resetting = false) ∧ let k := slotFence s f n
    let x := s.fence f.val k
    (x.value.toNat < v.toNat) ∧ True) ∧
    (∃ (f : FnId) (s : State), (fnOpen s f.val = true) ∧ True) :=
  ⟨⟨1, 5, 7, slotVd errValue none, by decide, by decide, by decide, trivial⟩,
   ⟨1, 5, 0, slotVd lastValue none, by decide, by decide, by decide, by decide, trivial⟩,
   ⟨1, 5, BitVec.ofNat 64 errValue, slotVd lastValue none, by decide, by decide, by decide, by decide, trivial⟩,
   ⟨1, 5, 8, slotVd 8 none, by decide, by decide, by decide, by decide, by decide, trivial⟩,
   ⟨1, 5, 7, slotVd 8 none, by decide, by decide, by decide, by decide, by decide, trivial⟩,
   ⟨1, 5, BitVec.ofNat 64 lastValue, slotVd 8 (some (9, 1)), by decide, by decide, by decide, by decide, by decide, trivial⟩,
   ⟨1, 5, 8, slotVd 8 (some (9, 1)), by decide, by decide, by decide, trivial⟩,
   ⟨1, 5, 9, slotVd 8 (some (10, 1)), by decide, by decide, by decide, trivial⟩,
   ⟨1, slotVd 8 none, by decide, trivial⟩⟩

def leaving (k : Ctx) (h : List HeldAppend) : State :=
  { objVd (pktRing (pkt 0x81 0 [])) with
    obj := { ctxs := [(ctxKey 1 3, k)], fences := [(fenceKey 1 6, { value := 3 })] }
    chains := [(1, { opened := true, sizeLog2 := 12, dpa := 0x10000, held := h })] }
def dying (x : CtxSt) : Ctx := { st := x, fenceFirst := 6, fenceCount := 1, destroyPkt := some aPacket }

/-- States and operands that meet the hypotheses of every clause of AbortsAndFunctionResets. -/
theorem wit_AbortsAndFunctionResets :
    (∃ (f : FnId) (c : Fin 4096) (s : State) (k : Ctx), (s.ctx? f.val c.val = some k) ∧ (k.st = .draining) ∧ True) ∧
    (∃ (f : FnId) (c : Fin 4096) (s : State) (k : Ctx), (s.ctx? f.val c.val = some k) ∧ (k.st ≠ .draining) ∧ True) ∧
    (∃ (f : FnId) (c : Fin 4096) (s : State) (k : Ctx), (s.ctx? f.val c.val = some k) ∧ (k.st ≠ .squashing) ∧ True) ∧
    (∃ (f : FnId) (c : Fin 4096) (s : State) (k : Ctx), (s.ctx? f.val c.val = some k) ∧ (k.st = .squashing) ∧ (s.ready = []) ∧ (chainTakes s f.val) ∧ True) ∧
    (∃ (f : FnId) (c : Fin 4096) (s : State) (k : Ctx), (s.ctx? f.val c.val = some k) ∧ (k.st = .squashing) ∧ (s.ready = []) ∧ ((s.chain f.val).opened = true) ∧ ((s.chain f.val).closed = false) ∧ ((s.chain f.val).held ≠ []) ∧ True) ∧
    (∃ (f : FnId) (s : State), ((s.fn f.val).resetting = true) ∧ (s.fnCtxs f.val = []) ∧ True) ∧
    (∃ (f : FnId) (s : State), ((s.fn f.val).resetting = false ∨ s.fnCtxs f.val ≠ []) ∧ True) :=
  ⟨⟨1, 3, leaving (dying .draining) [], dying .draining, by decide, by decide, trivial⟩,
   ⟨1, 3, leaving (dying .live) [], dying .live, by decide, by decide, trivial⟩,
   ⟨1, 3, leaving (dying .draining) [], dying .draining, by decide, by decide, trivial⟩,
   ⟨1, 3, leaving (dying .squashing) [], dying .squashing, by decide, by decide, by decide, by unfold chainTakes; decide +kernel, trivial⟩,
   ⟨1, 3, leaving (dying .squashing) [{}], dying .squashing, by decide, by decide, by decide, by decide, by decide, by decide, trivial⟩,
   ⟨1, { openVd with obj := {}, fns := [(1, { resetting := true })] }, by decide, by decide, trivial⟩,
   ⟨1, { openVd with fns := [(1, { resetting := true })] }, .inr (by decide), trivial⟩⟩

/-- Port 3 in some state, and module 0. -/
def linked (x : Port) (l : Laser) : State := { oneVd with talko := { devId := 2, ports := [(3, x)], lasers := [(0, l)] } }
/-- A Relay completion frame, with the trailer of the first frame of a port without a session. -/
def wired : WireFrame :=
  let w : WireFrame := { type := 17, vc := 3, dst := 2, src := 5 }
  { w with trailer := trailerOf {} 0 (headerBytes w) [] }

theorem framesOne (s : State) (x : Port) (w : WireFrame)
    (h : (trailerOk x x.rxCount w && frameOk w && decide ((frameOf w).dst = s.talko.devId)) = true) : framesOk s x [w] := by
  intro k v e
  simp only [Bool.and_eq_true, decide_eq_true_eq] at h
  cases k with
  | zero =>
    simp at e
    subst e
    exact ⟨h.1.1, h.1.2, h.2⟩
  | succ k => simp at e
def upPort : Port := { st := .up }
def block7 : DataBlock := { seq := 7, frames := [(7, { type := 17, vc := 3 })] }

/-- States and operands that meet the hypotheses of every clause of LinkBlocksAndLasers. -/
theorem wit_LinkBlocksAndLasers :
    (∃ (p : PortId) (seq : Fin 4096) (good : Bool) (ws : List WireFrame) (s : State), let x := s.port p.val
    (x.st ≠ .up) ∧ True) ∧
    (∃ (p : PortId) (seq : Fin 4096) (good : Bool) (ws : List WireFrame) (s : State), let x := s.port p.val
    (x.st = .up) ∧ (good = false) ∧ True) ∧
    (∃ (p : PortId) (seq : Fin 4096) (good : Bool) (ws : List WireFrame) (s : State), let x := s.port p.val
    (x.st = .up) ∧ (good = true) ∧ (seq.val ≠ x.rxNext) ∧ True) ∧
    (∃ (p : PortId) (seq : Fin 4096) (good : Bool) (ws : List WireFrame) (s : State), let x := s.port p.val
    (x.st = .up) ∧ (good = true) ∧ (seq.val = x.rxNext) ∧ ((x.tagFails.filter (fun k => decide (s.s0 < k + 800000000))).length < 16) ∧ (x.rxSkip = none) ∧ (framesOk s x ws) ∧ True) ∧
    (∃ (p : PortId) (seq : Fin 4096) (good : Bool) (ws : List WireFrame) (s : State), let x := s.port p.val
    (x.st = .up) ∧ (good = true) ∧ (seq.val = x.rxNext) ∧ ((x.tagFails.filter (fun k => decide (s.s0 < k + 800000000))).length < 16) ∧ ∃ k, (x.rxSkip = some k) ∧ (k ≠ seq.val) ∧ True) ∧
    (∃ (p : PortId) (seq : Fin 4096) (good : Bool) (ws : List WireFrame) (s : State), let x := s.port p.val
    (x.st = .up) ∧ (good = true) ∧ (seq.val = x.rxNext) ∧ ((x.tagFails.filter (fun k => decide (s.s0 < k + 800000000))).length < 16) ∧ ∃ w rest, (x.rxSkip = none) ∧ (x.session = false) ∧ (ws = w :: rest) ∧ (trailerOk x x.rxCount w = false) ∧ True) ∧
    (∃ (p : PortId) (s : State), let x := s.port p.val
    (x.st ≠ .up) ∧ ∃ (q : Fin 4096) (a b d e : W32), ∃ c, (c ∈ [Instr.dataBlockSend p, .linkBlockDue p, .nakRepeatExpiry p, .linkAck p q, .linkNak p q, .linkCredit p a b d e]) ∧ True) ∧
    (∃ (p : PortId) (s : State), let x := s.port p.val
    (x.st = .up) ∧ ∃ q, (x.replaying = some q) ∧ True) ∧
    (∃ (p : PortId) (s : State), let x := s.port p.val
    (x.st = .up) ∧ (x.replaying = none) ∧ (1024 ≤ x.replay.length ∨ (x.sending = none ∧ ∀ f ∈ x.queue, hasCredit x f = false)) ∧ True) ∧
    (∃ (p : PortId) (s : State), let x := s.port p.val
    (x.st = .up) ∧ ∃ f, (x.replaying = none) ∧ (x.replay.length < 1024) ∧ (x.sending = none) ∧ (x.queue = [f]) ∧ (hasCredit x f = true) ∧ (wireLen f ≤ 640) ∧ True) ∧
    (∃ (p : PortId) (s : State), let x := s.port p.val
    (x.st = .up) ∧ True) ∧
    (∃ (p : PortId) (s : State), let x := s.port p.val
    (x.st = .up) ∧ ∃ q, (x.nakSent = some q) ∧ True) ∧
    (∃ (p : PortId) (s : State), let x := s.port p.val
    (x.st = .up) ∧ ∃ _a _b _d _e : W32, True) ∧
    (∃ (p : PortId) (s : State), let x := s.port p.val
    (x.st = .up) ∧ ∃ (q : Fin 4096), ∃ k, (x.replay.findIdx? (fun b => b.seq = q.val) = some k) ∧ True) ∧
    (∃ (p : PortId) (s : State), let x := s.port p.val
    (x.st = .up) ∧ ∃ (q : Fin 4096), (∀ b ∈ x.replay, b.seq ≠ q.val) ∧ True) ∧
    (∃ (p : PortId) (s : State), let x := s.port p.val
    (x.st = .up) ∧ ∃ (q : Fin 4096), ∃ b, (b ∈ x.replay) ∧ (b.seq = q.val) ∧ let n := if x.naks.1 = q.val then x.naks.2 + 1 else 1
    (n < 16) ∧ True) ∧
    (∃ (p : PortId) (s : State), let x := s.port p.val
    (x.st = .up) ∧ ∃ (q : Fin 4096), ∃ b, (b ∈ x.replay) ∧ (b.seq = q.val) ∧ let n := if x.naks.1 = q.val then x.naks.2 + 1 else 1
    (16 ≤ n) ∧ True) ∧
    (∃ (k : Fin 4) (s : State), let l := laser s k.val
    ∃ (m : Fin 512), (l.enabled = true) ∧ (l.locked = false) ∧ (l.failed = false) ∧ (m.val = 0) ∧ True) ∧
    (∃ (k : Fin 4) (s : State), let l := laser s k.val
    ∃ (m : Fin 512), (l.enabled = true) ∧ (l.locked = false) ∧ (l.failed = false) ∧ (m.val ≠ 0) ∧ True) ∧
    (∃ (k : Fin 4) (s : State), let l := laser s k.val
    (l.enabled = false ∨ l.locked = true ∨ l.failed = true) ∧ True) ∧
    (∃ (k : Fin 4) (s : State), let l := laser s k.val
    let lit : Prop := l.enabled = true ∧ l.locked = true ∧ l.failed = false
    (lit) ∧ True) ∧
    (∃ (k : Fin 4) (s : State), let l := laser s k.val
    let lit : Prop := l.enabled = true ∧ l.locked = true ∧ l.failed = false
    (lit) ∧ (2 ≤ l.statusBad) ∧ True) ∧
    (∃ (k : Fin 4) (s : State), let l := laser s k.val
    let lit : Prop := l.enabled = true ∧ l.locked = true ∧ l.failed = false
    (lit) ∧ (l.statusBad < 2) ∧ True) ∧
    (∃ (k : Fin 4) (s : State), let l := laser s k.val
    let lit : Prop := l.enabled = true ∧ l.locked = true ∧ l.failed = false
    (¬lit) ∧ True) :=
  ⟨⟨3, 0, true, [wired], linked { st := .keying } {}, by decide, trivial⟩,
   ⟨3, 0, false, [wired], linked upPort {}, by decide, by decide, trivial⟩,
   ⟨3, 4095, true, [wired], linked upPort {}, by decide, by decide, by decide, trivial⟩,
   ⟨3, 4095, true, [wired], linked { upPort with rxNext := 4095 } {}, by decide, by decide, by decide, by decide, by decide, framesOne _ _ _ (by decide +kernel), trivial⟩,
   ⟨3, 5, true, [wired], linked { upPort with rxNext := 5, rxSkip := some 6 } {}, by decide, by decide, by decide, by decide, 6, by decide, by decide, trivial⟩,
   ⟨3, 5, true, [{ wired with trailer := [] }], linked { upPort with rxNext := 5 } {}, by decide, by decide, by decide, by decide, { wired with trailer := [] }, [], by decide, by decide, by decide, by decide, trivial⟩,
   ⟨3, linked { st := .renegotiating } {}, by decide, 1, 2, 3, 4, 5, .dataBlockSend 3, List.Mem.head _, trivial⟩,
   ⟨3, linked { upPort with replaying := some 7, replay := [block7] } {}, by decide, 7, by decide, trivial⟩,
   ⟨3, linked { upPort with replay := List.replicate 1024 block7 } {}, by decide, by decide, .inl (by decide +kernel), trivial⟩,
   ⟨3, linked { upPort with queue := [{ type := 17, vc := 3, payload := List.replicate 592 1 }] } {}, by decide, { type := 17, vc := 3, payload := List.replicate 592 1 }, by decide, by decide, by decide, by decide +kernel, by decide +kernel, by decide +kernel, trivial⟩,
   ⟨3, linked upPort {}, by decide, trivial⟩,
   ⟨3, linked { upPort with nakSent := some 7 } {}, by decide, 7, by decide, trivial⟩,
   ⟨3, linked upPort {}, by decide, 1, 2, 3, 4, trivial⟩,
   ⟨3, linked { upPort with replay := [block7] } {}, by decide, 7, 0, by decide, trivial⟩,
   ⟨3, linked { upPort with replay := [block7] } {}, by decide, 8, by decide, trivial⟩,
   ⟨3, linked { upPort with replay := [block7], naks := (7, 14) } {}, by decide, 7, block7, List.Mem.head _, by decide, by decide, trivial⟩,
   ⟨3, linked { upPort with replay := [block7], naks := (7, 15) } {}, by decide, 7, block7, List.Mem.head _, by decide, by decide, trivial⟩,
   ⟨0, linked upPort { enabled := true }, 0, by decide, by decide, by decide, by decide, trivial⟩,
   ⟨0, linked upPort { enabled := true }, 511, by decide, by decide, by decide, by decide, trivial⟩,
   ⟨0, linked upPort { enabled := true, locked := true }, .inr (.inl (by decide)), trivial⟩,
   ⟨0, linked upPort { enabled := true, locked := true }, by decide, trivial⟩,
   ⟨0, linked upPort { enabled := true, locked := true, statusBad := 2 }, by decide, by decide, trivial⟩,
   ⟨0, linked upPort { enabled := true, locked := true, statusBad := 1 }, by decide, by decide, trivial⟩,
   ⟨0, linked upPort {}, by decide, trivial⟩⟩

/-- A root of trust that can sign, with one shared token. -/
def rooted (x : Port) (n : Nat) : State :=
  { linked x {} with sec := { rootOk := true, shared := n } }
def capsRoot : List Byte := List.replicate 48 7
def knows (x : Port) : Port := { x with trained := 511, peerCaps := some { devId := 5, lanes := 511, enc := 1 } }
def modeOf (k : Caps) (s : State) : LinkMode := match resolve (capsOf s 3) k with | .inr m => m | .inl _ => {}
def allLanes : Caps := { devId := 5, lanes := 511 }
def aMode : LinkMode := { version := 0x0101, map := 255, active := 8, spare := some 8, enc := true, lowId := 2, highId := 5 }
def policyFor (n : Nat) : List Byte := capsRoot ++ natLe 2 n ++ natLe 2 n ++ List.replicate 12 0

theorem pair_of {α β γ : Type} (o : Option (α × β × γ)) (d : α × β × γ) (h : o.isSome = true) :
    o = some ((o.getD d).1, (o.getD d).2.1, (o.getD d).2.2) := by
  cases o <;> simp at h ⊢

theorem mode_of (s : State) (k : Caps) (h : (match resolve (capsOf s 3) k with | .inr _ => true | .inl _ => false) = true) :
    resolve (capsOf s 3) k = .inr (modeOf k s) := by
  unfold modeOf
  cases hr : resolve (capsOf s 3) k <;> simp [hr] at h ⊢

/-- States and operands that meet the hypotheses of every clause of PortsNegotiateAndKey. -/
theorem wit_PortsNegotiateAndKey :
    (∃ (p : PortId) (s : State), let x := s.port p.val
    ∃ _lanes : Fin 512, (x.st = .training) ∧ True) ∧
    (∃ (p : PortId) (s : State), let x := s.port p.val
    ∃ _lanes : Fin 512, (x.st ≠ .training) ∧ True) ∧
    (∃ (p : PortId) (s : State), let x := s.port p.val
    ∃ (_a : W64) (_b : W32), (x.st ≠ .off) ∧ (x.st ≠ .down) ∧ True) ∧
    (∃ (p : PortId) (s : State), let x := s.port p.val
    ∃ (_a : W64) (_b : W32), (x.st = .off ∨ x.st = .down) ∧ True) ∧
    (∃ (p : PortId) (s : State), let x := s.port p.val
    ∃ (a : W64) (b : W32) (now : W64), (negotiates x) ∧ (x.echoed = false) ∧ let d := now.toNat - a.toNat - b.toNat
    (100000 < d * 64) ∧ True) ∧
    (∃ (p : PortId) (s : State), let x := s.port p.val
    ∃ (a : W64) (b : W32) (now : W64), (negotiates x) ∧ (x.echoed = false) ∧ let d := now.toNat - a.toNat - b.toNat
    (d * 64 ≤ 100000) ∧ (x.peerCaps = none) ∧ True) ∧
    (∃ (p : PortId) (s : State), let x := s.port p.val
    ∃ (a : W64) (b : W32) (now : W64), (negotiates x) ∧ (x.echoed = false) ∧ let d := now.toNat - a.toNat - b.toNat
    ∃ r k m, (reachOf d = some r) ∧ (x.peerCaps = some k) ∧ (x.peerRecord = []) ∧ (resolve (capsOf (s.setPort p.val { x with echoed := true, reach := r }) p.val) k = .inr m) ∧ True) ∧
    (∃ (p : PortId) (s : State), let x := s.port p.val
    ∃ (_a : W64) (_b : W32) (_now : W64), (¬negotiates x ∨ x.echoed = true) ∧ True) ∧
    (∃ (p : PortId) (s : State), let x := s.port p.val
    ∃ _k : Caps, (negotiates x) ∧ (x.echoed = false) ∧ True) ∧
    (∃ (p : PortId) (s : State), let x := s.port p.val
    ∃ k : Caps, (negotiates x) ∧ ∃ r, (x.echoed = true) ∧ (resolve (capsOf s p.val) k = .inl r) ∧ True) ∧
    (∃ (p : PortId) (s : State), let x := s.port p.val
    ∃ k : Caps, (negotiates x) ∧ ∃ m, (x.echoed = true) ∧ (x.peerRecord = []) ∧ (resolve (capsOf s p.val) k = .inr m) ∧ True) ∧
    (∃ (p : PortId) (s : State), let x := s.port p.val
    ∃ _k : Caps, (x.st = .up ∨ x.st = .keying) ∧ True) ∧
    (∃ (p : PortId) (s : State), let x := s.port p.val
    ∃ (rcd : List Byte), (negotiates x) ∧ (rcd.length = 16) ∧ (x.mode = none) ∧ True) ∧
    (∃ (p : PortId) (s : State), let x := s.port p.val
    ∃ (rcd : List Byte), (negotiates x) ∧ (rcd.length = 16) ∧ ∃ m, (x.mode = some m) ∧ (rcd = modeRecord m) ∧ True) ∧
    (∃ (p : PortId) (s : State), let x := s.port p.val
    ∃ (rcd : List Byte), (negotiates x) ∧ (rcd.length = 16) ∧ ∃ m, (x.mode = some m) ∧ (rcd ≠ modeRecord m) ∧ (x.attempts < 2) ∧ True) ∧
    (∃ (p : PortId) (s : State), let x := s.port p.val
    ∃ (rcd : List Byte), (negotiates x) ∧ (rcd.length = 16) ∧ ∃ m, (x.mode = some m) ∧ (rcd ≠ modeRecord m) ∧ (2 ≤ x.attempts) ∧ True) ∧
    (∃ (p : PortId) (s : State), let x := s.port p.val
    ∃ (_root : List Byte), (x.st = .keying) ∧ (canKey s = false) ∧ True) ∧
    (∃ (p : PortId) (s : State), let x := s.port p.val
    ∃ (_root : List Byte), (x.st = .keying) ∧ (canKey s = true) ∧ (takeToken s 0 = none) ∧ True) ∧
    (∃ (p : PortId) (s : State), let x := s.port p.val
    ∃ (root : List Byte), (x.st = .keying) ∧ ∃ t1, (canKey s = true) ∧ (takeToken s 0 = some t1) ∧ (signPair t1 root = none) ∧ True) ∧
    (∃ (p : PortId) (s : State), let x := s.port p.val
    ∃ (root : List Byte), (x.st = .keying) ∧ ∃ t1 a b s1, (canKey s = true) ∧ (takeToken s 0 = some t1) ∧ (signPair t1 root = some (a, b, s1)) ∧ (peerAllowed x root ((x.peerCaps.map (·.devId)).getD 0) = false) ∧ True) ∧
    (∃ (p : PortId) (s : State), let x := s.port p.val
    ∃ (root : List Byte), (x.st = .keying) ∧ ∃ t1 a b s1, (canKey s = true) ∧ (takeToken s 0 = some t1) ∧ (signPair t1 root = some (a, b, s1)) ∧ ∃ m, (x.mode = some m) ∧ (peerAllowed x root ((x.peerCaps.map (·.devId)).getD 0) = true) ∧ True) ∧
    (∃ (p : PortId) (s : State), let x := s.port p.val
    (x.st = .keying) ∧ True) ∧
    (∃ (p : PortId) (s : State), let x := s.port p.val
    (x.st ≠ .keying) ∧ True) ∧
    (∃ (p : PortId) (s : State), let x := s.port p.val
    (x.st ≠ .keying) ∧ True) ∧
    (∃ (p : PortId) (s : State), let x := s.port p.val
    (x.st = .up) ∧ (x.session = true) ∧ (requester s x = true) ∧ (x.keyUpdate = false) ∧ True) ∧
    (∃ (p : PortId) (s : State), let x := s.port p.val
    (x.st = .up) ∧ (x.session = true) ∧ (requester s x = false) ∧ True) ∧
    (∃ (p : PortId) (s : State), let x := s.port p.val
    (x.st = .up) ∧ (x.session = true) ∧ True) ∧
    (∃ (p : PortId) (s : State), let x := s.port p.val
    (x.st = .up) ∧ (x.session = true) ∧ ∃ bs, (fieldAt (x.spdmIn ++ bs) 1 1 = 0x69) ∧ (x.keyUpdate = true) ∧ True) ∧
    (∃ (p : PortId) (s : State), let x := s.port p.val
    (x.st = .up) ∧ (x.session = true) ∧ ∃ bs, (fieldAt (x.spdmIn ++ bs) 1 1 = 0xE9) ∧ (requester s x = false) ∧ True) ∧
    (∃ (p : PortId) (s : State), let x := s.port p.val
    (x.st = .up) ∧ ∃ (lane : Fin 9) (_q : Fin 4096), ∃ sp, (x.spare = some sp) ∧ (lane.val ∈ x.laneMap) ∧ True) ∧
    (∃ (p : PortId) (s : State), let x := s.port p.val
    (x.st = .up) ∧ ∃ (lane : Fin 9) (_q : Fin 4096), (x.spare = none) ∧ (lane.val ∈ x.laneMap) ∧ True) ∧
    (∃ (p : PortId) (s : State), let x := s.port p.val
    (x.st = .up) ∧ ∃ (lane : Fin 9) (_q : Fin 4096), ∃ sp, (x.laneDown = some lane.val) ∧ (x.spare = some sp) ∧ True) ∧
    (∃ (p : PortId) (s : State), let x := s.port p.val
    (x.st = .up) ∧ ∃ (lane : Fin 9) (_q : Fin 4096), (x.laneDown ≠ some lane.val) ∧ True) ∧
    (∃ (p : PortId) (s : State), let x := s.port p.val
    (x.st = .up) ∧ ∃ (lane : Fin 9) (_q : Fin 4096), (x.spare = some lane.val) ∧ True) ∧
    (∃ (p : PortId) (s : State), let x := s.port p.val
    (x.st = .up) ∧ ∃ (lane : Fin 9) (_q : Fin 4096), ∃ sp, (lane.val ∈ x.laneMap) ∧ (x.laneDown = none) ∧ (x.spare = some sp) ∧ (sp ≠ lane.val) ∧ True) ∧
    (∃ (p : PortId) (s : State), let x := s.port p.val
    (x.st = .up) ∧ ∃ (lane : Fin 9) (_q : Fin 4096), (lane.val ∈ x.laneMap) ∧ (x.spare = none) ∧ True) ∧
    (∃ (p : PortId) (s : State), let x := s.port p.val
    ∃ _r : Fin 16, (x.st ≠ .off) ∧ (x.st ≠ .down) ∧ True) ∧
    (∃ (p : PortId) (s : State), let x := s.port p.val
    ∃ _r : Fin 16, (x.st = .off ∨ x.st = .down) ∧ True) :=
  ⟨⟨3, linked { st := .training } {}, 511, by decide, trivial⟩,
   ⟨3, linked { st := .up } {}, 511, by decide, trivial⟩,
   ⟨3, linked { st := .training } {}, 1, 2, by decide, by decide, trivial⟩,
   ⟨3, linked { st := .down } {}, 1, 2, .inr (by decide), trivial⟩,
   ⟨3, linked { st := .negotiating } {}, 0, 0, 1563, .inl (by decide), by decide, by decide, trivial⟩,
   ⟨3, linked { st := .negotiating } {}, 0, 0, 1562, .inl (by decide), by decide, by decide, by decide, trivial⟩,
   ⟨3, linked (knows { st := .renegotiating }) {}, 0, 0, 156, .inr (by decide), by decide, 1, { devId := 5, lanes := 511, enc := 1 }, modeOf { devId := 5, lanes := 511, enc := 1 } ((linked (knows { st := .renegotiating }) {}).setPort 3 { knows { st := .renegotiating } with echoed := true, reach := 1 }), by decide, by decide, by decide, mode_of _ _ (by decide +kernel), trivial⟩,
   ⟨3, linked { st := .up } {}, 0, 0, 1, .inl (by simp [negotiates]; decide), trivial⟩,
   ⟨3, linked { st := .negotiating } {}, allLanes, .inl (by decide), by decide, trivial⟩,
   ⟨3, linked { st := .negotiating, echoed := true, trained := 0 } {}, allLanes, .inl (by decide), 2, by decide, by decide, trivial⟩,
   ⟨3, linked { st := .negotiating, echoed := true, trained := 511 } {}, allLanes, .inl (by decide), modeOf allLanes (linked { st := .negotiating, echoed := true, trained := 511 } {}), by decide, by decide, mode_of _ _ (by decide +kernel), trivial⟩,
   ⟨3, linked { st := .keying } {}, allLanes, .inr (by decide), trivial⟩,
   ⟨3, linked { st := .negotiating } {}, List.replicate 16 1, .inl (by decide), by decide, by decide, trivial⟩,
   ⟨3, linked { st := .negotiating, mode := some aMode } {}, modeRecord aMode, .inl (by decide), by decide, aMode, by decide, by decide, trivial⟩,
   ⟨3, linked { st := .negotiating, mode := some aMode, attempts := 1 } {}, List.replicate 16 1, .inl (by decide), by decide, aMode, by decide, by decide, by decide, trivial⟩,
   ⟨3, linked { st := .negotiating, mode := some aMode, attempts := 2 } {}, List.replicate 16 1, .inl (by decide), by decide, aMode, by decide, by decide, by decide, trivial⟩,
   ⟨3, linked { st := .keying } {}, capsRoot, by decide, by decide, trivial⟩,
   ⟨3, rooted { st := .keying } 0, capsRoot, by decide, by decide, by decide, trivial⟩,
   ⟨3, { rooted (knows { st := .keying, mode := some aMode }) 1 with sec := { rootOk := true, shared := 1, failedSlots := [0] } }, capsRoot, by decide, (takeToken ({ rooted (knows { st := .keying, mode := some aMode }) 1 with sec := { rootOk := true, shared := 1, failedSlots := [0] } }) 0).getD {}, by decide, some_getD _ _ (by decide +kernel), by decide +kernel, trivial⟩,
   ⟨3, rooted (knows { st := .keying, mode := some aMode, peerPolicy := policyFor 6 }) 1, capsRoot, by decide, (takeToken (rooted (knows { st := .keying, mode := some aMode, peerPolicy := policyFor 6 }) 1) 0).getD {}, ((signPair ((takeToken (rooted (knows { st := .keying, mode := some aMode, peerPolicy := policyFor 6 }) 1) 0).getD {}) capsRoot).getD ([], [], {})).1, ((signPair ((takeToken (rooted (knows { st := .keying, mode := some aMode, peerPolicy := policyFor 6 }) 1) 0).getD {}) capsRoot).getD ([], [], {})).2.1, ((signPair ((takeToken (rooted (knows { st := .keying, mode := some aMode, peerPolicy := policyFor 6 }) 1) 0).getD {}) capsRoot).getD ([], [], {})).2.2, by decide, some_getD _ _ (by decide +kernel), pair_of _ _ (by decide +kernel), by decide, trivial⟩,
   ⟨3, rooted (knows { st := .keying, mode := some aMode, peerPolicy := policyFor 5 }) 1, capsRoot, by decide, (takeToken (rooted (knows { st := .keying, mode := some aMode, peerPolicy := policyFor 5 }) 1) 0).getD {}, ((signPair ((takeToken (rooted (knows { st := .keying, mode := some aMode, peerPolicy := policyFor 5 }) 1) 0).getD {}) capsRoot).getD ([], [], {})).1, ((signPair ((takeToken (rooted (knows { st := .keying, mode := some aMode, peerPolicy := policyFor 5 }) 1) 0).getD {}) capsRoot).getD ([], [], {})).2.1, ((signPair ((takeToken (rooted (knows { st := .keying, mode := some aMode, peerPolicy := policyFor 5 }) 1) 0).getD {}) capsRoot).getD ([], [], {})).2.2, by decide, some_getD _ _ (by decide +kernel), pair_of _ _ (by decide +kernel), aMode, by decide, by decide, trivial⟩,
   ⟨3, linked { st := .keying } {}, by decide, trivial⟩,
   ⟨3, linked upPort {}, by decide, trivial⟩,
   ⟨3, linked upPort {}, by decide, trivial⟩,
   ⟨3, linked { knows upPort with session := true } {}, by decide, by decide, by decide, by decide, trivial⟩,
   ⟨3, linked { knows upPort with session := true, peerCaps := some { devId := 1 } } {}, by decide, by decide, by decide, trivial⟩,
   ⟨3, linked { knows upPort with session := true } {}, by decide, by decide, trivial⟩,
   ⟨3, linked { knows upPort with session := true, keyUpdate := true, spdmIn := [17] } {}, by decide, by decide, [0x69, 0, 0], by decide, by decide, trivial⟩,
   ⟨3, linked { knows upPort with session := true, peerCaps := some { devId := 1 }, spdmIn := [17] } {}, by decide, by decide, [0xE9, 2, 0], by decide, by decide, trivial⟩,
   ⟨3, linked { upPort with laneMap := [0, 1, 2, 3, 4, 5, 6, 7], spare := some 8 } {}, by decide, 7, 4095, 8, by decide, by decide, trivial⟩,
   ⟨3, linked { upPort with laneMap := [0, 1, 2, 3, 4, 5, 6, 7] } {}, by decide, 7, 4095, by decide, by decide, trivial⟩,
   ⟨3, linked { upPort with laneMap := [0, 1, 2, 3, 4, 5, 6, 7], spare := some 8, laneDown := some 7 } {}, by decide, 7, 4095, 8, by decide, by decide, trivial⟩,
   ⟨3, linked { upPort with laneMap := [0, 1, 2, 3, 4, 5, 6, 7], spare := some 8, laneDown := some 7 } {}, by decide, 0, 4095, by decide, trivial⟩,
   ⟨3, linked { upPort with laneMap := [0, 1, 2, 3, 4, 5, 6, 7], spare := some 8 } {}, by decide, 8, 0, by decide, trivial⟩,
   ⟨3, linked { upPort with laneMap := [0, 1, 2, 3, 4, 5, 6, 7], spare := some 8 } {}, by decide, 0, 0, 8, by decide, by decide, by decide, by decide, trivial⟩,
   ⟨3, linked { upPort with laneMap := [0, 1, 2, 3, 4, 5, 6, 7] } {}, by decide, 0, 0, by decide, by decide, trivial⟩,
   ⟨3, linked { st := .training } {}, 15, by decide, by decide, trivial⟩,
   ⟨3, linked {} {}, 15, .inl (by decide), trivial⟩⟩

/-- VF 1 on the host link, its BAR4 window at device address 0. -/
def linkVf (sealed : Bool) (poison : List Nat) : State :=
  { openVd with
    cmp := { vds := [(1, { live := true, tag := 5, posSealed := sealed })] }
    mem := { openVd.mem with units := poison.map (fun k => (k, { poison := true })) }
    gfe := { admins := [(1, { fn := 1, sh := upShake })] } }
def splitLink : State := { openVd with pcie := { split := true, fns := [(0, { vfEn := true, numVfs := 3 }), (64, { vfEn := true, numVfs := 2 })] } }

/-- States and operands that meet the hypotheses of every clause of HostLinkCommands. -/
theorem wit_HostLinkCommands :
    (∃ (h : Fin 2) (_r : LinkRate) (_w : LinkWidth) (_fl : Bool) (s : State), (h.val = 1 ∧ s.pcie.split = false) ∧ True) ∧
    (∃ (h : Fin 2) (_r : LinkRate) (_w : LinkWidth) (_fl : Bool) (s : State), (h.val = 0 ∨ s.pcie.split = true) ∧ (h.val < s.pcie.halves.length) ∧ True) ∧
    (∃ (h : Fin 2) (_r : LinkRate) (_w : LinkWidth) (_fl : Bool) (s : State), (h.val = 0 ∨ s.pcie.split = true) ∧ True) ∧
    (∃ (s : State), ∃ f : FnId, (f.val ≠ 0 ∧ vfOn s f.val = true) ∧ True) ∧
    (∃ (s : State), ∃ f : FnId, (f.val = 0 ∨ vfOn s f.val = false) ∧ True) ∧
    (∃ (s : State), ∃ (p : PhysFn) (n : Fin 64), (n.val ≤ totalVfs s p) ∧ True) ∧
    (∃ (s : State), ∃ (p : PhysFn) (n : Fin 64), (totalVfs s p < n.val) ∧ True) ∧
    (∃ (s : State), ∃ p : PhysFn, ((s.pf (physKey p)).pm = .d3hot) ∧ True) ∧
    (∃ (s : State), ∃ p : PhysFn, ((s.pf (physKey p)).pm = .d0) ∧ True) ∧
    (∃ (f : LinkFn) (s : State), (absentFn s f) ∧ True) ∧
    (∃ (f : LinkFn) (s : State), let k := linkKey f
    (¬absentFn s f) ∧ (s.boot.ready = false ∨ (s.fn k).resetting = true) ∧ True) ∧
    (∃ (f : LinkFn) (s : State), let k := linkKey f
    (¬absentFn s f) ∧ (s.boot.ready = true) ∧ ((s.fn k).resetting = false) ∧ ∃ (d : Fin 1024), ∃ v, (cfgRead s k (4 * d.val) = some v) ∧ True) ∧
    (∃ (f : LinkFn) (s : State), let k := linkKey f
    (¬absentFn s f) ∧ (s.boot.ready = true) ∧ ((s.fn k).resetting = false) ∧ ∃ d : Fin 1024, (cfgRead s k (4 * d.val) = none) ∧ True) ∧
    (∃ (f : LinkFn) (s : State), let k := linkKey f
    (¬absentFn s f) ∧ (s.boot.ready = true) ∧ ((s.fn k).resetting = false) ∧ ∃ (_d : Fin 1024), True) ∧
    (∃ (f : LinkFn) (s : State), let k := linkKey f
    (¬absentFn s f) ∧ (s.boot.ready = true) ∧ ((s.fn k).resetting = false) ∧ True) ∧
    (∃ (f : LinkFn) (s : State), (doeOpen s f) ∧ True) ∧
    (∃ (f : LinkFn) (s : State), (doeOpen s f) ∧ True) ∧
    (∃ (f : LinkFn) (s : State), let k := linkKey f
    (doeOpen s f) ∧ (k = 0 ∨ k = 64) ∧ True) ∧
    (∃ (f : LinkFn) (s : State), let k := linkKey f
    (doeOpen s f) ∧ (k ≠ 64) ∧ ((s.pf k).doe.dunir ≠ none) ∧ True) ∧
    (∃ (f : LinkFn) (s : State), let k := linkKey f
    (doeOpen s f) ∧ (k ≠ 64) ∧ ((s.pf k).doe.dunir = none) ∧ True) ∧
    (∃ (f : LinkFn) (s : State), let k := linkKey f
    (doeOpen s f) ∧ ∃ o : DoeKind, (o = .other ∨ o = .tooLong ∨ (o = .secured ∧ k ≠ 0 ∧ k ≠ 64) ∨ (k = 64 ∧ ∃ m, o = .dunir m)) ∧ True) ∧
    (∃ (f : FnId) (off : W64) (s : State), ∃ n : Fin 4097, (bar4Dpa s f.val off.toNat n.val = none) ∧ True) ∧
    (∃ (f : FnId) (off : W64) (s : State), ∃ (n : Fin 4097), ∃ a, (bar4Dpa s f.val off.toNat n.val = some a) ∧ ((s.vd f.val).posSealed = true) ∧ True) ∧
    (∃ (f : FnId) (off : W64) (s : State), ∃ (n : Fin 4097), ∃ a, (bar4Dpa s f.val off.toNat n.val = some a) ∧ ((s.vd f.val).posSealed = false) ∧ ((s.fn f.val).xlt.hotDev = 0) ∧ (∀ j < n.val, bytePoison s (s.vdTag f.val) (a + j) = false) ∧ True) ∧
    (∃ (f : FnId) (off : W64) (s : State), ∃ (n : Fin 4097), ∃ a, (bar4Dpa s f.val off.toNat n.val = some a) ∧ ((s.vd f.val).posSealed = false) ∧ ((s.fn f.val).xlt.hotDev = 0) ∧ ∃ j, (j < n.val) ∧ (bytePoison s (s.vdTag f.val) (a + j) = true) ∧ True) ∧
    (∃ (f : FnId) (off : W64) (s : State), ∃ (bs : List Byte), (bs.length ≤ 4096) ∧ (bar4Dpa s f.val off.toNat bs.length = none) ∧ True) ∧
    (∃ (f : FnId) (off : W64) (s : State), ∃ (bs : List Byte), (bs.length ≤ 4096) ∧ ∃ a, (bar4Dpa s f.val off.toNat bs.length = some a) ∧ ((s.vd f.val).posSealed = true) ∧ True) ∧
    (∃ (f : FnId) (off : W64) (s : State), ∃ (bs : List Byte), ∃ ep, (bs.length ≤ 4096) ∧ ∃ a, (bar4Dpa s f.val off.toNat bs.length = some a) ∧ ((s.vd f.val).posSealed = false) ∧ (ep = false) ∧ True) ∧
    (∃ (f : FnId) (off : W64) (s : State), ∃ (bs : List Byte), ∃ ep, (bs.length ≤ 4096) ∧ ∃ a, (bar4Dpa s f.val off.toNat bs.length = some a) ∧ ((s.vd f.val).posSealed = false) ∧ (ep = true) ∧ True) ∧
    (∃ (f : FnId) (off : W64) (s : State), ∃ (bar : BarId), ∃ op sz, (bar ≠ .bar4 ∨ atomicNew op (sizeOf_ sz) 0 = none ∨ bar4Dpa s f.val off.toNat (sizeOf_ sz) = none ∨ off.toNat % sizeOf_ sz ≠ 0) ∧ True) ∧
    (∃ (f : FnId) (off : W64) (s : State), ∃ op sz a, (bar4Dpa s f.val off.toNat (sizeOf_ sz) = some a) ∧ (off.toNat % sizeOf_ sz = 0) ∧ ((s.vd f.val).posSealed = false) ∧ ((s.fn f.val).xlt.hotDev = 0) ∧ (∀ j < sizeOf_ sz, bytePoison s (s.vdTag f.val) (a + j) = false) ∧ ∃ v, (atomicNew op (sizeOf_ sz) (leNat (readDpaVd s f.val a (sizeOf_ sz)).1) = some v) ∧ True) ∧
    (∃ (_g : HostAgent) (c : CplIn) (_s : State), (c = .success) ∧ True) ∧
    (∃ (_g : HostAgent) (c : CplIn) (_s : State), (c ≠ .success) ∧ True) ∧
    (∃ (g : HostAgent) (c : CplIn) (s : State), (c ≠ .success) ∧ ∃ r x, (g = .ring r) ∧ (s.ring? (refOf r) = some x) ∧ (s.ready = []) ∧ True) ∧
    (∃ (g : HostAgent) (_c : CplIn) (s : State), ∃ r x, (g = .ring r) ∧ (s.ring? (refOf r) = some x) ∧ (s.ready = []) ∧ True) :=
  ⟨⟨1, .r32, .x8, false, linkVf false [], by decide, trivial⟩,
   ⟨1, .r128, .x16, false, splitLink, .inr (by decide), by decide, trivial⟩,
   ⟨0, .r64, .x16, true, linkVf false [], .inl (by decide), trivial⟩,
   ⟨linkVf false [], 3, by decide, trivial⟩,
   ⟨linkVf false [], 4, .inr (by decide), trivial⟩,
   ⟨linkVf false [], .pf0, 63, by decide, trivial⟩,
   ⟨splitLink, .c1, 33, by decide, trivial⟩,
   ⟨{ openVd with pcie := { fns := [(0, { pm := .d3hot })] } }, .pf0, by decide, trivial⟩,
   ⟨linkVf false [], .pf0, by decide, trivial⟩,
   ⟨.fn 4, linkVf false [], by unfold absentFn; decide, trivial⟩,
   ⟨.fn 1, { linkVf false [] with fns := [(1, { resetting := true })] }, by unfold absentFn; decide, .inr (by decide), trivial⟩,
   ⟨.fn 1, linkVf false [], by unfold absentFn; decide, by decide, by decide, 0, 0x74111F7C, by decide +kernel, trivial⟩,
   ⟨.fn 1, linkVf false [], by unfold absentFn; decide, by decide, by decide, 1, by decide +kernel, trivial⟩,
   ⟨.c1, splitLink, by unfold absentFn; decide, by decide, by decide, 65, trivial⟩,
   ⟨.fn 0, linkVf false [], by unfold absentFn; decide, by decide, by decide, trivial⟩,
   ⟨.fn 1, linkVf false [], by unfold doeOpen; decide, trivial⟩,
   ⟨.fn 0, linkVf false [], by unfold doeOpen; decide, trivial⟩,
   ⟨.c1, splitLink, by unfold doeOpen; decide, .inr (by decide), trivial⟩,
   ⟨.fn 0, { linkVf false [] with pcie := { fns := [(0, { doe := { dunir := some [1] } })] } }, by unfold doeOpen; decide, by decide, by decide, trivial⟩,
   ⟨.fn 1, linkVf false [], by unfold doeOpen; decide, by decide, by decide, trivial⟩,
   ⟨.fn 1, linkVf false [], by unfold doeOpen; decide, .secured, .inr (.inr (.inl (by decide))), trivial⟩,
   ⟨1, 0x20000000, linkVf false [], 0, by decide, trivial⟩,
   ⟨1, 0x20000000, linkVf true [], 4096, 0x20000000, by decide, by decide, trivial⟩,
   ⟨1, 0x2000007F, linkVf false [0x800002], 1, 0x2000007F, by decide, by decide, by decide, by decide +kernel, trivial⟩,
   ⟨1, 0x2000007F, linkVf false [0x800002], 2, 0x2000007F, by decide, by decide, by decide, 1, by decide, by decide, trivial⟩,
   ⟨1, 0xFFFFFFFFF, linkVf false [], [1, 2], by decide, by decide, trivial⟩,
   ⟨1, 0x20000000, linkVf true [], [1, 2], by decide, 0x20000000, by decide, by decide, trivial⟩,
   ⟨1, 0x20000000, linkVf false [], List.replicate 4096 3, false, by decide +kernel, 0x20000000, by decide +kernel, by decide, by decide, trivial⟩,
   ⟨1, 0x20000000, linkVf false [], [1], true, by decide, 0x20000000, by decide, by decide, by decide, trivial⟩,
   ⟨1, 0x20000004, linkVf false [], .bar4, .swap 5, .a8, .inr (.inr (.inr (by decide))), trivial⟩,
   ⟨1, 0x20000008, linkVf false [], .fetchAdd 5, .a8, 0x20000008, by decide, by decide, by decide, by decide, by decide +kernel, 5, by decide +kernel, trivial⟩,
   ⟨.desc 7, .success, linkVf false [], by decide, trivial⟩,
   ⟨.desc 7, .abort, linkVf false [], by decide, trivial⟩,
   ⟨.ring (.admin 1), .poisoned, linkVf false [], by decide, .admin 1, { fn := 1, sh := upShake }, by decide, by decide, by decide, trivial⟩,
   ⟨.ring (.admin 1), .poisoned, linkVf false [], .admin 1, { fn := 1, sh := upShake }, by decide, by decide, by decide, trivial⟩⟩

/-- VD 1's core group 0 with some power state. -/
def powered (x : CgPow) (ref : RefClk) : State :=
  { oneVd with pool := poolOf { cgs := 1, st := .bound 1 }, pow := { locked := true, ref := ref, cgs := [(0, x)] } }
def gliding : State := { powered {} .valid with engs := [(8, { glide := some 100 })] }
def hinted (hs : List Hint) : State := { powered {} .valid with hints := hs }

/-- States and operands that meet the hypotheses of every clause of PowerClocksAndHeat. -/
theorem wit_PowerClocksAndHeat :
    (∃ (g : CgId) (s : State), ∃ k, ((s.cgPow g.val).goal = some k) ∧ (s.pow.ref = .valid) ∧ True) ∧
    (∃ (g : CgId) (s : State), ((s.cgPow g.val).goal = none ∨ s.pow.ref ≠ .valid) ∧ True) ∧
    (∃ (g : CgId) (s : State), (anyGlide s g.val) ∧ True) ∧
    (∃ (g : CgId) (s : State), (¬anyGlide s g.val) ∧ True) ∧
    (∃ (_l : List (CgId × OpStep)) (s : State), (s.pow.ref = .valid) ∧ True) ∧
    (∃ (_l : List (CgId × OpStep)) (s : State), (s.pow.ref ≠ .valid) ∧ True) ∧
    (∃ (_l : List (CgId × OpStep)) (s : State), (s.pow.ref = .alarm) ∧ True) ∧
    (∃ (_l : List (CgId × OpStep)) (s : State), (s.pow.ref ≠ .alarm) ∧ True) ∧
    (∃ (e : EngId) (_prior : Fin 1048576) (s : State), let g := coreCg (engCore e.val)
    (cgPowered s g = true) ∧ (engWaits s e.val = true) ∧ ((s.eng e.val).glide = none) ∧ True) ∧
    (∃ (e : EngId) (_prior : Fin 1048576) (s : State), let g := coreCg (engCore e.val)
    (cgPowered s g = false ∨ engWaits s e.val = false ∨ (s.eng e.val).glide ≠ none) ∧ True) ∧
    (∃ (v : VdId) (n : Fin 4) (_m : Fin 8) (s : State), ∃ h, ((s.hints.filter (fun y => y.vd = v.val && !y.active))[n.val]? = some h) ∧ True) ∧
    (∃ (v : VdId) (_n : Fin 4) (m : Fin 8) (s : State), ∃ h, ((s.hints.filter (fun y => y.vd = v.val && y.active))[m.val]? = some h) ∧ True) ∧
    (∃ (v : VdId) (n : Fin 4) (_m : Fin 8) (s : State), ((s.hints.filter (fun y => y.vd = v.val && !y.active))[n.val]? = none) ∧ True) ∧
    (∃ (v : VdId) (_n : Fin 4) (m : Fin 8) (s : State), ((s.hints.filter (fun y => y.vd = v.val && y.active))[m.val]? = none) ∧ True) ∧
    (∃ (_d : DieId) (_c : Fin 16) (s : State), (s.pins.mpio.contains 3 = true) ∧ True) ∧
    (∃ (_d : DieId) (_c : Fin 16) (s : State), (s.pins.mpio.contains 3 = false) ∧ True) :=
  ⟨⟨0, powered { goal := some 120 } .valid, 120, by decide, by decide, trivial⟩,
   ⟨0, powered { goal := some 120 } .alarm, .inr (by decide), trivial⟩,
   ⟨0, gliding, ⟨1, by decide, 8, by decide, by decide⟩, trivial⟩,
   ⟨0, powered {} .valid, by unfold anyGlide; decide, trivial⟩,
   ⟨[], powered {} .valid, by decide, trivial⟩,
   ⟨[], powered {} .lost, by decide, trivial⟩,
   ⟨[], powered {} .alarm, by decide, trivial⟩,
   ⟨[], powered {} .valid, by decide, trivial⟩,
   ⟨0, 1048575, powered {} .valid, by decide, by decide, by decide, trivial⟩,
   ⟨8, 5, gliding, .inr (.inr (by decide)), trivial⟩,
   ⟨1, 1, 0, hinted [{ vd := 1, active := true, phase := 2 }, { vd := 1 }, { vd := 1, phase := 1, level := 3 }], { vd := 1, phase := 1, level := 3 }, by decide, trivial⟩,
   ⟨1, 0, 1, hinted [{ vd := 1, active := true, phase := 2 }, { vd := 2, active := true }, { vd := 1, active := true, level := 3 }], { vd := 1, active := true, level := 3 }, by decide, trivial⟩,
   ⟨1, 1, 0, hinted [{ vd := 1, active := true, phase := 2 }, { vd := 1 }], by decide, trivial⟩,
   ⟨1, 0, 1, hinted [{ vd := 1, active := true, phase := 2 }], by decide, trivial⟩,
   ⟨0, 5, { powered {} .valid with pins := { mpio := [3] } }, by decide, trivial⟩,
   ⟨0, 5, { powered {} .valid with pins := { mpio := [] } }, by decide, trivial⟩⟩

/-- A device that serves its dictionary. -/
def serving (s : State) : State := { s with boot := { s.boot with running := true, done := [4], halted := false, ready := true } }
/-- A request of a function of the host in its DOE mailbox. -/
def asksAt (s : State) (f : Nat) (m : List Byte) : State :=
  { serving s with pcie := { fns := [(f, { vfEn := true, numVfs := 3, doe := { dunir := some m } })] } }
def leftBy (s : State) (src : DSrc) : State := (takeMsg s src).1
def reqBy (s : State) (src : DSrc) : DReq := parseReq src ((takeMsg s src).2.getD [])
def askGood (s : State) (src : DSrc) (row : Nat) : Bool :=
  (takeMsg s src).2.isSome && decide (rowOf (reqBy s src) = row) && duServed s src && (keptRsp (leftBy s src) (reqBy s src)).isNone
    && (match preCheck (leftBy s src) (reqBy s src) with | .ok (some _) => true | _ => false)

theorem duAsked_by (s : State) (src : DSrc) (row : Nat) (h : askGood s src row = true) :
    duAsked s (leftBy s src) src row (reqBy s src) := by
  simp only [askGood, Bool.and_eq_true, decide_eq_true_eq, Option.isNone_iff_eq_none] at h
  obtain ⟨⟨⟨⟨h1, h2⟩, h3⟩, h4⟩, h5⟩ := h
  refine ⟨⟨(takeMsg s src).2.getD [], ?_, rfl⟩, h2, h3, h4, ?_⟩
  · cases e : takeMsg s src with
    | mk a b =>
      rw [e] at h1
      cases b with
      | none => simp at h1
      | some m => simp [leftBy, e]
  · revert h5
    cases preCheck (leftBy s src) (reqBy s src) with
    | error e => simp
    | ok o => cases o <;> simp
/-- A management controller's request over MCTP. -/
def viaMctp (m : List Byte) : DSrc := .mctp 9 0 m true
def lcMsg : List Byte := writeMsg 0x4001 1 0 (List.replicate 4096 0)
def blobMsg : List Byte := writeMsg 0x4008 1 0 (natLe 4 0x4B574B50 ++ natLe 2 1 ++ List.replicate 186 0)
def sealedVd (t h : Nat) : State :=
  { openVd with
    cmp := { vds := [(1, { live := true, tag := 5, posSealed := true })] }
    sec := { rootOk := true, slots := [(80, { type := t, owner := 1, handle := h, model := List.replicate 16 0 })] }
    mem := { hbm := openVd.mem.hbm ++ cellsAt 0x20000000 (natLe 4 0x4C534B50 ++ [1, 0, 16, 0] ++ List.replicate 16 0 ++ natLe 8 1) }
    chains := [(1, { opened := true, sizeLog2 := 12, dpa := 0x10000 })] }
def pkgHead : List Byte := natLe 4 0x4C534B50 ++ [1, 0, 16, 0] ++ List.replicate 16 0 ++ natLe 8 1 ++ List.replicate 32 0
def unsealing (st : Nat) : Unseal := { st := st, ctx := 3, handle := 7, dst := 0x10000 }
def unsealVd (st : Nat) : State := { sealedVd 3 7 with sec := { (sealedVd 3 7).sec with unseals := [(1, unsealing st)] } }
def piecesOf (s : State) (v ctx : Nat) (write : Bool) (va n : Nat) : List (Bool × Nat × Nat) := (vdRange s v ctx write va n).getD []

theorem pkgAt_of (s : State) (v ctx src dst : Nat) (hd : List Byte)
    (h : (decide (hd = (readPieces s v (piecesOf s v ctx false src 64)).1) && (vdRange s v ctx false src 64).isSome
      && (vdRange s v ctx false src (pkgBytes hd)).isSome && (vdRange s v ctx true dst (pkgLen hd)).isSome) = true) :
    pkgAt s v ctx src dst hd (piecesOf s v ctx false src (pkgBytes hd)) (piecesOf s v ctx true dst (pkgLen hd)) := by
  simp only [Bool.and_eq_true, decide_eq_true_eq] at h
  exact ⟨_, some_getD _ [] h.1.1.2, h.1.1.1, some_getD _ [] h.1.2, some_getD _ [] h.2⟩
/-- A chain with a leaf to sign, or that waits for host time. -/
def chained (x : Chain) (n : Nat) : State :=
  { openVd with chains := [(1, x), (2, { sizeLog2 := 12 })], sec := { rootOk := true, shared := n } }
def leafy : Chain := { opened := true, sizeLog2 := 12, leaves := [{}] }
def zeroVd : State := { openVd with pool := poolOf { cgs := 1, pairs := 0xFFFFFFFFFFFFFFFF, st := .bound 0 } }

/-- States and operands that meet the hypotheses of every clause of SecurityAndAudit. -/
theorem wit_SecurityAndAudit :
    (∃ (src : DSrc) (target : Fin 6) (good : Bool) (s s0 : State) (q : DReq), (duAsked s s0 src 0x400101 q) ∧ (good = true ∨ target.val = 5) ∧ (lcMay s0 q target.val) ∧ (¬otherLive s0) ∧ True) ∧
    (∃ (src : DSrc) (target : Fin 6) (good : Bool) (s s0 : State) (q : DReq), (duAsked s s0 src 0x400101 q) ∧ (good = false) ∧ (target.val ≠ 5) ∧ True) ∧
    (∃ (src : DSrc) (target : Fin 6) (good : Bool) (s s0 : State) (q : DReq), (duAsked s s0 src 0x400101 q) ∧ (good = true ∨ target.val = 5) ∧ (¬lcMay s0 q target.val ∨ otherLive s0) ∧ True) ∧
    (∃ (src : DSrc) (s s0 : State) (q : DReq), (duAsked s s0 src 0x400102 q) ∧ (leNat q.data = 1) ∧ True) ∧
    (∃ (src : DSrc) (s s0 : State) (q : DReq), ∃ k : Fin 4, (duAsked s s0 src 0x400103 q) ∧ (∃ j < 4, j ≠ k.val ∧ j ∉ s0.otp.revoked) ∧ True) ∧
    (∃ (src : DSrc) (s s0 : State) (q : DReq), ∃ k : Fin 4, (duAsked s s0 src 0x400103 q) ∧ (∀ j < 4, j ≠ k.val → j ∈ s0.otp.revoked) ∧ True) ∧
    (∃ (src : DSrc) (s s0 : State) (q : DReq), (duAsked s s0 src 0x400103 q) ∧ True) ∧
    (∃ (src : DSrc) (s s0 : State) (q : DReq), (duAsked s s0 src 0x400201 q) ∧ (fieldAt q.data 0 1 ≤ 1) ∧ (fieldAt q.data 2 2 = 0) ∧ let v := q.row
    let secret := decide (fieldAt q.data 0 1 = 1)
    (v = 0 ∨ (s0.vd v).live = false ∨ (secret = true ∧ s0.otp.lc ≠ 2)) ∧ True) ∧
    (∃ (src : DSrc) (s s0 : State) (q : DReq), (duAsked s s0 src 0x400201 q) ∧ (fieldAt q.data 0 1 ≤ 1) ∧ (fieldAt q.data 2 2 = 0) ∧ let v := q.row
    let secret := decide (fieldAt q.data 0 1 = 1)
    let busy : Prop := s0.fnCtxs v ≠ [] ∨ (s0.vd v).req ≠ none ∨ ((look s0.sec.unseals v).map (·.st)).getD 0 = 1 ∨ (secret = true ∧ windowInto s0 v = true)
    (v ≠ 0) ∧ ((s0.vd v).live = true) ∧ (secret = true → s0.otp.lc = 2) ∧ ((s0.vd v).posture = none) ∧ (busy) ∧ True) ∧
    (∃ (src : DSrc) (s s0 : State) (q : DReq), (duAsked s s0 src 0x400201 q) ∧ (fieldAt q.data 0 1 ≤ 1) ∧ (fieldAt q.data 2 2 = 0) ∧ let v := q.row
    let secret := decide (fieldAt q.data 0 1 = 1)
    let busy : Prop := s0.fnCtxs v ≠ [] ∨ (s0.vd v).req ≠ none ∨ ((look s0.sec.unseals v).map (·.st)).getD 0 = 1 ∨ (secret = true ∧ windowInto s0 v = true)
    (v ≠ 0) ∧ ((s0.vd v).live = true) ∧ (secret = true → s0.otp.lc = 2) ∧ ((s0.vd v).posture = none) ∧ ∃ s1, (¬busy) ∧ (canKey s0 = true) ∧ (secret = true → (s0.vd v).posSealed = false → (freePool s0).isSome = true) ∧ (issueTag (retireTag (posBegun s0 v secret) v) v = some s1) ∧ True) ∧
    (∃ (src : DSrc) (s s0 : State) (q : DReq), ∃ p h n, (duAsked s s0 src 0x400801 q) ∧ ((s0.vd q.fn).posSealed = true) ∧ ((s0.vd q.fn).posture = none) ∧ (blobOk q.data) ∧ (importSlot s0 q.fn = some p) ∧ (slotGood s0 p.1) ∧ ((List.range 8).find? (fun h => !((modelSlots s0 q.fn).map (·.2.handle)).contains h) = some h) ∧ (freePool s0 = some n) ∧ True) ∧
    (∃ (src : DSrc) (s s0 : State) (q : DReq), ∃ y k hd sp dp, (duAsked s s0 src 0x400802 q) ∧ let v := q.fn
    let ctx := fieldAt q.data 0 2
    let u : Unseal := { st := 1, ctx := ctx, handle := fieldAt q.data 2 1, src := fieldAt q.data 8 8, dst := fieldAt q.data 16 8 }
    (fieldAt q.data 3 1 = 0) ∧ (fieldAt q.data 4 4 = 0) ∧ (ctx ≤ 4095) ∧ (u.handle ≤ 7) ∧ (u.src % 64 = 0) ∧ (u.dst % 65536 = 0) ∧ (((look s0.sec.unseals v).map (·.st)).getD 0 ≠ 1) ∧ ((s0.vd v).posture = none) ∧ (s0.ctx? v ctx = some y) ∧ (y.st = .live) ∧ (modelKey s0 v u.handle = some k) ∧ (slotGood s0 k.1) ∧ (pkgAt s0 v ctx u.src u.dst hd sp dp) ∧ (pkgOk hd = true) ∧ (sliceB hd 8 16 = k.2.model) ∧ (overlap u.src (pkgBytes hd) u.dst (pkgLen hd) = false) ∧ True) ∧
    (∃ (v : VdId) (s : State) (u : Unseal), (look s.sec.unseals v.val = some u) ∧ (u.st ≠ 1) ∧ True) ∧
    (∃ (v : VdId) (s : State) (u : Unseal), (look s.sec.unseals v.val = some u) ∧ ∃ k hd sp dp, (u.st = 1) ∧ (modelKey s v.val u.handle = some k) ∧ (pkgAt s v.val u.ctx u.src u.dst hd sp dp) ∧ (s.ready = []) ∧ (chainTakes s v.val) ∧ True) ∧
    (∃ (v : VdId) (s : State) (u : Unseal), (look s.sec.unseals v.val = some u) ∧ ∃ k hd sp dp, (u.st = 1) ∧ (modelKey s v.val u.handle = some k) ∧ (pkgAt s v.val u.ctx u.src u.dst hd sp dp) ∧ (s.ready = []) ∧ ∃ n : W32, (n.toNat < pkgChunks hd) ∧ True) ∧
    (∃ (x : W64) (s : State), (fnOpen s 0 = true) ∧ (s.ready = []) ∧ let v := s.sec.amberSel
    let c := s.chain v
    (c.cons ≤ x.toNat) ∧ (x.toNat ≤ c.seq) ∧ (c.held = []) ∧ (c.push.en = false) ∧ True) ∧
    (∃ (x : W64) (s : State), (fnOpen s 0 = true) ∧ (s.ready = []) ∧ let v := s.sec.amberSel
    let c := s.chain v
    (x.toNat < c.cons ∨ c.seq < x.toNat) ∧ True) ∧
    (∃ (src : DSrc) (s s0 : State) (q : DReq), (s.ready = []) ∧ let v := q.row
    let c := s.chain v
    (duAsked s s0 src 0x400301 q) ∧ let a := fieldAt q.data 0 8
    let k := fieldAt q.data 8 1
    (v ≠ 0) ∧ ((s0.vd v).live = false) ∧ (allZero (sliceB q.data 10 6) = true) ∧ (22 ≤ k) ∧ (k ≤ 32) ∧ (fieldAt q.data 9 1 ≤ 1) ∧ (a % 65536 = 0) ∧ (inVd0 s0 a (regionBytes k) = true) ∧ (regionClash s0 v 2 a (regionBytes k) = false) ∧ (c.sizeLog2 ≠ k) ∧ True) ∧
    (∃ (src : DSrc) (s s0 : State) (q : DReq), (s.ready = []) ∧ let v := q.row
    let c := s.chain v
    (duAsked s s0 src 0x400501 q) ∧ (fieldAt q.data 12 4 = 0) ∧ (6 ≤ fieldAt q.data 8 1) ∧ (fieldAt q.data 8 1 ≤ 20) ∧ (fieldAt q.data 10 2 ≤ 63) ∧ (fieldAt q.data 9 1 = 1) ∧ (c.push.en = false) ∧ (c.held = []) ∧ (fieldAt q.data 16 8 ≤ c.seq) ∧ True) ∧
    (∃ s : State, (batchVds s ≠ []) ∧ (canSign s = true) ∧ True) ∧
    (∃ s : State, (batchVds s = [] ∨ canSign s = false) ∧ True) ∧
    (∃ _s : State, ∃ v : VdId, (v.val = 0) ∧ True) ∧
    (∃ _s : State, ∃ v : VdId, (v.val ≠ 0) ∧ True) ∧
    (∃ (src : DSrc) (s s0 : State) (q : DReq), (duAsked s s0 src 0x400303 q) ∧ (leNat q.data = 1) ∧ (batchVds s0 = []) ∧ True) ∧
    (∃ (src : DSrc) (s s0 : State) (q : DReq), (duAsked s s0 src 0x400303 q) ∧ (leNat q.data = 1) ∧ (batchVds s0 ≠ []) ∧ (takeToken s0 0 = none) ∧ True) ∧
    (∃ (src : DSrc) (s s0 : State) (q : DReq), (duAsked s s0 src 0x400303 q) ∧ (leNat q.data = 1) ∧ ∃ s1 s2, (batchVds s0 ≠ []) ∧ (takeToken s0 0 = some s1) ∧ (signBatch s1 = some s2) ∧ True) ∧
    (∃ (src : DSrc) (s s0 : State) (q : DReq), (duAsked s s0 src 0x400401 q) ∧ (leNat q.data = 1) ∧ ((s0.chain q.row).opened = true) ∧ ((s0.chain q.row).closed = false) ∧ True) ∧
    (∃ (src : DSrc) (s s0 : State) (q : DReq), (duAsked s s0 src 0x400401 q) ∧ (leNat q.data = 1) ∧ ((s0.chain q.row).opened = false ∨ (s0.chain q.row).closed = true) ∧ True) ∧
    (∃ (src : DSrc) (s s0 : State) (q : DReq), (duAsked s s0 src 0x400701 q) ∧ True) ∧
    (∃ (src : DSrc) (s s0 : State) (q : DReq), (duAsked s s0 src 0x400702 q) ∧ ((s0.chain (ownVd q)).hostcor = none) ∧ True) ∧
    (∃ (src : DSrc) (s s0 : State) (q : DReq), (duAsked s s0 src 0x400702 q) ∧ ∃ x, ((s0.chain (ownVd q)).hostcor = some x) ∧ (chainTakes s0 (ownVd q)) ∧ True) :=
  ⟨⟨viaMctp lcMsg, 3, true, serving { sec := { rootOk := true } }, leftBy (serving { sec := { rootOk := true } }) (viaMctp lcMsg), reqBy (serving { sec := { rootOk := true } }) (viaMctp lcMsg), duAsked_by _ _ _ (by decide +kernel), .inl rfl, by unfold lcMay; decide +kernel, by unfold otherLive; decide +kernel, trivial⟩,
   ⟨viaMctp lcMsg, 3, false, serving { sec := { rootOk := true } }, leftBy (serving { sec := { rootOk := true } }) (viaMctp lcMsg), reqBy (serving { sec := { rootOk := true } }) (viaMctp lcMsg), duAsked_by _ _ _ (by decide +kernel), by decide, by decide, trivial⟩,
   ⟨viaMctp lcMsg, 3, true, serving openVd, leftBy (serving openVd) (viaMctp lcMsg), reqBy (serving openVd) (viaMctp lcMsg), duAsked_by _ _ _ (by decide +kernel), .inl rfl, .inr (by unfold otherLive; decide +kernel), trivial⟩,
   ⟨.doe 0, asksAt {} 0 (writeMsg 0x4001 2 0 [1]), leftBy (asksAt {} 0 (writeMsg 0x4001 2 0 [1])) (.doe 0), reqBy (asksAt {} 0 (writeMsg 0x4001 2 0 [1])) (.doe 0), duAsked_by _ _ _ (by decide +kernel), by decide +kernel, trivial⟩,
   ⟨.doe 0, asksAt { otp := { revoked := [0, 1] } } 0 (writeMsg 0x4001 3 0 (List.replicate 512 0)), leftBy (asksAt { otp := { revoked := [0, 1] } } 0 (writeMsg 0x4001 3 0 (List.replicate 512 0))) (.doe 0), reqBy (asksAt { otp := { revoked := [0, 1] } } 0 (writeMsg 0x4001 3 0 (List.replicate 512 0))) (.doe 0), 3, duAsked_by _ _ _ (by decide +kernel), ⟨2, by decide +kernel⟩, trivial⟩,
   ⟨.doe 0, asksAt { otp := { revoked := [0, 1, 2] } } 0 (writeMsg 0x4001 3 0 (List.replicate 512 0)), leftBy (asksAt { otp := { revoked := [0, 1, 2] } } 0 (writeMsg 0x4001 3 0 (List.replicate 512 0))) (.doe 0), reqBy (asksAt { otp := { revoked := [0, 1, 2] } } 0 (writeMsg 0x4001 3 0 (List.replicate 512 0))) (.doe 0), 3, duAsked_by _ _ _ (by decide +kernel), by decide +kernel, trivial⟩,
   ⟨.doe 0, asksAt {} 0 (writeMsg 0x4001 3 0 (List.replicate 512 0)), leftBy (asksAt {} 0 (writeMsg 0x4001 3 0 (List.replicate 512 0))) (.doe 0), reqBy (asksAt {} 0 (writeMsg 0x4001 3 0 (List.replicate 512 0))) (.doe 0), duAsked_by _ _ _ (by decide +kernel), trivial⟩,
   ⟨.doe 0, asksAt openVd 0 (writeMsg 0x4002 1 2 [1, 0, 0, 0]), leftBy (asksAt openVd 0 (writeMsg 0x4002 1 2 [1, 0, 0, 0])) (.doe 0), reqBy (asksAt openVd 0 (writeMsg 0x4002 1 2 [1, 0, 0, 0])) (.doe 0), duAsked_by _ _ _ (by decide +kernel), by decide +kernel, by decide +kernel, .inr (.inl (by decide +kernel)), trivial⟩,
   ⟨.doe 0, asksAt openVd 0 (writeMsg 0x4002 1 1 [0, 0, 0, 0]), leftBy (asksAt openVd 0 (writeMsg 0x4002 1 1 [0, 0, 0, 0])) (.doe 0), reqBy (asksAt openVd 0 (writeMsg 0x4002 1 1 [0, 0, 0, 0])) (.doe 0), duAsked_by _ _ _ (by decide +kernel), by decide +kernel, by decide +kernel, by decide +kernel, by decide +kernel, by decide +kernel, by decide +kernel, .inl (by decide +kernel), trivial⟩,
   ⟨.doe 0, asksAt { openVd with obj := {}, sec := { rootOk := true } } 0 (writeMsg 0x4002 1 1 [1, 0, 0, 0]), leftBy (asksAt { openVd with obj := {}, sec := { rootOk := true } } 0 (writeMsg 0x4002 1 1 [1, 0, 0, 0])) (.doe 0), reqBy (asksAt { openVd with obj := {}, sec := { rootOk := true } } 0 (writeMsg 0x4002 1 1 [1, 0, 0, 0])) (.doe 0), duAsked_by _ _ _ (by decide +kernel), by decide +kernel, by decide +kernel, by decide +kernel, by decide +kernel, by decide +kernel, by decide +kernel, (issueTag (retireTag (posBegun (leftBy (asksAt { openVd with obj := {}, sec := { rootOk := true } } 0 (writeMsg 0x4002 1 1 [1, 0, 0, 0])) (.doe 0)) 1 true) 1) 1).getD {}, by decide +kernel, by decide +kernel, by decide +kernel, some_getD _ _ (by decide +kernel), trivial⟩,
   ⟨.doe 1, asksAt (sealedVd 5 0) 1 blobMsg, leftBy (asksAt (sealedVd 5 0) 1 blobMsg) (.doe 1), reqBy (asksAt (sealedVd 5 0) 1 blobMsg) (.doe 1), (80, { type := 5, owner := 1, model := List.replicate 16 0 }), 0, 81, duAsked_by _ _ _ (by decide +kernel), by decide +kernel, by decide +kernel, ⟨by decide +kernel, by decide +kernel, by decide +kernel, by decide +kernel, by decide +kernel⟩, by decide +kernel, ⟨by decide +kernel, by decide +kernel⟩, by decide +kernel, by decide +kernel, trivial⟩,
   ⟨.doe 1, asksAt (sealedVd 3 7) 1 (writeMsg 0x4008 2 0 (natLe 2 3 ++ [7, 0, 0, 0, 0, 0] ++ natLe 8 0 ++ natLe 8 0x10000)), leftBy (asksAt (sealedVd 3 7) 1 (writeMsg 0x4008 2 0 (natLe 2 3 ++ [7, 0, 0, 0, 0, 0] ++ natLe 8 0 ++ natLe 8 0x10000))) (.doe 1), reqBy (asksAt (sealedVd 3 7) 1 (writeMsg 0x4008 2 0 (natLe 2 3 ++ [7, 0, 0, 0, 0, 0] ++ natLe 8 0 ++ natLe 8 0x10000))) (.doe 1), {}, (80, { type := 3, owner := 1, handle := 7, model := List.replicate 16 0 }), pkgHead, piecesOf (leftBy (asksAt (sealedVd 3 7) 1 (writeMsg 0x4008 2 0 (natLe 2 3 ++ [7, 0, 0, 0, 0, 0] ++ natLe 8 0 ++ natLe 8 0x10000))) (.doe 1)) (reqBy (asksAt (sealedVd 3 7) 1 (writeMsg 0x4008 2 0 (natLe 2 3 ++ [7, 0, 0, 0, 0, 0] ++ natLe 8 0 ++ natLe 8 0x10000))) (.doe 1)).fn (fieldAt (reqBy (asksAt (sealedVd 3 7) 1 (writeMsg 0x4008 2 0 (natLe 2 3 ++ [7, 0, 0, 0, 0, 0] ++ natLe 8 0 ++ natLe 8 0x10000))) (.doe 1)).data 0 2) false (fieldAt (reqBy (asksAt (sealedVd 3 7) 1 (writeMsg 0x4008 2 0 (natLe 2 3 ++ [7, 0, 0, 0, 0, 0] ++ natLe 8 0 ++ natLe 8 0x10000))) (.doe 1)).data 8 8) (pkgBytes pkgHead), piecesOf (leftBy (asksAt (sealedVd 3 7) 1 (writeMsg 0x4008 2 0 (natLe 2 3 ++ [7, 0, 0, 0, 0, 0] ++ natLe 8 0 ++ natLe 8 0x10000))) (.doe 1)) (reqBy (asksAt (sealedVd 3 7) 1 (writeMsg 0x4008 2 0 (natLe 2 3 ++ [7, 0, 0, 0, 0, 0] ++ natLe 8 0 ++ natLe 8 0x10000))) (.doe 1)).fn (fieldAt (reqBy (asksAt (sealedVd 3 7) 1 (writeMsg 0x4008 2 0 (natLe 2 3 ++ [7, 0, 0, 0, 0, 0] ++ natLe 8 0 ++ natLe 8 0x10000))) (.doe 1)).data 0 2) true (fieldAt (reqBy (asksAt (sealedVd 3 7) 1 (writeMsg 0x4008 2 0 (natLe 2 3 ++ [7, 0, 0, 0, 0, 0] ++ natLe 8 0 ++ natLe 8 0x10000))) (.doe 1)).data 16 8) (pkgLen pkgHead), duAsked_by _ _ _ (by decide +kernel), by decide +kernel, by decide +kernel, by decide +kernel, by decide +kernel, by decide +kernel, by decide +kernel, by decide +kernel, by decide +kernel, by decide +kernel, by decide +kernel, by decide +kernel, ⟨by decide +kernel, by decide +kernel⟩, by dsimp only; exact pkgAt_of _ _ _ _ _ _ (by decide +kernel), by decide +kernel, by decide +kernel, by decide +kernel, trivial⟩,
   ⟨1, unsealVd 2, unsealing 2, by decide, by decide, trivial⟩,
   ⟨1, unsealVd 1, unsealing 1, by decide, (80, { type := 3, owner := 1, handle := 7, model := List.replicate 16 0 }), pkgHead, piecesOf (unsealVd 1) 1 3 false 0 (pkgBytes pkgHead), piecesOf (unsealVd 1) 1 3 true 0x10000 (pkgLen pkgHead), by decide, by decide +kernel, pkgAt_of _ _ _ _ _ _ (by decide +kernel), by decide, by unfold chainTakes; decide +kernel, trivial⟩,
   ⟨1, unsealVd 1, unsealing 1, by decide, (80, { type := 3, owner := 1, handle := 7, model := List.replicate 16 0 }), pkgHead, piecesOf (unsealVd 1) 1 3 false 0 (pkgBytes pkgHead), piecesOf (unsealVd 1) 1 3 true 0x10000 (pkgLen pkgHead), by decide, by decide +kernel, pkgAt_of _ _ _ _ _ _ (by decide +kernel), by decide, 0, by decide +kernel, trivial⟩,
   ⟨9, { openVd with chains := [(0, { seq := 9, cons := 3 })] }, by decide, by decide, by decide, by decide, by decide, by decide, trivial⟩,
   ⟨10, { openVd with chains := [(0, { seq := 9, cons := 3 })] }, by decide, by decide, .inr (by decide), trivial⟩,
   ⟨.doe 0, asksAt zeroVd 0 (writeMsg 0x4003 1 2 (natLe 8 0x10000 ++ [22, 1, 0, 0, 0, 0, 0, 0])), leftBy (asksAt zeroVd 0 (writeMsg 0x4003 1 2 (natLe 8 0x10000 ++ [22, 1, 0, 0, 0, 0, 0, 0]))) (.doe 0), reqBy (asksAt zeroVd 0 (writeMsg 0x4003 1 2 (natLe 8 0x10000 ++ [22, 1, 0, 0, 0, 0, 0, 0]))) (.doe 0), by decide, duAsked_by _ _ _ (by decide +kernel), by decide +kernel, by decide +kernel, by decide +kernel, by decide +kernel, by decide +kernel, by decide +kernel, by decide +kernel, by decide +kernel, by decide +kernel, by decide +kernel, trivial⟩,
   ⟨.doe 1, asksAt openVd 1 (writeMsg 0x4005 1 1 (natLe 8 0x1000 ++ [20, 1, 63, 0, 0, 0, 0, 0] ++ natLe 8 0)), leftBy (asksAt openVd 1 (writeMsg 0x4005 1 1 (natLe 8 0x1000 ++ [20, 1, 63, 0, 0, 0, 0, 0] ++ natLe 8 0))) (.doe 1), reqBy (asksAt openVd 1 (writeMsg 0x4005 1 1 (natLe 8 0x1000 ++ [20, 1, 63, 0, 0, 0, 0, 0] ++ natLe 8 0))) (.doe 1), by decide, duAsked_by _ _ _ (by decide +kernel), by decide +kernel, by decide +kernel, by decide +kernel, by decide +kernel, by decide +kernel, by decide +kernel, by decide +kernel, by decide +kernel, trivial⟩,
   ⟨chained leafy 1, by decide, by decide, trivial⟩,
   ⟨openVd, .inl (by decide), trivial⟩,
   ⟨openVd, 0, by decide, trivial⟩,
   ⟨openVd, 63, by decide, trivial⟩,
   ⟨.doe 0, asksAt openVd 0 (writeMsg 0x4003 3 0 [1]), leftBy (asksAt openVd 0 (writeMsg 0x4003 3 0 [1])) (.doe 0), reqBy (asksAt openVd 0 (writeMsg 0x4003 3 0 [1])) (.doe 0), duAsked_by _ _ _ (by decide +kernel), by decide +kernel, by decide, trivial⟩,
   ⟨.doe 0, asksAt (chained leafy 0) 0 (writeMsg 0x4003 3 0 [1]), leftBy (asksAt (chained leafy 0) 0 (writeMsg 0x4003 3 0 [1])) (.doe 0), reqBy (asksAt (chained leafy 0) 0 (writeMsg 0x4003 3 0 [1])) (.doe 0), duAsked_by _ _ _ (by decide +kernel), by decide +kernel, by decide +kernel, by decide +kernel, trivial⟩,
   ⟨.doe 0, asksAt (chained leafy 1) 0 (writeMsg 0x4003 3 0 [1]), leftBy (asksAt (chained leafy 1) 0 (writeMsg 0x4003 3 0 [1])) (.doe 0), reqBy (asksAt (chained leafy 1) 0 (writeMsg 0x4003 3 0 [1])) (.doe 0), duAsked_by _ _ _ (by decide +kernel), by decide +kernel, (takeToken (leftBy (asksAt (chained leafy 1) 0 (writeMsg 0x4003 3 0 [1])) (.doe 0)) 0).getD {}, (signBatch ((takeToken (leftBy (asksAt (chained leafy 1) 0 (writeMsg 0x4003 3 0 [1])) (.doe 0)) 0).getD {})).getD {}, by decide +kernel, some_getD _ _ (by decide +kernel), some_getD _ _ (by decide +kernel), trivial⟩,
   ⟨.doe 0, asksAt (chained leafy 1) 0 (writeMsg 0x4004 1 1 [1]), leftBy (asksAt (chained leafy 1) 0 (writeMsg 0x4004 1 1 [1])) (.doe 0), reqBy (asksAt (chained leafy 1) 0 (writeMsg 0x4004 1 1 [1])) (.doe 0), duAsked_by _ _ _ (by decide +kernel), by decide +kernel, by decide +kernel, by decide +kernel, trivial⟩,
   ⟨.doe 0, asksAt (chained leafy 1) 0 (writeMsg 0x4004 1 2 [1]), leftBy (asksAt (chained leafy 1) 0 (writeMsg 0x4004 1 2 [1])) (.doe 0), reqBy (asksAt (chained leafy 1) 0 (writeMsg 0x4004 1 2 [1])) (.doe 0), duAsked_by _ _ _ (by decide +kernel), by decide +kernel, .inl (by decide +kernel), trivial⟩,
   ⟨.doe 0, asksAt openVd 0 (writeMsg 0x4007 1 0 (List.replicate 12 1)), leftBy (asksAt openVd 0 (writeMsg 0x4007 1 0 (List.replicate 12 1))) (.doe 0), reqBy (asksAt openVd 0 (writeMsg 0x4007 1 0 (List.replicate 12 1))) (.doe 0), duAsked_by _ _ _ (by decide +kernel), trivial⟩,
   ⟨.doe 0, asksAt openVd 0 (writeMsg 0x4007 2 0 (List.replicate 8 1)), leftBy (asksAt openVd 0 (writeMsg 0x4007 2 0 (List.replicate 8 1))) (.doe 0), reqBy (asksAt openVd 0 (writeMsg 0x4007 2 0 (List.replicate 8 1))) (.doe 0), duAsked_by _ _ _ (by decide +kernel), by decide +kernel, trivial⟩,
   ⟨.doe 1, asksAt (chained { opened := true, sizeLog2 := 12, dpa := 0x10000, hostcor := some (1, 2, 3) } 1) 1 (writeMsg 0x4007 2 0 (List.replicate 8 1)), leftBy (asksAt (chained { opened := true, sizeLog2 := 12, dpa := 0x10000, hostcor := some (1, 2, 3) } 1) 1 (writeMsg 0x4007 2 0 (List.replicate 8 1))) (.doe 1), reqBy (asksAt (chained { opened := true, sizeLog2 := 12, dpa := 0x10000, hostcor := some (1, 2, 3) } 1) 1 (writeMsg 0x4007 2 0 (List.replicate 8 1))) (.doe 1), duAsked_by _ _ _ (by decide +kernel), (1, 2, 3), by decide +kernel, by unfold chainTakes; decide +kernel, trivial⟩⟩

/-- A connection at function 0 of a device that answers SPDM. -/
def spdmAt (x : SpdmConn) (n : Nat) : State :=
  { openVd with sec := { rootOk := true, shared := n, tokens := [(0, n)], conns := [(.fn 0, x)] } }

theorem notUp (o : Option (Bool × Nat)) (h : (match o with | some (true, _) => false | _ => true) = true) : ∀ g, o ≠ some (true, g) := by
  intro g e
  subst e
  simp at h
/-- The three outcomes of a signature can each occur. -/
theorem wit_signsFor :
    (∃ s w, takeToken s (spdmBucket w) = none) ∧
    (∃ s w t1, takeToken s (spdmBucket w) = some t1 ∧ signPair t1 [] = none) ∧
    (∃ s w t1 a b s1, takeToken s (spdmBucket w) = some t1 ∧ signPair t1 [] = some (a, b, s1)) :=
  ⟨⟨spdmAt {} 0, .fn 0, by decide +kernel⟩,
   ⟨{ spdmAt {} 1 with sec := { (spdmAt {} 1).sec with rootOk := false } }, .fn 0,
    (takeToken { spdmAt {} 1 with sec := { (spdmAt {} 1).sec with rootOk := false } } 0).getD {}, some_getD _ _ (by decide +kernel), by decide +kernel⟩,
   ⟨spdmAt {} 1, .fn 0, (takeToken (spdmAt {} 1) 0).getD {}, ((signPair ((takeToken (spdmAt {} 1) 0).getD {}) []).getD ([], [], {})).1,
    ((signPair ((takeToken (spdmAt {} 1) 0).getD {}) []).getD ([], [], {})).2.1,
    ((signPair ((takeToken (spdmAt {} 1) 0).getD {}) []).getD ([], [], {})).2.2, some_getD _ _ (by decide +kernel), pair_of _ _ (by decide +kernel)⟩⟩

/-- States and operands that meet the hypotheses of every clause of SpdmConnectionsAndSessions. -/
theorem wit_SpdmConnectionsAndSessions :
    (∃ (w : SpdmEnd) (s : State), (¬spdmOn s w) ∧ ∃ (m : Fin 16) (b : Bool) (sl n : Fin 8) (o l : W16) (x : List Byte) (a : MeasAsk) (k : SpdmChunk), ∃ i, (i ∈ [Instr.spdmGetVersion w, .spdmGetCapabilities w m, .spdmNegotiateAlgorithms w b, .spdmGetDigests w, .spdmGetCertificate w sl o l, .spdmChallenge w sl x, .spdmGetMeasurements w a b x, .spdmKeyExchange w x, .spdmFinish w n b, .spdmKeyUpdate w n, .spdmHeartbeat w n, .spdmEndSession w n, .spdmChunk w k]) ∧ True) ∧
    (∃ (w : SpdmEnd) (s : State), (spdmOn s w) ∧ True) ∧
    (∃ (w : SpdmEnd) (s : State), let c := spdmConn s w
    (spdmOn s w) ∧ (c.stage < 1) ∧ True) ∧
    (∃ (w : SpdmEnd) (s : State), let c := spdmConn s w
    (spdmOn s w) ∧ (1 ≤ c.stage) ∧ ∃ m : Fin 16, (m.val = 2 ∨ m.val = 3) ∧ True) ∧
    (∃ (w : SpdmEnd) (s : State), let c := spdmConn s w
    (spdmOn s w) ∧ (1 ≤ c.stage) ∧ ∃ m : Fin 16, (m.val ≠ 2) ∧ (m.val ≠ 3) ∧ True) ∧
    (∃ (w : SpdmEnd) (s : State), let c := spdmConn s w
    (spdmOn s w) ∧ (c.stage < 2) ∧ True) ∧
    (∃ (w : SpdmEnd) (s : State), let c := spdmConn s w
    (spdmOn s w) ∧ (c.stage < 2) ∧ True) ∧
    (∃ (w : SpdmEnd) (s : State), let c := spdmConn s w
    (spdmOn s w) ∧ (2 ≤ c.stage) ∧ True) ∧
    (∃ (w : SpdmEnd) (s : State), let c := spdmConn s w
    (spdmOn s w) ∧ (2 ≤ c.stage) ∧ True) ∧
    (∃ (w : SpdmEnd) (s : State), let c := spdmConn s w
    (spdmOn s w) ∧ (c.stage < 3) ∧ ∃ (b : Bool) (sl n : Fin 8) (o l : W16) (x : List Byte) (a : MeasAsk), ∃ i, (i ∈ [Instr.spdmGetDigests w, .spdmGetCertificate w sl o l, .spdmChallenge w sl x, .spdmGetMeasurements w a b x, .spdmKeyExchange w x, .spdmFinish w n b, .spdmKeyUpdate w n, .spdmHeartbeat w n, .spdmEndSession w n]) ∧ True) ∧
    (∃ (w : SpdmEnd) (s : State), let c := spdmConn s w
    (spdmOn s w) ∧ (3 ≤ c.stage) ∧ True) ∧
    (∃ (w : SpdmEnd) (s : State), let c := spdmConn s w
    (spdmOn s w) ∧ (3 ≤ c.stage) ∧ ∃ (sl : Fin 8) (o _l : W16), let d := Config.certChain sl.val s.otp.lc
    (1 < sl.val ∨ d.length < o.toNat) ∧ True) ∧
    (∃ (w : SpdmEnd) (s : State), let c := spdmConn s w
    (spdmOn s w) ∧ (3 ≤ c.stage) ∧ ∃ (sl : Fin 8) (o _l : W16), let d := Config.certChain sl.val s.otp.lc
    (sl.val ≤ 1) ∧ (o.toNat ≤ d.length) ∧ True) ∧
    (∃ (w : SpdmEnd) (s : State), let c := spdmConn s w
    (spdmOn s w) ∧ (3 ≤ c.stage) ∧ ∃ (sl : Fin 8), (1 < sl.val) ∧ True) ∧
    (∃ (w : SpdmEnd) (s : State), let c := spdmConn s w
    (spdmOn s w) ∧ (3 ≤ c.stage) ∧ ∃ (sl : Fin 8), (sl.val ≤ 1) ∧ True) ∧
    (∃ (w : SpdmEnd) (s : State), let c := spdmConn s w
    (spdmOn s w) ∧ (3 ≤ c.stage) ∧ ∃ (a : MeasAsk), True) ∧
    (∃ (w : SpdmEnd) (s : State), let c := spdmConn s w
    (spdmOn s w) ∧ (3 ≤ c.stage) ∧ ∃ (a : MeasAsk), (∃ v ∈ visibleVds s w, 0x20 + v ∈ askIndices a ∧ (s.vd v).posture ≠ none) ∧ True) ∧
    (∃ (w : SpdmEnd) (s : State), let c := spdmConn s w
    (spdmOn s w) ∧ (3 ≤ c.stage) ∧ ∃ (a : MeasAsk), (∀ v ∈ visibleVds s w, 0x20 + v ∈ askIndices a → (s.vd v).posture = none) ∧ True) ∧
    (∃ (w : SpdmEnd) (s : State), let c := spdmConn s w
    (spdmOn s w) ∧ (3 ≤ c.stage) ∧ (lowestFree c.sessions 0 8 = none) ∧ True) ∧
    (∃ (w : SpdmEnd) (s : State), let c := spdmConn s w
    (spdmOn s w) ∧ (3 ≤ c.stage) ∧ ∃ n, (lowestFree c.sessions 0 8 = some n) ∧ (canKey s = false) ∧ True) ∧
    (∃ (w : SpdmEnd) (s : State), let c := spdmConn s w
    (spdmOn s w) ∧ (3 ≤ c.stage) ∧ ∃ n, (lowestFree c.sessions 0 8 = some n) ∧ (canKey s = true) ∧ True) ∧
    (∃ (w : SpdmEnd) (s : State), let c := spdmConn s w
    (spdmOn s w) ∧ (3 ≤ c.stage) ∧ ∃ n : Fin 8, ∃ g, (look c.sessions n.val = some (false, g)) ∧ True) ∧
    (∃ (w : SpdmEnd) (s : State), let c := spdmConn s w
    (spdmOn s w) ∧ (3 ≤ c.stage) ∧ ∃ n : Fin 8, ∃ g, (look c.sessions n.val = some (true, g)) ∧ True) ∧
    (∃ (w : SpdmEnd) (s : State), let c := spdmConn s w
    (spdmOn s w) ∧ (3 ≤ c.stage) ∧ ∃ n : Fin 8, ∃ g, (look c.sessions n.val = some (true, g)) ∧ True) ∧
    (∃ (w : SpdmEnd) (s : State), let c := spdmConn s w
    (spdmOn s w) ∧ (3 ≤ c.stage) ∧ ∃ n : Fin 8, (∀ g, look c.sessions n.val ≠ some (true, g)) ∧ ∃ i, (i ∈ [Instr.spdmKeyUpdate w n, .spdmHeartbeat w n, .spdmEndSession w n]) ∧ True) ∧
    (∃ (w : SpdmEnd) (s : State), let c := spdmConn s w
    (spdmOn s w) ∧ (3 ≤ c.stage) ∧ ∃ n : Fin 8, (look c.sessions n.val = none) ∧ True) :=
  ⟨⟨.fn 4, spdmAt {} 1, by unfold spdmOn; decide +kernel, 2, true, 0, 0, 0, 0, [], .all, .get, .spdmGetVersion (.fn 4), List.Mem.head _, trivial⟩,
   ⟨.fn 0, spdmAt {} 1, by unfold spdmOn; decide +kernel, trivial⟩,
   ⟨.fn 0, spdmAt {} 1, by unfold spdmOn; decide +kernel, by decide, trivial⟩,
   ⟨.fn 0, spdmAt { stage := 1 } 1, by unfold spdmOn; decide +kernel, by decide, 3, .inr (by decide), trivial⟩,
   ⟨.fn 0, spdmAt { stage := 1 } 1, by unfold spdmOn; decide +kernel, by decide, 1, by decide, by decide, trivial⟩,
   ⟨.fn 0, spdmAt { stage := 1 } 1, by unfold spdmOn; decide +kernel, by decide, trivial⟩,
   ⟨.fn 0, spdmAt { stage := 1 } 1, by unfold spdmOn; decide +kernel, by decide, trivial⟩,
   ⟨.fn 0, spdmAt { stage := 2 } 1, by unfold spdmOn; decide +kernel, by decide, trivial⟩,
   ⟨.fn 0, spdmAt { stage := 2 } 1, by unfold spdmOn; decide +kernel, by decide, trivial⟩,
   ⟨.fn 0, spdmAt { stage := 2 } 1, by unfold spdmOn; decide +kernel, by decide, true, 0, 0, 0, 0, [], .all, .spdmGetDigests (.fn 0), List.Mem.head _, trivial⟩,
   ⟨.fn 0, spdmAt { stage := 3 } 1, by unfold spdmOn; decide +kernel, by decide, trivial⟩,
   ⟨.fn 0, spdmAt { stage := 3 } 1, by unfold spdmOn; decide +kernel, by decide, 2, 0, 8, .inl (by decide), trivial⟩,
   ⟨.fn 0, spdmAt { stage := 3 } 1, by unfold spdmOn; decide +kernel, by decide, 1, 0, 8, by decide, Nat.zero_le _, trivial⟩,
   ⟨.fn 0, spdmAt { stage := 3 } 1, by unfold spdmOn; decide +kernel, by decide, 2, by decide, trivial⟩,
   ⟨.fn 0, spdmAt { stage := 3 } 1, by unfold spdmOn; decide +kernel, by decide, 1, by decide, trivial⟩,
   ⟨.fn 0, spdmAt { stage := 3 } 1, by unfold spdmOn; decide +kernel, by decide, .all, trivial⟩,
   ⟨.fn 0, { spdmAt { stage := 3 } 1 with cmp := { vds := [(1, { live := true, tag := 5, posture := some true })] } }, by unfold spdmOn; decide +kernel, by decide, .all, ⟨1, by decide +kernel, by decide +kernel, by decide +kernel⟩, trivial⟩,
   ⟨.fn 0, spdmAt { stage := 3 } 1, by unfold spdmOn; decide +kernel, by decide, .all, by decide +kernel, trivial⟩,
   ⟨.fn 0, spdmAt { stage := 3, sessions := (List.range 8).map (fun k => (k, (true, 0))) } 1, by unfold spdmOn; decide +kernel, by decide, by decide +kernel, trivial⟩,
   ⟨.fn 0, { spdmAt { stage := 3 } 1 with sec := { (spdmAt { stage := 3 } 1).sec with rngFault := true } }, by unfold spdmOn; decide +kernel, by decide, 0, by decide, by decide, trivial⟩,
   ⟨.fn 0, spdmAt { stage := 3, sessions := [(0, (true, 0)), (2, (true, 0))] } 1, by unfold spdmOn; decide +kernel, by decide, 1, by decide, by decide, trivial⟩,
   ⟨.fn 0, spdmAt { stage := 3, sessions := [(0, (true, 4)), (7, (false, 0))] } 1, by unfold spdmOn; decide +kernel, by decide, 7, 0, by decide, trivial⟩,
   ⟨.fn 0, spdmAt { stage := 3, sessions := [(0, (true, 4)), (7, (false, 0))] } 1, by unfold spdmOn; decide +kernel, by decide, 0, 4, by decide, trivial⟩,
   ⟨.fn 0, spdmAt { stage := 3, sessions := [(0, (true, 4)), (7, (false, 0))] } 1, by unfold spdmOn; decide +kernel, by decide, 0, 4, by decide, trivial⟩,
   ⟨.fn 0, spdmAt { stage := 3, sessions := [(0, (true, 4)), (7, (false, 0))] } 1, by unfold spdmOn; decide +kernel, by decide, 7, notUp _ (by decide +kernel), .spdmKeyUpdate (.fn 0) 7, List.Mem.head _, trivial⟩,
   ⟨.fn 0, spdmAt { stage := 3, sessions := [(0, (true, 4)), (7, (false, 0))] } 1, by unfold spdmOn; decide +kernel, by decide, 6, by decide, trivial⟩⟩

/-- A start in which some steps have ended. -/
def started (done : List Nat) : State := { boot := { running := true, done := done } }
def bothSets : State :=
  { started [1, 2, 3] with flash := { sets := [{ valid := true }, { valid := true, images := [{ cls := 1 }, { cls := 2 }, { cls := 3 }, { cls := 4 }] }] } }

/-- States and operands that meet the hypotheses of every clause of BootStepsRunInOrder. -/
theorem wit_BootStepsRunInOrder :
    (∃ (c : Instr) (n : Nat) (s : State), (bootCmd c = some n) ∧ (¬bootOpen s n) ∧ True) ∧
    (∃ (_ok : Bool) (_us : W32) (s : State), (bootOpen s 1) ∧ True) ∧
    (∃ (fails : Fin 4) (_bad : List (Fin 128)) (_us : W32) (s : State), (bootOpen s 2) ∧ (fails.val = 3) ∧ True) ∧
    (∃ (fails : Fin 4) (_bad : List (Fin 128)) (_us : W32) (s : State), (bootOpen s 2) ∧ (fails.val ≠ 3) ∧ (s.otp.lc = 0) ∧ True) ∧
    (∃ (fails : Fin 4) (_bad : List (Fin 128)) (_us : W32) (s : State), (bootOpen s 2) ∧ (fails.val ≠ 3) ∧ (s.otp.lc ≠ 0) ∧ True) ∧
    (∃ (_us : W32) (s : State), (bootOpen s 3) ∧ True) ∧
    (∃ (fails : Fin 3) (_other _tagsOk : Bool) (_us : W32) (s : State), (bootOpen s 4) ∧ (fails.val < 2) ∧ True) ∧
    (∃ (fails : Fin 3) (other _tagsOk : Bool) (_us : W32) (s : State), (bootOpen s 4) ∧ (fails.val = 2) ∧ (other = true) ∧ (imgSetOk s (1 - s.boot.active) = true) ∧ True) ∧
    (∃ (fails : Fin 3) (other _tagsOk : Bool) (_us : W32) (s : State), (bootOpen s 4) ∧ (fails.val = 2) ∧ (other = false ∨ imgSetOk s (1 - s.boot.active) = false) ∧ True) ∧
    (∃ (_cgBad : BitVec 48) (_stackBad : BitVec 8) (_us : W32) (s : State), (bootOpen s 5) ∧ True) ∧
    (∃ (_runs : List HbmRun) (_left : List (ChanId × Fin 2 × W32)) (_us : W32) (s : State), (bootOpen s 6) ∧ True) ∧
    (∃ (_cgBad : BitVec 48) (_routers : List CoreId) (_eng : List (CoreId × BitVec 8)) (_us : W32) (s : State), (bootOpen s 7) ∧ True) ∧
    (∃ (_h0 _h1 : HalfRun) (_k : BitVec 8) (_us : W32) (s : State), (bootOpen s 8) ∧ (s.pcie.halves.length = 2) ∧ True) ∧
    (∃ (_tiles : List LaserRun) (_bad : List (PortId × Fin 512)) (_us : W32) (s : State), (bootOpen s 9) ∧ True) ∧
    (∃ (_us : W32) (s : State), (bootOpen s 10) ∧ let d := if s.boot.kind = 2 then s.talko.devId else objValue s 0x5000 1 0xFFFF
    (4095 < d) ∧ True) ∧
    (∃ (_us : W32) (s : State), (bootOpen s 10) ∧ let d := if s.boot.kind = 2 then s.talko.devId else objValue s 0x5000 1 0xFFFF
    (d ≤ 4095) ∧ True) ∧
    (∃ (_seeds _fill : BitVec 64) (_us : W32) (s : State), (bootOpen s 11) ∧ True) ∧
    (∃ (_us : W32) (s : State), (bootOpen s 12) ∧ True) :=
  ⟨⟨.bootRom true 0, 1, started [1], rfl, by unfold bootOpen; decide +kernel, trivial⟩,
   ⟨false, 0, started [], by unfold bootOpen; decide +kernel, trivial⟩,
   ⟨3, [], 0, started [1], by unfold bootOpen; decide +kernel, by decide, trivial⟩,
   ⟨2, [], 0, { started [1] with otp := { lc := 0 } }, by unfold bootOpen; decide +kernel, by decide, by decide, trivial⟩,
   ⟨2, [3], 0, started [1], by unfold bootOpen; decide +kernel, by decide, by decide, trivial⟩,
   ⟨0, started [1, 2], by unfold bootOpen; decide +kernel, trivial⟩,
   ⟨1, true, false, 0, started [1, 2, 3], by unfold bootOpen; decide +kernel, by decide, trivial⟩,
   ⟨2, true, true, 0, bothSets, by unfold bootOpen; decide +kernel, by decide, by decide, by decide +kernel, trivial⟩,
   ⟨2, false, true, 0, bothSets, by unfold bootOpen; decide +kernel, by decide, .inl rfl, trivial⟩,
   ⟨5, 129, 0, started [1, 2, 3, 4], by unfold bootOpen; decide +kernel, trivial⟩,
   ⟨List.replicate 8 {}, [], 0, started [1, 2, 3, 4, 5], by unfold bootOpen; decide +kernel, trivial⟩,
   ⟨1, [191], [(7, 0x81)], 0, started [1, 2, 3, 4, 5], by unfold bootOpen; decide +kernel, trivial⟩,
   ⟨.trained .r64 .x16 true, .noPartner, 1, 0, started [1, 2, 3], by unfold bootOpen; decide +kernel, by decide, trivial⟩,
   ⟨[.failed, .waiting, .locked 511, .locked 1], [], 0, started [1, 2, 3, 4, 5], by unfold bootOpen; decide +kernel, trivial⟩,
   ⟨0, started [1, 2, 3, 4, 5, 9], by unfold bootOpen; decide +kernel, by decide +kernel, trivial⟩,
   ⟨0, { started [1, 2, 3, 4, 5, 9] with flash := { objs := [(objKey 0x5000 1 0, natLe 2 4095)] } }, by unfold bootOpen; decide +kernel, by decide +kernel, trivial⟩,
   ⟨0, 0, 0, started [1, 2, 3, 4, 5, 6, 7, 9, 10], by unfold bootOpen; decide +kernel, trivial⟩,
   ⟨0, started [1, 2, 3, 4, 5, 6, 7, 8, 9, 10, 11], by unfold bootOpen; decide +kernel, trivial⟩⟩

/-- A running device, and one in the middle of a warm start. -/
def running : State := { boot := { running := true, ready := true, pwrOk := true, devRst := false, perst0 := false } }
def restarting : State := { boot := { running := true, kind := 2 } }
/-- The cases of a warm reset, and a start that may and one that may not begin. -/
theorem wit_warmGives :
    (∃ s, ¬warmMerges s ∧ s.net.unroutable = false) ∧ (∃ s, ¬warmMerges s ∧ s.net.unroutable = true) ∧ (∃ s, mayStart s) ∧ ∃ s, ¬mayStart s :=
  ⟨⟨running, by unfold warmMerges; decide, by decide⟩, ⟨{ running with net := { unroutable := true } }, by unfold warmMerges; decide, by decide⟩,
   ⟨{ running with boot := { running.boot with running := false } }, by unfold mayStart; decide⟩, ⟨running, by unfold mayStart; decide⟩⟩

/-- States and operands that meet the hypotheses of every clause of DeviceResetsKeepWhatTheyMust. -/
theorem wit_DeviceResetsKeepWhatTheyMust :
    (∃ s : State, (s.pow.ref = .lost) ∧ True) ∧
    (∃ s : State, (s.pow.ref ≠ .lost) ∧ True) ∧
    (∃ s : State, (s.pow.tripped = true) ∧ True) ∧
    (∃ s : State, (s.pow.tripped = false) ∧ True) ∧
    (∃ s : State, (s.sec.tableFault = true) ∧ True) ∧
    (∃ s : State, (s.sec.tableFault = false) ∧ True) ∧
    (∃ s : State, (s.boot.devRst = false) ∧ True) ∧
    (∃ s : State, (warmMerges s) ∧ ∃ k : WarmCause, (k = .request ∨ k = .watchdog ∨ k = .tableFault) ∧ True) ∧
    (∃ s : State, (warmMerges s) ∧ True) ∧
    (∃ s : State, (s.boot.devRst = true) ∧ True) ∧
    (∃ s : State, (s.boot.running = false) ∧ ∃ _g : Bool, True) ∧
    (∃ s : State, (s.pcie.split = false) ∧ True) ∧
    (∃ s : State, (s.pcie.split = true) ∧ True) ∧
    (∃ (_c : Fin 4) (s : State), (s.boot.running = false) ∧ True) ∧
    (∃ (c : Fin 4) (s : State), (s.boot.running = true) ∧ (∀ x, look s.boot.beryl c.val = some x → x + 800000000 ≤ s.s0) ∧ True) ∧
    (∃ (c : Fin 4) (s : State), ∃ x, (look s.boot.beryl c.val = some x) ∧ (s.s0 < x + 800000000) ∧ True) ∧
    (∃ (src : DSrc) (_late : Bool) (s s0 : State) (q : DReq), (duAsked s s0 src (resetRow 1) q) ∧ (fieldAt q.data 1 1 ≠ 0) ∧ True) ∧
    (∃ (src : DSrc) (_late : Bool) (s s0 : State) (q : DReq), (duAsked s s0 src (resetRow 1) q) ∧ let u := fieldAt q.data 2 2
    (fieldAt q.data 1 1 = 0) ∧ (191 < u ∨ cgFused.testBit (coreCg u) = false) ∧ True) ∧
    (∃ (src : DSrc) (_late : Bool) (s s0 : State) (q : DReq), (duAsked s s0 src (resetRow 1) q) ∧ let u := fieldAt q.data 2 2
    (fieldAt q.data 1 1 = 0) ∧ (u ≤ 191) ∧ (cgFused.testBit (coreCg u) = true) ∧ (s0.coreOn u = true) ∧ (cgBit s0.pool.cgFenced (coreCg u) = false) ∧ True) ∧
    (∃ (src : DSrc) (_late : Bool) (s s0 : State) (q : DReq), (duAsked s s0 src (resetRow 1) q) ∧ let u := fieldAt q.data 2 2
    (fieldAt q.data 1 1 = 0) ∧ (u ≤ 191) ∧ (cgFused.testBit (coreCg u) = true) ∧ (s0.coreOn u = false ∨ cgBit s0.pool.cgFenced (coreCg u) = true) ∧ True) ∧
    (∃ (src : DSrc) (s s0 : State) (q : DReq), (duAsked s s0 src (resetRow 2) q) ∧ (fieldAt q.data 1 1 ≠ 0) ∧ True) ∧
    (∃ (src : DSrc) (s s0 : State) (q : DReq), (duAsked s s0 src (resetRow 2) q) ∧ (fieldAt q.data 1 1 = 0) ∧ (s0.net.unroutable = false) ∧ True) ∧
    (∃ (src : DSrc) (s s0 : State) (q : DReq), (duAsked s s0 src (resetRow 3) q) ∧ (fieldAt q.data 1 1 ≠ 0) ∧ True) ∧
    (∃ (src : DSrc) (s s0 : State) (q : DReq), (duAsked s s0 src (resetRow 3) q) ∧ (fieldAt q.data 1 1 = 0) ∧ True) :=
  ⟨⟨{ pow := { ref := .lost } }, by decide, trivial⟩,
   ⟨{ pow := { ref := .alarm } }, by decide, trivial⟩,
   ⟨{ pow := { tripped := true } }, by decide, trivial⟩,
   ⟨running, by decide, trivial⟩,
   ⟨{ sec := { tableFault := true } }, by decide, trivial⟩,
   ⟨running, by decide, trivial⟩,
   ⟨running, by decide, trivial⟩,
   ⟨restarting, by unfold warmMerges; decide, .watchdog, .inr (.inl rfl), trivial⟩,
   ⟨restarting, by unfold warmMerges; decide, trivial⟩,
   ⟨restarting, by decide, trivial⟩,
   ⟨{}, by decide, true, trivial⟩,
   ⟨running, by decide, trivial⟩,
   ⟨splitLink, by decide, trivial⟩,
   ⟨3, {}, by decide, trivial⟩,
   ⟨3, { running with boot := { running.boot with beryl := [(3, 5)] }, s0 := 800000005 }, by decide, by intro x h; simp [look] at h; obtain ⟨-, rfl⟩ := h; decide, trivial⟩,
   ⟨3, { running with boot := { running.boot with beryl := [(3, 5)] }, s0 := 800000004 }, 5, by decide, by decide, trivial⟩,
   ⟨.doe 0, false, asksAt openVd 0 (writeMsg 0x8001 1 0 ([1, 1] ++ natLe 2 0)), leftBy (asksAt openVd 0 (writeMsg 0x8001 1 0 ([1, 1] ++ natLe 2 0))) (.doe 0), reqBy (asksAt openVd 0 (writeMsg 0x8001 1 0 ([1, 1] ++ natLe 2 0))) (.doe 0), duAsked_by _ _ _ (by decide +kernel), by decide +kernel, trivial⟩,
   ⟨.doe 0, false, asksAt openVd 0 (writeMsg 0x8001 1 0 ([1, 0] ++ natLe 2 192)), leftBy (asksAt openVd 0 (writeMsg 0x8001 1 0 ([1, 0] ++ natLe 2 192))) (.doe 0), reqBy (asksAt openVd 0 (writeMsg 0x8001 1 0 ([1, 0] ++ natLe 2 192))) (.doe 0), duAsked_by _ _ _ (by decide +kernel), by decide +kernel, .inl (by decide +kernel), trivial⟩,
   ⟨.doe 0, true, asksAt openVd 0 (writeMsg 0x8001 1 0 ([1, 0] ++ natLe 2 189)), leftBy (asksAt openVd 0 (writeMsg 0x8001 1 0 ([1, 0] ++ natLe 2 189))) (.doe 0), reqBy (asksAt openVd 0 (writeMsg 0x8001 1 0 ([1, 0] ++ natLe 2 189))) (.doe 0), duAsked_by _ _ _ (by decide +kernel), by decide +kernel, by decide +kernel, by decide +kernel, by decide +kernel, by decide +kernel, trivial⟩,
   ⟨.doe 0, true, asksAt {} 0 (writeMsg 0x8001 1 0 ([1, 0] ++ natLe 2 189)), leftBy (asksAt {} 0 (writeMsg 0x8001 1 0 ([1, 0] ++ natLe 2 189))) (.doe 0), reqBy (asksAt {} 0 (writeMsg 0x8001 1 0 ([1, 0] ++ natLe 2 189))) (.doe 0), duAsked_by _ _ _ (by decide +kernel), by decide +kernel, by decide +kernel, by decide +kernel, .inl (by decide +kernel), trivial⟩,
   ⟨.doe 0, asksAt openVd 0 (writeMsg 0x8001 1 0 [2, 255, 0, 0]), leftBy (asksAt openVd 0 (writeMsg 0x8001 1 0 [2, 255, 0, 0])) (.doe 0), reqBy (asksAt openVd 0 (writeMsg 0x8001 1 0 [2, 255, 0, 0])) (.doe 0), duAsked_by _ _ _ (by decide +kernel), by decide +kernel, trivial⟩,
   ⟨.doe 0, asksAt openVd 0 (writeMsg 0x8001 1 0 [2, 0, 0, 0]), leftBy (asksAt openVd 0 (writeMsg 0x8001 1 0 [2, 0, 0, 0])) (.doe 0), reqBy (asksAt openVd 0 (writeMsg 0x8001 1 0 [2, 0, 0, 0])) (.doe 0), duAsked_by _ _ _ (by decide +kernel), by decide +kernel, by decide +kernel, trivial⟩,
   ⟨.doe 0, asksAt openVd 0 (writeMsg 0x8001 1 0 [3, 1, 0, 0]), leftBy (asksAt openVd 0 (writeMsg 0x8001 1 0 [3, 1, 0, 0])) (.doe 0), reqBy (asksAt openVd 0 (writeMsg 0x8001 1 0 [3, 1, 0, 0])) (.doe 0), duAsked_by _ _ _ (by decide +kernel), by decide +kernel, trivial⟩,
   ⟨.doe 0, asksAt openVd 0 (writeMsg 0x8001 1 0 [3, 0, 0, 0]), leftBy (asksAt openVd 0 (writeMsg 0x8001 1 0 [3, 0, 0, 0])) (.doe 0), reqBy (asksAt openVd 0 (writeMsg 0x8001 1 0 [3, 0, 0, 0])) (.doe 0), duAsked_by _ _ _ (by decide +kernel), by decide +kernel, trivial⟩⟩

/-- A request's bytes. -/
def dMsg (op flags idx sub row : Nat) (data : List Byte) : List Byte :=
  [0x11, BitVec.ofNat 8 op, 0, BitVec.ofNat 8 flags, 7, 0] ++ natLe 2 idx ++ natLe 1 sub ++ [0] ++ natLe 2 data.length ++ natLe 4 row ++ data
def noObj : Obj := { idx := 0, sub := 0, type := 0, storage := 0, mgr := 0, op := 0, ten := 0, size := 0 }
def failGood (s : State) (src : DSrc) (row st : Nat) : Bool :=
  (takeMsg s src).2.isSome && decide (rowOf (reqBy s src) = row) && duServed s src && (keptRsp (leftBy s src) (reqBy s src)).isNone
    && (match preCheck (leftBy s src) (reqBy s src) with | .error e => decide (e = st) | _ => false)

theorem took_by (s : State) (src : DSrc) (h : (takeMsg s src).2.isSome = true) :
    ∃ m, takeMsg s src = (leftBy s src, some m) ∧ reqBy s src = parseReq src m := by
  refine ⟨(takeMsg s src).2.getD [], ?_, rfl⟩
  cases e : takeMsg s src with
  | mk a b =>
    rw [e] at h
    cases b with
    | none => simp at h
    | some m => simp [leftBy, e]

theorem duFails_by (s : State) (src : DSrc) (row st : Nat) (h : failGood s src row st = true) :
    duFails s (leftBy s src) src row (reqBy s src) st := by
  simp only [failGood, Bool.and_eq_true, decide_eq_true_eq, Option.isNone_iff_eq_none] at h
  obtain ⟨⟨⟨⟨h1, h2⟩, h3⟩, h4⟩, h5⟩ := h
  refine ⟨took_by s src h1, h2, h3, h4, ?_⟩
  revert h5
  cases preCheck (leftBy s src) (reqBy s src) with
  | error e => simp
  | ok o => simp

theorem duRetry_by (s : State) (src : DSrc) (row : Nat) (r : List Byte)
    (h : ((takeMsg s src).2.isSome && decide (rowOf (reqBy s src) = row) && duServed s src
      && decide (keptRsp (leftBy s src) (reqBy s src) = some r)) = true) : duRetry s (leftBy s src) src row (reqBy s src) r := by
  simp only [Bool.and_eq_true, decide_eq_true_eq] at h
  exact ⟨took_by s src h.1.1.1, h.1.1.2, h.1.2, h.2⟩

theorem noRow_of (s : State) (q : DReq) (h : (decide (q.idx * 256 + q.sub ≠ 0x700001) && (readObj s q 0).isNone) = true) :
    ∀ k, readObj s q k = none := by
  simp only [Bool.and_eq_true, decide_eq_true_eq, Option.isNone_iff_eq_none] at h
  intro k
  rw [← h.2]
  simp only [readObj, h.1, if_false]

theorem unsealed_of (s : State) (l : List Nat)
    (h : l.all (fun g => match s.cgVd g with | some v => !(s.vd v).posSealed | none => true) = true) :
    ∀ g ∈ l, ∀ v, s.cgVd g = some v → (s.vd v).posSealed = false := by
  intro g hg v e
  have := List.all_eq_true.mp h g hg
  rw [e] at this
  simpa using this
def keptVd (m : List Byte) : State := { asksAt openVd 0 m with dun := { kept := [{ who := 64, tag := 7, rsp := [1] }] } }

/-- States and operands that meet the hypotheses of every clause of DunirRequestsAreServed. -/
theorem wit_DunirRequestsAreServed :
    (∃ (src : DSrc) (s s0 : State) (q : DReq), (duAsked s s0 src opRead q) ∧ (q.row = max32) ∧ (tableRows q ≠ 0) ∧ True) ∧
    (∃ (src : DSrc) (s s0 : State) (q : DReq), (duAsked s s0 src opRead q) ∧ ∃ b, (q.row ≠ max32 ∨ tableRows q = 0) ∧ (objKeyOf q ∉ [0x700001, 0x800501, 0x400601]) ∧ (readObj s0 q 0 = some b) ∧ True) ∧
    (∃ (src : DSrc) (s s0 : State) (q : DReq), (duAsked s s0 src opRead q) ∧ ∃ b, (q.row ≠ max32) ∧ (objKeyOf q = 0x700001) ∧ (readObj s0 q s0.free = some b) ∧ True) ∧
    (∃ (src : DSrc) (s s0 : State) (q : DReq), (duAsked s s0 src opRead q) ∧ ∃ x b, (q.row ≠ max32) ∧ (objKeyOf q = 0x800501) ∧ (sampleIn s0 (q.row / 16 / 512) (q.row / 16 % 512) = some x) ∧ (readObj s0 q 0 = some b) ∧ True) ∧
    (∃ (src : DSrc) (s s0 : State) (q : DReq), (duAsked s s0 src opRead q) ∧ (q.row ≠ max32 ∨ tableRows q = 0) ∧ (∀ k, readObj s0 q k = none) ∧ True) ∧
    (∃ (src : DSrc) (s s0 : State) (q : DReq), (duAsked s s0 src opRead q) ∧ (q.idx = 0x1000) ∧ (q.sub = 1) ∧ True) ∧
    (∃ (src : DSrc) (s s0 : State) (q : DReq), ∃ o, (duAsked s s0 src opDescribe q) ∧ (objAt q.idx q.sub = some o) ∧ True) ∧
    (∃ (src : DSrc) (s s0 : State) (q : DReq), ∃ m, (takeMsg s src = (s0, some m)) ∧ (q = parseReq src m) ∧ (rowOf q = opVersion) ∧ (duServed s src = true) ∧ (keptRsp s0 q = none) ∧ (preCheck s0 q = .ok none) ∧ True) ∧
    (∃ (src : DSrc) (s s0 : State) (q : DReq), ∃ st, (duFails s s0 src opRead q st) ∧ True) ∧
    (∃ (src : DSrc) (s s0 : State) (q : DReq), ∃ st, (duFails s s0 src opDescribe q st) ∧ True) ∧
    (∃ (src : DSrc) (s s0 : State) (q : DReq), ∃ st, (duFails s s0 src opVersion q st) ∧ True) ∧
    (∃ (src : DSrc) (s s0 : State) (q : DReq), ∃ st, (duFails s s0 src opWrite q st) ∧ True) ∧
    (∃ (src : DSrc) (s s0 : State) (q : DReq), ∃ r, (duRetry s s0 src opRead q r) ∧ True) ∧
    (∃ (src : DSrc) (s s0 : State) (q : DReq), ∃ r, (duRetry s s0 src opWrite q r) ∧ True) ∧
    (∃ (src : DSrc) (s s0 : State) (q : DReq) (o : Obj), (duAsked s s0 src opWrite q) ∧ (objAt q.idx q.sub = some o) ∧ (objKeyOf q ≠ 0x200001) ∧ (objKeyOf q = 0x500401 → allZero q.data = true ∨ ((s0.vd (fieldAt q.data 0 1)).posSealed = false ∧ (s0.vd (fieldAt q.data 0 1)).posture ≠ some true)) ∧ ∃ n, (writeRange s0 q o = some n) ∧ True) ∧
    (∃ (src : DSrc) (s s0 : State) (q : DReq) (o : Obj), (duAsked s s0 src opWrite q) ∧ (objAt q.idx q.sub = some o) ∧ (objKeyOf q ≠ 0x200001) ∧ (objKeyOf q = 0x500401 → allZero q.data = true ∨ ((s0.vd (fieldAt q.data 0 1)).posSealed = false ∧ (s0.vd (fieldAt q.data 0 1)).posture ≠ some true)) ∧ (writeRange s0 q o = none) ∧ (objKeyOf q = 0x900101) ∧ (q.row = 0) ∧ True) ∧
    (∃ (src : DSrc) (s s0 : State) (q : DReq) (o : Obj), (duAsked s s0 src opWrite q) ∧ (objAt q.idx q.sub = some o) ∧ (objKeyOf q ≠ 0x200001) ∧ (objKeyOf q = 0x500401 → allZero q.data = true ∨ ((s0.vd (fieldAt q.data 0 1)).posSealed = false ∧ (s0.vd (fieldAt q.data 0 1)).posture ≠ some true)) ∧ (writeRange s0 q o = none) ∧ (¬(objKeyOf q = 0x900101 ∧ q.row = 0)) ∧ (writeClash s0 q = true) ∧ True) ∧
    (∃ (src : DSrc) (s s0 : State) (q : DReq) (o : Obj), (duAsked s s0 src opWrite q) ∧ (objAt q.idx q.sub = some o) ∧ (objKeyOf q ≠ 0x200001) ∧ (objKeyOf q = 0x500401 → allZero q.data = true ∨ ((s0.vd (fieldAt q.data 0 1)).posSealed = false ∧ (s0.vd (fieldAt q.data 0 1)).posture ≠ some true)) ∧ (writeRange s0 q o = none) ∧ (¬(objKeyOf q = 0x900101 ∧ q.row = 0)) ∧ (writeClash s0 q = false) ∧ True) ∧
    (∃ (src : DSrc) (s s0 : State) (q : DReq) (o : Obj), (duAsked s s0 src opWrite q) ∧ (objAt q.idx q.sub = some o) ∧ (objKeyOf q ≠ 0x200001) ∧ (objKeyOf q = 0x500401 → allZero q.data = true ∨ ((s0.vd (fieldAt q.data 0 1)).posSealed = false ∧ (s0.vd (fieldAt q.data 0 1)).posture ≠ some true)) ∧ (q.idx = 0x3000) ∧ (q.sub = 1) ∧ (700 ≤ leNat q.data) ∧ (leNat q.data ≤ 2400) ∧ True) ∧
    (∃ (_ok : Bool) (s : State), (s.dun.commits = []) ∧ True) ∧
    (∃ (_ok : Bool) (s : State), ∃ k b l, (s.dun.commits = (k, b) :: l) ∧ True) ∧
    (∃ (src : DSrc) (s s0 : State) (q : DReq), (duAsked s s0 src 0x500001 q) ∧ let n := leNat q.data
    (n ≤ 4095 ∨ n = 0xFFFF) ∧ True) ∧
    (∃ (src : DSrc) (s s0 : State) (q : DReq), (duAsked s s0 src 0x500001 q) ∧ let n := leNat q.data
    (4095 < n) ∧ (n ≠ 0xFFFF) ∧ True) ∧
    (∃ (src : DSrc) (s s0 : State) (q : DReq) (o : Obj), (duAsked s s0 src 0x500201 q) ∧ (objAt 0x5002 1 = some o) ∧ let b := sliceB q.data 0 2 ++ [0, 0]
    ∃ n, (writeRange s0 q o = some n) ∧ True) ∧
    (∃ (src : DSrc) (s s0 : State) (q : DReq) (o : Obj), (duAsked s s0 src 0x500201 q) ∧ (objAt 0x5002 1 = some o) ∧ let b := sliceB q.data 0 2 ++ [0, 0]
    (writeRange s0 q o = none) ∧ True) ∧
    (∃ (src : DSrc) (s s0 : State) (q : DReq) (o : Obj), (duAsked s s0 src 0x500201 q) ∧ (objAt 0x5002 1 = some o) ∧ let b := sliceB q.data 0 2 ++ [0, 0]
    (writeRange s0 q o = none) ∧ ((s.port q.row).st = .off ∨ (s.port q.row).st = .down) ∧ (s.talko.devId ≤ 4095) ∧ (tileUp s (q.row / 6) = true) ∧ True) ∧
    (∃ (src : DSrc) (_good : List (Bool × Bool × Bool)) (s s0 : State) (q : DReq), (duAsked s s0 src 0x800202 q) ∧ (leNat q.data = 1) ∧ (s.flash.sets.length = 2) ∧ (s.boot.active ≤ 1) ∧ True) ∧
    (∃ (src : DSrc) (_good : List (Bool × Bool × Bool)) (s s0 : State) (q : DReq), (duAsked s s0 src 0x800202 q) ∧ (leNat q.data = 0) ∧ True) ∧
    (∃ (src : DSrc) (_good : List (Bool × Bool × Bool)) (s s0 : State) (q : DReq), (duAsked s s0 src 0x800202 q) ∧ (1 < leNat q.data) ∧ True) ∧
    (∃ (src : DSrc) (s s0 : State) (q : DReq), (duAsked s s0 src 0x900401 q) ∧ let b := q.data
    let m := fieldAt b 4 8
    (∃ g ∈ bitsOf 48 m, ∃ v, s0.cgVd g = some v ∧ (s0.vd v).posSealed = true) ∧ True) ∧
    (∃ (src : DSrc) (s s0 : State) (q : DReq), (duAsked s s0 src 0x900401 q) ∧ let b := q.data
    let m := fieldAt b 4 8
    (∀ g ∈ bitsOf 48 m, ∀ v, s0.cgVd g = some v → (s0.vd v).posSealed = false) ∧ (fieldAt b 0 1 ≤ 1) ∧ (fieldAt b 1 1 ≤ 1) ∧ (fieldAt b 2 2 = 0) ∧ (m < 2 ^ 48) ∧ (fieldAt b 12 4 < 2 ^ 13) ∧ (s.trace.dies.length = 2) ∧ True) ∧
    (∃ (f : FnId) (v : Fin 2048) (_en : Bool) (s : State), (mbxOpen s f.val) ∧ (v.val ≤ vectorMax f.val) ∧ True) ∧
    (∃ (f : FnId) (v : Fin 2048) (_en : Bool) (s : State), (mbxOpen s f.val) ∧ (vectorMax f.val < v.val) ∧ True) ∧
    (∃ (f : FnId) (_v : Fin 2048) (_en : Bool) (s : State), (¬mbxOpen s f.val) ∧ True) ∧
    (∃ (f : FnId) (off : BitVec 26) (_v : W64) (s : State), ∃ b o, (blockAt f.val off.toNat = some (b, o)) ∧ (regOpen s f.val b) ∧ (o % 4 = 0) ∧ True) ∧
    (∃ (f : FnId) (off : BitVec 26) (_v : W64) (s : State), ∃ b o, (blockAt f.val off.toNat = some (b, o)) ∧ (regOpen s f.val b) ∧ (o % 8 = 0) ∧ True) ∧
    (∃ (f : FnId) (off : BitVec 26) (_v : W64) (s : State), ∃ b o, (blockAt f.val off.toNat = some (b, o)) ∧ (regOpen s f.val b) ∧ (o % 4 ≠ 0) ∧ True) ∧
    (∃ (f : FnId) (off : BitVec 26) (_v : W64) (s : State), ∃ b o, (blockAt f.val off.toNat = some (b, o)) ∧ (regOpen s f.val b) ∧ (o % 8 ≠ 0) ∧ True) ∧
    (∃ (f : FnId) (off : BitVec 26) (_v : W64) (s : State), ∃ _wide : Bool, (blockAt f.val off.toNat = none) ∧ (fnOpen s f.val = true) ∧ True) ∧
    (∃ (f : FnId) (off : BitVec 26) (_v : W64) (s : State), ∃ _wide : Bool, (fnOpen s f.val = false) ∧ (∀ b o, blockAt f.val off.toNat = some (b, o) → ¬regOpen s f.val b) ∧ True) ∧
    (∃ (f : FnId) (off : BitVec 26) (_v : W64) (s : State), (f.val = 0) ∧ (off.toNat = 0x1000014) ∧ (fnOpen s 0 = true) ∧ True) ∧
    (∃ (f : FnId) (off : BitVec 26) (_v : W64) (s : State), (f.val = 0) ∧ (off.toNat = 0x2800010) ∧ (fnOpen s 0 = true) ∧ True) :=
  ⟨⟨.doe 0, asksAt openVd 0 (dMsg 1 0 0x2001 1 4294967295 []), leftBy (asksAt openVd 0 (dMsg 1 0 0x2001 1 4294967295 [])) (.doe 0), reqBy (asksAt openVd 0 (dMsg 1 0 0x2001 1 4294967295 [])) (.doe 0), duAsked_by _ _ _ (by decide +kernel), by decide +kernel, by decide +kernel, trivial⟩,
   ⟨.doe 0, asksAt openVd 0 (dMsg 1 0 0x3000 1 0 []), leftBy (asksAt openVd 0 (dMsg 1 0 0x3000 1 0 [])) (.doe 0), reqBy (asksAt openVd 0 (dMsg 1 0 0x3000 1 0 [])) (.doe 0), duAsked_by _ _ _ (by decide +kernel), natLe 2 2400, .inl (by decide +kernel), by decide +kernel, by decide +kernel, trivial⟩,
   ⟨.doe 0, asksAt openVd 0 (dMsg 1 0 0x7000 1 199 []), leftBy (asksAt openVd 0 (dMsg 1 0 0x7000 1 199 [])) (.doe 0), reqBy (asksAt openVd 0 (dMsg 1 0 0x7000 1 199 [])) (.doe 0), duAsked_by _ _ _ (by decide +kernel), (readObj (leftBy (asksAt openVd 0 (dMsg 1 0 0x7000 1 199 [])) (.doe 0)) (reqBy (asksAt openVd 0 (dMsg 1 0 0x7000 1 199 [])) (.doe 0)) (leftBy (asksAt openVd 0 (dMsg 1 0 0x7000 1 199 [])) (.doe 0)).free).getD [], by decide +kernel, by decide +kernel, some_getD _ _ (by decide +kernel), trivial⟩,
   ⟨.doe 0, asksAt { openVd with dump := { slots := [{ seq := 5 }] } } 0 (dMsg 1 0 0x8005 1 80 []), leftBy (asksAt { openVd with dump := { slots := [{ seq := 5 }] } } 0 (dMsg 1 0 0x8005 1 80 [])) (.doe 0), reqBy (asksAt { openVd with dump := { slots := [{ seq := 5 }] } } 0 (dMsg 1 0 0x8005 1 80 [])) (.doe 0), duAsked_by _ _ _ (by decide +kernel), { seq := 5 }, (readObj (leftBy (asksAt { openVd with dump := { slots := [{ seq := 5 }] } } 0 (dMsg 1 0 0x8005 1 80 [])) (.doe 0)) (reqBy (asksAt { openVd with dump := { slots := [{ seq := 5 }] } } 0 (dMsg 1 0 0x8005 1 80 [])) (.doe 0)) 0).getD [], by decide +kernel, by decide +kernel, by decide +kernel, some_getD _ _ (by decide +kernel), trivial⟩,
   ⟨.doe 0, asksAt openVd 0 (dMsg 1 0 0x8000 1 65535 []), leftBy (asksAt openVd 0 (dMsg 1 0 0x8000 1 65535 [])) (.doe 0), reqBy (asksAt openVd 0 (dMsg 1 0 0x8000 1 65535 [])) (.doe 0), duAsked_by _ _ _ (by decide +kernel), .inl (by decide +kernel), noRow_of _ _ (by decide +kernel), trivial⟩,
   ⟨.doe 0, asksAt openVd 0 (dMsg 1 0 0x1000 1 0 []), leftBy (asksAt openVd 0 (dMsg 1 0 0x1000 1 0 [])) (.doe 0), reqBy (asksAt openVd 0 (dMsg 1 0 0x1000 1 0 [])) (.doe 0), duAsked_by _ _ _ (by decide +kernel), by decide +kernel, by decide +kernel, trivial⟩,
   ⟨.doe 0, asksAt openVd 0 (dMsg 3 0 0x3000 1 0 []), leftBy (asksAt openVd 0 (dMsg 3 0 0x3000 1 0 [])) (.doe 0), reqBy (asksAt openVd 0 (dMsg 3 0 0x3000 1 0 [])) (.doe 0), (objAt (reqBy (asksAt openVd 0 (dMsg 3 0 0x3000 1 0 [])) (.doe 0)).idx (reqBy (asksAt openVd 0 (dMsg 3 0 0x3000 1 0 [])) (.doe 0)).sub).getD noObj, duAsked_by _ _ _ (by decide +kernel), some_getD _ _ (by decide +kernel), trivial⟩,
   ⟨.doe 0, asksAt openVd 0 (dMsg 4 0 0x0 0 0 []), asksAt openVd 0 (dMsg 4 0 0x0 0 0 []), parseReq (.doe 0) (dMsg 4 0 0x0 0 0 []), (dMsg 4 0 0x0 0 0 []), rfl, rfl, by decide +kernel, by decide +kernel, by decide +kernel, by rfl, trivial⟩,
   ⟨.doe 0, asksAt openVd 0 (dMsg 1 0 0x7777 1 0 []), leftBy (asksAt openVd 0 (dMsg 1 0 0x7777 1 0 [])) (.doe 0), reqBy (asksAt openVd 0 (dMsg 1 0 0x7777 1 0 [])) (.doe 0), duNoObject, duFails_by _ _ _ _ (by decide +kernel), trivial⟩,
   ⟨.doe 0, asksAt openVd 0 (dMsg 3 0 0x7777 1 0 []), leftBy (asksAt openVd 0 (dMsg 3 0 0x7777 1 0 [])) (.doe 0), reqBy (asksAt openVd 0 (dMsg 3 0 0x7777 1 0 [])) (.doe 0), duNoObject, duFails_by _ _ _ _ (by decide +kernel), trivial⟩,
   ⟨.doe 0, asksAt openVd 0 (dMsg 4 0 0x0 0 0 [1]), leftBy (asksAt openVd 0 (dMsg 4 0 0x0 0 0 [1])) (.doe 0), reqBy (asksAt openVd 0 (dMsg 4 0 0x0 0 0 [1])) (.doe 0), duLength, duFails_by _ _ _ _ (by decide +kernel), trivial⟩,
   ⟨.doe 0, asksAt openVd 0 (dMsg 2 0 0x1000 1 0 [1, 1]), leftBy (asksAt openVd 0 (dMsg 2 0 0x1000 1 0 [1, 1])) (.doe 0), reqBy (asksAt openVd 0 (dMsg 2 0 0x1000 1 0 [1, 1])) (.doe 0), duAccess, duFails_by _ _ _ _ (by decide +kernel), trivial⟩,
   ⟨.doe 0, keptVd (dMsg 1 1 0x1000 1 0 []), leftBy (keptVd (dMsg 1 1 0x1000 1 0 [])) (.doe 0), reqBy (keptVd (dMsg 1 1 0x1000 1 0 [])) (.doe 0), [1], duRetry_by _ _ _ _ (by decide +kernel), trivial⟩,
   ⟨.doe 0, keptVd (dMsg 2 1 0x3000 1 0 (natLe 2 800)), leftBy (keptVd (dMsg 2 1 0x3000 1 0 (natLe 2 800))) (.doe 0), reqBy (keptVd (dMsg 2 1 0x3000 1 0 (natLe 2 800))) (.doe 0), [1], duRetry_by _ _ _ _ (by decide +kernel), trivial⟩,
   ⟨viaMctp (dMsg 2 0 0x3000 1 0 (natLe 2 2401)), serving openVd, leftBy (serving openVd) (viaMctp (dMsg 2 0 0x3000 1 0 (natLe 2 2401))), reqBy (serving openVd) (viaMctp (dMsg 2 0 0x3000 1 0 (natLe 2 2401))), (objAt (reqBy (serving openVd) (viaMctp (dMsg 2 0 0x3000 1 0 (natLe 2 2401)))).idx (reqBy (serving openVd) (viaMctp (dMsg 2 0 0x3000 1 0 (natLe 2 2401)))).sub).getD noObj, duAsked_by _ _ _ (by decide +kernel), some_getD _ _ (by decide +kernel), by decide +kernel, fun h => absurd h (by decide +kernel), 0, by decide +kernel, trivial⟩,
   ⟨viaMctp (dMsg 2 0 0x9001 1 0 [1]), serving openVd, leftBy (serving openVd) (viaMctp (dMsg 2 0 0x9001 1 0 [1])), reqBy (serving openVd) (viaMctp (dMsg 2 0 0x9001 1 0 [1])), (objAt (reqBy (serving openVd) (viaMctp (dMsg 2 0 0x9001 1 0 [1]))).idx (reqBy (serving openVd) (viaMctp (dMsg 2 0 0x9001 1 0 [1]))).sub).getD noObj, duAsked_by _ _ _ (by decide +kernel), some_getD _ _ (by decide +kernel), by decide +kernel, fun h => absurd h (by decide +kernel), by decide +kernel, by decide +kernel, by decide +kernel, trivial⟩,
   ⟨viaMctp (dMsg 2 0 0x9001 1 2 [2]), serving openVd, leftBy (serving openVd) (viaMctp (dMsg 2 0 0x9001 1 2 [2])), reqBy (serving openVd) (viaMctp (dMsg 2 0 0x9001 1 2 [2])), (objAt (reqBy (serving openVd) (viaMctp (dMsg 2 0 0x9001 1 2 [2]))).idx (reqBy (serving openVd) (viaMctp (dMsg 2 0 0x9001 1 2 [2]))).sub).getD noObj, duAsked_by _ _ _ (by decide +kernel), some_getD _ _ (by decide +kernel), by decide +kernel, fun h => absurd h (by decide +kernel), by decide +kernel, by decide +kernel, by decide +kernel, trivial⟩,
   ⟨viaMctp (dMsg 2 0 0x9001 1 2 [4]), serving openVd, leftBy (serving openVd) (viaMctp (dMsg 2 0 0x9001 1 2 [4])), reqBy (serving openVd) (viaMctp (dMsg 2 0 0x9001 1 2 [4])), (objAt (reqBy (serving openVd) (viaMctp (dMsg 2 0 0x9001 1 2 [4]))).idx (reqBy (serving openVd) (viaMctp (dMsg 2 0 0x9001 1 2 [4]))).sub).getD noObj, duAsked_by _ _ _ (by decide +kernel), some_getD _ _ (by decide +kernel), by decide +kernel, fun h => absurd h (by decide +kernel), by decide +kernel, by decide +kernel, by decide +kernel, trivial⟩,
   ⟨viaMctp (dMsg 2 0 0x3000 1 0 (natLe 2 2400)), serving openVd, leftBy (serving openVd) (viaMctp (dMsg 2 0 0x3000 1 0 (natLe 2 2400))), reqBy (serving openVd) (viaMctp (dMsg 2 0 0x3000 1 0 (natLe 2 2400))), (objAt (reqBy (serving openVd) (viaMctp (dMsg 2 0 0x3000 1 0 (natLe 2 2400)))).idx (reqBy (serving openVd) (viaMctp (dMsg 2 0 0x3000 1 0 (natLe 2 2400)))).sub).getD noObj, duAsked_by _ _ _ (by decide +kernel), some_getD _ _ (by decide +kernel), by decide +kernel, fun h => absurd h (by decide +kernel), by decide +kernel, by decide +kernel, by decide +kernel, by decide +kernel, trivial⟩,
   ⟨true, openVd, by decide, trivial⟩,
   ⟨true, { openVd with dun := { commits := [(5, [1]), (6, [2])] } }, 5, [1], [(6, [2])], by decide, trivial⟩,
   ⟨.doe 0, asksAt openVd 0 (dMsg 2 0 0x5000 1 0 (natLe 2 4095)), leftBy (asksAt openVd 0 (dMsg 2 0 0x5000 1 0 (natLe 2 4095))) (.doe 0), reqBy (asksAt openVd 0 (dMsg 2 0 0x5000 1 0 (natLe 2 4095))) (.doe 0), duAsked_by _ _ _ (by decide +kernel), .inl (by decide +kernel), trivial⟩,
   ⟨.doe 0, asksAt openVd 0 (dMsg 2 0 0x5000 1 0 (natLe 2 4096)), leftBy (asksAt openVd 0 (dMsg 2 0 0x5000 1 0 (natLe 2 4096))) (.doe 0), reqBy (asksAt openVd 0 (dMsg 2 0 0x5000 1 0 (natLe 2 4096))) (.doe 0), duAsked_by _ _ _ (by decide +kernel), by decide +kernel, by decide +kernel, trivial⟩,
   ⟨.doe 0, asksAt openVd 0 (dMsg 2 0 0x5002 1 23 [3, 0, 1, 0]), leftBy (asksAt openVd 0 (dMsg 2 0 0x5002 1 23 [3, 0, 1, 0])) (.doe 0), reqBy (asksAt openVd 0 (dMsg 2 0 0x5002 1 23 [3, 0, 1, 0])) (.doe 0), (objAt 0x5002 1).getD noObj, duAsked_by _ _ _ (by decide +kernel), some_getD _ _ (by decide +kernel), 0, by decide +kernel, trivial⟩,
   ⟨.doe 0, asksAt openVd 0 (dMsg 2 0 0x5002 1 23 [2, 1, 1, 0]), leftBy (asksAt openVd 0 (dMsg 2 0 0x5002 1 23 [2, 1, 1, 0])) (.doe 0), reqBy (asksAt openVd 0 (dMsg 2 0 0x5002 1 23 [2, 1, 1, 0])) (.doe 0), (objAt 0x5002 1).getD noObj, duAsked_by _ _ _ (by decide +kernel), some_getD _ _ (by decide +kernel), by decide +kernel, trivial⟩,
   ⟨.doe 0, asksAt { openVd with talko := { devId := 4095, lasers := [(0, { enabled := true, locked := true })] } } 0 (dMsg 2 0 0x5002 1 5 [1, 1, 1, 0]), leftBy (asksAt { openVd with talko := { devId := 4095, lasers := [(0, { enabled := true, locked := true })] } } 0 (dMsg 2 0 0x5002 1 5 [1, 1, 1, 0])) (.doe 0), reqBy (asksAt { openVd with talko := { devId := 4095, lasers := [(0, { enabled := true, locked := true })] } } 0 (dMsg 2 0 0x5002 1 5 [1, 1, 1, 0])) (.doe 0), (objAt 0x5002 1).getD noObj, duAsked_by _ _ _ (by decide +kernel), some_getD _ _ (by decide +kernel), by decide +kernel, .inl (by decide +kernel), by decide +kernel, by decide +kernel, trivial⟩,
   ⟨.doe 0, [(true, true, true)], asksAt openVd 0 (dMsg 2 0 0x8002 2 0 [1]), leftBy (asksAt openVd 0 (dMsg 2 0 0x8002 2 0 [1])) (.doe 0), reqBy (asksAt openVd 0 (dMsg 2 0 0x8002 2 0 [1])) (.doe 0), duAsked_by _ _ _ (by decide +kernel), by decide +kernel, by decide +kernel, by decide +kernel, trivial⟩,
   ⟨.doe 0, [], asksAt openVd 0 (dMsg 2 0 0x8002 2 0 [0]), leftBy (asksAt openVd 0 (dMsg 2 0 0x8002 2 0 [0])) (.doe 0), reqBy (asksAt openVd 0 (dMsg 2 0 0x8002 2 0 [0])) (.doe 0), duAsked_by _ _ _ (by decide +kernel), by decide +kernel, trivial⟩,
   ⟨.doe 0, [], asksAt openVd 0 (dMsg 2 0 0x8002 2 0 [2]), leftBy (asksAt openVd 0 (dMsg 2 0 0x8002 2 0 [2])) (.doe 0), reqBy (asksAt openVd 0 (dMsg 2 0 0x8002 2 0 [2])) (.doe 0), duAsked_by _ _ _ (by decide +kernel), by decide +kernel, trivial⟩,
   ⟨.doe 0, asksAt (sealedVd 3 7) 0 (dMsg 2 0 0x9004 1 0 ([1, 0, 0, 0] ++ natLe 8 1 ++ natLe 4 0)), leftBy (asksAt (sealedVd 3 7) 0 (dMsg 2 0 0x9004 1 0 ([1, 0, 0, 0] ++ natLe 8 1 ++ natLe 4 0))) (.doe 0), reqBy (asksAt (sealedVd 3 7) 0 (dMsg 2 0 0x9004 1 0 ([1, 0, 0, 0] ++ natLe 8 1 ++ natLe 4 0))) (.doe 0), duAsked_by _ _ _ (by decide +kernel), ⟨0, by decide +kernel, 1, by decide +kernel, by decide +kernel⟩, trivial⟩,
   ⟨.doe 0, asksAt openVd 0 (dMsg 2 0 0x9004 1 0 ([1, 0, 0, 0] ++ natLe 8 281474976710655 ++ natLe 4 8191)), leftBy (asksAt openVd 0 (dMsg 2 0 0x9004 1 0 ([1, 0, 0, 0] ++ natLe 8 281474976710655 ++ natLe 4 8191))) (.doe 0), reqBy (asksAt openVd 0 (dMsg 2 0 0x9004 1 0 ([1, 0, 0, 0] ++ natLe 8 281474976710655 ++ natLe 4 8191))) (.doe 0), duAsked_by _ _ _ (by decide +kernel), unsealed_of _ _ (by decide +kernel), by decide +kernel, by decide +kernel, by decide +kernel, by decide +kernel, by decide +kernel, by decide +kernel, trivial⟩,
   ⟨1, 63, true, openVd, .inr (by decide), by decide, trivial⟩,
   ⟨1, 64, true, openVd, .inr (by decide), by decide, trivial⟩,
   ⟨4, 63, true, openVd, by unfold mbxOpen; decide, trivial⟩,
   ⟨0, 0x1000014, 5, openVd, .pwr, 0x14, by decide, .inl (by decide), by decide, trivial⟩,
   ⟨0, 0x2800008, 5, openVd, .sec, 8, by decide, .inl (by decide), by decide, trivial⟩,
   ⟨1, 0x10001, 5, openVd, .gfe, 1, by decide, .inl (by decide), by decide, trivial⟩,
   ⟨1, 0x50004, 5, openVd, .mbx, 4, by decide, .inl (by decide), by decide, trivial⟩,
   ⟨1, 0x60000, 5, openVd, false, by decide, by decide, trivial⟩,
   ⟨4, 0, 5, openVd, true, by decide, by intro b o _ h; exact h.elim (fun h => absurd h (by decide)) (fun h => absurd h.2.1 (by decide)), trivial⟩,
   ⟨0, 0x1000014, 11, openVd, by decide, by decide, by decide, trivial⟩,
   ⟨0, 0x2800010, 64, openVd, by decide, by decide, by decide, trivial⟩⟩

/-- A request of VF 1 read from its bytes. -/
def tenReq (m : List Byte) : DReq := parseReq (.doe 1) m

/-- States and operands that meet the hypotheses of every clause of ForeignRowsLookAbsent. -/
theorem wit_ForeignRowsLookAbsent :
    (∃ (s : State) (q : DReq) (o : Obj), (q.role = 2) ∧ (objAt q.idx q.sub = some o) ∧ (o.type = tTab) ∧ (q.row ≠ max32) ∧ (foreignRow s o q.fn q.row) ∧ (headerPasses s q) ∧ True) ∧
    (∃ (s : State) (q : DReq) (o : Obj), (q.role = 2) ∧ (objAt q.idx q.sub = some o) ∧ (o.type = tTab) ∧ (q.row ≠ max32) ∧ (foreignRow s o q.fn q.row) ∧ (q.op = opRead ∨ q.op = opWrite) ∧ ∃ r, (o.rows ≤ r) ∧ (r ≠ max32) ∧ True) ∧
    (∃ (s : State) (q : DReq) (o : Obj), (q.role = 2) ∧ (objAt q.idx q.sub = some o) ∧ (o.type = tTab) ∧ (q.row ≠ max32) ∧ (ownTableRow s o q.fn q.row) ∧ (headerPasses s q) ∧ (q.row < o.rows) ∧ ((rightsOf o 2).testBit (q.op - 1) = true) ∧ (q.len = (if q.op = opRead then 0 else o.size)) ∧ True) ∧
    (∃ (src : DSrc) (s s0 : State) (q : DReq) (o : Obj) (m : List Byte), (takeMsg s src = (s0, some m)) ∧ (q = parseReq src m) ∧ (duServed s src = true) ∧ (keptRsp s0 q = none) ∧ (q.role = 2) ∧ (objAt q.idx q.sub = some o) ∧ (o.type = tTab) ∧ (q.row ≠ max32) ∧ (foreignRow s0 o q.fn q.row) ∧ (headerPasses s0 q) ∧ (rowOf q = opRead) ∧ True) ∧
    (∃ (src : DSrc) (s s0 : State) (q : DReq) (o : Obj) (m : List Byte), (takeMsg s src = (s0, some m)) ∧ (q = parseReq src m) ∧ (duServed s src = true) ∧ (keptRsp s0 q = none) ∧ (q.role = 2) ∧ (objAt q.idx q.sub = some o) ∧ (o.type = tTab) ∧ (q.row ≠ max32) ∧ (foreignRow s0 o q.fn q.row) ∧ (headerPasses s0 q) ∧ (rowOf q = opWrite) ∧ True) :=
  ⟨⟨asksAt openVd 1 (dMsg 1 0 0x2001 1 2 []), tenReq (dMsg 1 0 0x2001 1 2 []), (objAt (tenReq (dMsg 1 0 0x2001 1 2 [])).idx (tenReq (dMsg 1 0 0x2001 1 2 [])).sub).getD noObj, by decide +kernel, some_getD _ _ (by decide +kernel), by decide +kernel, by decide +kernel, .inl (by decide +kernel), ⟨by decide +kernel, by decide +kernel, by decide +kernel, by decide +kernel, by decide +kernel, .inl (by decide +kernel), by decide +kernel, by decide +kernel, by decide +kernel, by decide +kernel⟩, trivial⟩,
   ⟨asksAt openVd 1 (dMsg 1 0 0x2001 1 0 []), tenReq (dMsg 1 0 0x2001 1 0 []), (objAt (tenReq (dMsg 1 0 0x2001 1 0 [])).idx (tenReq (dMsg 1 0 0x2001 1 0 [])).sub).getD noObj, by decide +kernel, some_getD _ _ (by decide +kernel), by decide +kernel, by decide +kernel, .inl (by decide +kernel), .inl (by decide +kernel), 64, by decide +kernel, by decide +kernel, trivial⟩,
   ⟨asksAt openVd 1 (dMsg 2 0 0x4005 1 1 (List.replicate 24 0)), tenReq (dMsg 2 0 0x4005 1 1 (List.replicate 24 0)), (objAt (tenReq (dMsg 2 0 0x4005 1 1 (List.replicate 24 0))).idx (tenReq (dMsg 2 0 0x4005 1 1 (List.replicate 24 0))).sub).getD noObj, by decide +kernel, some_getD _ _ (by decide +kernel), by decide +kernel, by decide +kernel, .inr (.inl (by decide +kernel)), ⟨by decide +kernel, by decide +kernel, by decide +kernel, by decide +kernel, by decide +kernel, .inr (by decide +kernel), by decide +kernel, by decide +kernel, by decide +kernel, by decide +kernel⟩, by decide +kernel, by decide +kernel, by decide +kernel, trivial⟩,
   ⟨.doe 1, asksAt openVd 1 (dMsg 1 0 0x2001 1 2 []), asksAt openVd 1 (dMsg 1 0 0x2001 1 2 []), tenReq (dMsg 1 0 0x2001 1 2 []), (objAt (tenReq (dMsg 1 0 0x2001 1 2 [])).idx (tenReq (dMsg 1 0 0x2001 1 2 [])).sub).getD noObj, (dMsg 1 0 0x2001 1 2 []), rfl, rfl, by decide +kernel, by decide +kernel, by decide +kernel, some_getD _ _ (by decide +kernel), by decide +kernel, by decide +kernel, .inl (by decide +kernel), ⟨by decide +kernel, by decide +kernel, by decide +kernel, by decide +kernel, by decide +kernel, .inl (by decide +kernel), by decide +kernel, by decide +kernel, by decide +kernel, by decide +kernel⟩, by decide +kernel, trivial⟩,
   ⟨.doe 1, asksAt openVd 1 (dMsg 2 0 0x3001 1 2 [0, 0]), asksAt openVd 1 (dMsg 2 0 0x3001 1 2 [0, 0]), tenReq (dMsg 2 0 0x3001 1 2 [0, 0]), (objAt (tenReq (dMsg 2 0 0x3001 1 2 [0, 0])).idx (tenReq (dMsg 2 0 0x3001 1 2 [0, 0])).sub).getD noObj, (dMsg 2 0 0x3001 1 2 [0, 0]), rfl, rfl, by decide +kernel, by decide +kernel, by decide +kernel, some_getD _ _ (by decide +kernel), by decide +kernel, by decide +kernel, .inl (by decide +kernel), ⟨by decide +kernel, by decide +kernel, by decide +kernel, by decide +kernel, by decide +kernel, .inr (by decide +kernel), by decide +kernel, by decide +kernel, by decide +kernel, by decide +kernel⟩, by decide +kernel, trivial⟩⟩

/-- States and operands that meet the hypotheses of every clause of DunirVersionsAreServed. -/
theorem wit_DunirVersionsAreServed :
    (∃ (_s : State) (q : DReq), (q.ver / 16 = 1) ∧ (1 ≤ q.ver % 16 ∨ q.op ≠ opDescribe) ∧ True) ∧
    (∃ (q : DReq) (_st : Nat) (_b : List Byte), (q.ver / 16 = 1) ∧ (1 < q.ver % 16) ∧ True) ∧
    (∃ (q : DReq) (_st : Nat) (_b : List Byte), (q.ver / 16 ≠ 1 ∨ q.ver % 16 ≤ 1) ∧ True) ∧
    (∃ (_s : State) (q : DReq), (q.op = opDescribe) ∧ (headerSound q) ∧ (q.ver = 0x10) ∧ True) ∧
    (∃ (s : State) (q : DReq), (q.op = opDescribe) ∧ (headerSound q) ∧ (q.ver = 0x11) ∧ (s.boot.ready = true) ∧ ∃ o, (objAt q.idx q.sub = some o) ∧ (idxOpen s q = true) ∧ (q.len = 0) ∧ ∃ _f : State → DReq → DRes, True) ∧
    (∃ (s : State) (q : DReq), (q.op = opVersion) ∧ (headerSound q) ∧ (q.ver / 16 = 1) ∧ (s.boot.ready = true) ∧ (q.len = 0) ∧ ∃ _f : State → DReq → DRes, True) :=
  ⟨⟨openVd, { ver := 0x11, op := opDescribe }, by decide, .inl (by decide), trivial⟩,
   ⟨{ ver := 0x12 }, 0, [], by decide, by decide, trivial⟩,
   ⟨{ ver := 0x10 }, 0, [], .inr (by decide), trivial⟩,
   ⟨openVd, { ver := 0x10, op := opDescribe, size := 16 }, by decide, by unfold headerSound; decide, by decide, trivial⟩,
   ⟨openVd, { ver := 0x11, op := opDescribe, size := 16, idx := 0x3000, sub := 1 }, by decide, by unfold headerSound; decide, by decide, by decide, (objAt 0x3000 1).getD noObj, some_getD _ _ (by decide +kernel), by decide +kernel, by decide, fun s _ => { st := s }, trivial⟩,
   ⟨openVd, { ver := 0x1F, op := opVersion, size := 16 }, by decide, by unfold headerSound; decide, by decide, by decide, by decide, fun s _ => { st := s }, trivial⟩⟩

/-- States and operands that meet the hypotheses of every clause of StepTakesTheFrontCommand. -/
theorem wit_StepTakesTheFrontCommand :
    (∃ s : State, (s.pending = []) ∧ True) ∧
    (∃ s : State, (s.pending = []) ∧ (s.boot.running = false ∨ s.pow.locked = false) ∧ True) ∧
    (∃ s : State, (s.pending = []) ∧ (s.boot.running = true) ∧ (s.pow.locked = true) ∧ True) :=
  ⟨⟨{}, by decide, trivial⟩,
   ⟨{}, by decide, .inl (by decide), trivial⟩,
   ⟨{ running with pow := { locked := true } }, by decide, by decide, by decide, trivial⟩⟩

/-- A state and operands that meet the hypotheses of SlicesStayApart. -/
theorem wit_SlicesStayApart :
    (∃ s t : State, (slicesApart s) ∧ (step s = .next t) ∧ True) :=
  ⟨poolVd {} none, tick (poolVd {} none), ⟨by decide, by simp [poolVd, poolOf]⟩, rfl, trivial⟩

end Sys2Proof.Tests
end

section
/-! Lane-wise results, compares and reductions of the vector unit (R64, R66, R68, R69). -/

namespace Sys2Proof.Machine

/-- A mask write changes the mask registers alone. -/
theorem setMask_rest (x : Eng) (m : Nat) (v : W64) : { setMask x m v with masks := x.masks } = x := rfl

/-- A scalar write changes the scalar registers alone. -/
theorem setSreg_rest (x : Eng) (d : Nat) (v : W64) : { setSreg x d v with sregs := x.sregs } = x := rfl

/- Mask words. -/

theorem testBit_foldl_or_shift (xs : List Nat) (a j : Nat) :
    (xs.foldl (fun a i => a ||| (1 <<< i)) a).testBit j = (a.testBit j || decide (j ∈ xs)) := by
  induction xs generalizing a with
  | nil => simp
  | cons x xs ih =>
    have hx : (1 <<< x).testBit j = decide (j = x) := by
      rw [Nat.one_shiftLeft, Nat.testBit_two_pow]
      simp [eq_comm]
    simp [ih, hx, Bool.or_assoc]

@[simp] theorem testBit_maskOf (xs : List Nat) (j : Nat) : (maskOf xs).testBit j = decide (j ∈ xs) := by
  simp [maskOf, testBit_foldl_or_shift]

/-- The bit of a lane in a compare's mask. -/
theorem getLsbD_vmaskOf (x : Eng) (m a b : Nat) (f : W32 → W32 → Bool) {i : Nat} (hi : i < 64) :
    (maskReg (vmaskOf x m a b f) m).getLsbD i = f (vlane x a i) (vlane x b i) := by
  rw [vmaskOf, maskReg_setMask_self, BitVec.getLsbD_ofNat, testBit_maskOf]
  simp [hi]

/- Compares of special values (R66). -/

theorem cmpV_nan_left (v : FVal) : cmpV .nan v = none := rfl

theorem cmpV_nan_right (v : FVal) : cmpV v .nan = none := by
  cases v <;> rfl

theorem isNan32_iff (w : W32) : isNan32 w = true ↔ f32 w = .nan := by
  simp [isNan32]

/-- A NaN compares false under every predicate but NE. -/
theorem fcmp_of_nan (p : VCmp) {x y : W32} (h : isNan32 x = true ∨ isNan32 y = true) : fcmp p x y = decide (p = .ne) := by
  have hc : cmpV (f32 x) (f32 y) = none := by
    rcases h with h | h
    · rw [(isNan32_iff x).1 h, cmpV_nan_left]
    · rw [(isNan32_iff y).1 h, cmpV_nan_right]
  simp [fcmp, hc]

/-- Numbers that compare equal. -/
theorem fcmp_of_equal (p : VCmp) {x y : W32} (h : cmpV (f32 x) (f32 y) = some 0) :
    fcmp p x y = decide (p = .eq ∨ p = .le ∨ p = .ge) := by
  cases p <;> simp [fcmp, h]

/- The tree of R64 over a list whose length is a power of two. -/

theorem treeLevel_map_range {α : Type} (f : α → α → α) (v : Nat → α) (n : Nat) :
    treeLevel f ((List.range (2 * n)).map v) = (List.range n).map (fun i => f (v (2 * i)) (v (2 * i + 1))) := by
  induction n generalizing v with
  | zero => rfl
  | succ n ih =>
    have hl : (List.range (2 * (n + 1))).map v = v 0 :: v 1 :: (List.range (2 * n)).map (fun i => v (i + 2)) := by
      simp [Nat.mul_add, List.range_succ_eq_map, Function.comp_def]
    rw [hl, treeLevel, ih, List.range_succ_eq_map]
    simp [Function.comp_def, Nat.mul_add, Nat.add_right_comm]

theorem treeFold_succ {α : Type} (f : α → α → α) (n : Nat) {l : List α} (h : 2 ≤ l.length) :
    treeFold f (n + 1) l = treeFold f n (treeLevel f l) := by
  match l with
  | a :: b :: t => rfl

end Sys2Proof.Machine

namespace Sys2Proof.Claims

open Machine

theorem pairTree_root (f : W32 → W32 → W32) (v : Nat → W32) (k i : Nat) :
    pairTree f v (k + 1) i = f (pairTree f v k (2 * i)) (pairTree f v k (2 * i + 1)) := rfl

/-- The lowest level of the tree may be folded first. -/
theorem pairTree_succ (f : W32 → W32 → W32) (v : Nat → W32) (k i : Nat) :
    pairTree f v (k + 1) i = pairTree f (fun j => f (v (2 * j)) (v (2 * j + 1))) k i := by
  induction k generalizing i with
  | zero => rfl
  | succ k ih => rw [pairTree_root, ih, ih, pairTree_root f _ k i]

theorem treeFold_eq_pairTree (f : W32 → W32 → W32) (k fuel : Nat) (v : Nat → W32) (h : k ≤ fuel) :
    treeFold f fuel ((List.range (2 ^ k)).map v) = some (pairTree f v k 0) := by
  induction k generalizing fuel v with
  | zero => cases fuel <;> rfl
  | succ k ih =>
    obtain ⟨fuel, rfl⟩ := Nat.exists_eq_add_of_le' (Nat.le_trans (Nat.le_add_left 1 k) h)
    have hlen : 2 ≤ ((List.range (2 ^ (k + 1))).map v).length := by
      have := Nat.two_pow_pos k
      simp [Nat.pow_succ]
      omega
    rw [treeFold_succ f fuel hlen, Nat.pow_succ', treeLevel_map_range, ih fuel _ (by omega), pairTree_succ]

/- What one kind of vector instruction does. -/

/-- A command that writes one vector register lane by lane. -/
theorem laneOp_of_setVreg {c : Instr} {e : EngId} {d : Nat} {f : Eng → Nat → W32}
    (h : ∀ s, exec c s = doneKeep s (onEng s e (fun x => setVreg x d ((List.range 64).map (f x))))) : laneOp c e d f := by
  intro s
  obtain ⟨t, ht, hon, he⟩ := doneKeep_onEng s e (fun x => setVreg x d ((List.range 64).map (f x)))
  refine ⟨t, (h s).trans ht, hon, fun i hi => ?_, fun r i hr => ?_, ?_⟩ <;> rw [he]
  · rw [vlane_setVreg_self, getD_map_range64 _ _ hi]
  · exact vlane_setVreg_ne _ _ _ hr
  · exact setVreg_rest _ _ _

/-- A command that writes the mask of a predicate on two registers. -/
theorem cmpOp_of_vmaskOf {c : Instr} {e : EngId} {m a b : Nat} {p : VCmp}
    (h : ∀ s, exec c s = doneKeep s (onEng s e (fun x => vmaskOf x m a b (fcmp p)))) : cmpOp c e m a b p := by
  intro s
  obtain ⟨t, ht, hon, he⟩ := doneKeep_onEng s e (fun x => vmaskOf x m a b (fcmp p))
  refine ⟨t, (h s).trans ht, hon, fun i hi => ?_, fun q hq => ?_, ?_⟩ <;> rw [he]
  · exact getLsbD_vmaskOf _ _ _ _ _ hi
  · exact maskReg_setMask_ne _ _ hq
  · exact setMask_rest _ _ _

/-- A command that folds the lanes of a register along the tree. -/
theorem redOp_of_vreduce {c : Instr} {e : EngId} {d a : Nat} {f : W32 → W32 → W32}
    (h : ∀ s, exec c s = doneKeep s (onEng s e (fun x => vreduce x d a f))) : redOp c e d a f := by
  intro s
  obtain ⟨t, ht, hon, he⟩ := doneKeep_onEng s e (fun x => vreduce x d a f)
  refine ⟨t, (h s).trans ht, hon, ?_, fun q hq => ?_, ?_⟩ <;> rw [he]
  · have hroot : treeFold f 64 (vlanes (s.eng e.val) a) = some (pairTree f (vlane (s.eng e.val) a) 6 0) :=
      treeFold_eq_pairTree f 6 64 (vlane (s.eng e.val) a) (by decide)
    rw [vreduce, sreg_setSreg_self, hroot, Option.getD_some]
  · exact sreg_setSreg_ne _ _ hq
  · exact setSreg_rest _ _ _

/-- Settles O1: each instruction writes one register lane by lane. -/
theorem vectorLanes : Obligations.VectorLanes := by
  intro e d a b
  and_intros
  all_goals
    intros
    exact laneOp_of_setVreg fun _ => rfl

/-- Settles O2: the mask holds each lane's compare; a NaN is unordered and the two zeros compare equal. -/
theorem vectorCompares : Obligations.VectorCompares :=
  ⟨fun _ _ _ _ => ⟨cmpOp_of_vmaskOf fun _ => rfl, cmpOp_of_vmaskOf fun _ => rfl, cmpOp_of_vmaskOf fun _ => rfl,
      cmpOp_of_vmaskOf fun _ => rfl, cmpOp_of_vmaskOf fun _ => rfl, cmpOp_of_vmaskOf fun _ => rfl⟩,
    fun p _ _ h => fcmp_of_nan p h,
    fun p => ⟨fcmp_of_equal p (by decide), fcmp_of_equal p (by decide)⟩⟩

/-- Settles O3, by the branches of `fminmax`; the zeros are ordered by `key32`. -/
theorem vectorMinMaxRules : Obligations.VectorMinMaxRules := by
  refine ⟨fun mx x y hx hy => ?_, fun mx x y hx hy => ?_, fun mx x y hx hy => ?_, by decide, by decide, by decide, by decide⟩
  · simp [fminmax, hx, hy, nan32]
  · simp [fminmax, hx, hy]
  · simp only [fminmax, hx, hy, Bool.false_eq_true, if_false]
    split
    · exact .inr rfl
    · exact .inl rfl

/-- Settles O4: 64 leaves are a tree of 6 levels. -/
theorem vectorReductions : Obligations.VectorReductions :=
  fun _ _ _ => ⟨redOp_of_vreduce fun _ => rfl, redOp_of_vreduce fun _ => rfl, redOp_of_vreduce fun _ => rfl⟩

end Sys2Proof.Claims
end

section
/-! The local operand store under the core's tag, gather and scatter (R67, R81), and conversions (R52–R57, R70). -/

namespace Sys2Proof.Machine

/- Bytes and lines. -/

@[simp] theorem length_natLe (n x : Nat) : (natLe n x).length = n := by
  induction n generalizing x with
  | zero => rfl
  | succ n ih => simp [natLe, ih]

/-- The bits of a little-endian number are those of its bytes. -/
theorem testBit_leNat (bs : List Byte) (q : Nat) {k : Nat} (hk : k < 8) :
    (leNat bs).testBit (8 * q + k) = (bs.getD q 0).getLsbD k := by
  induction bs generalizing q with
  | nil => simp [leNat]
  | cons b bs ih =>
    have hsplit := Nat.testBit_two_pow_mul_add (leNat bs) b.isLt (8 * q + k)
    rw [leNat, Nat.add_comm, show (256 : Nat) = 2 ^ 8 by rfl, hsplit]
    cases q with
    | zero => simp [hk, BitVec.getLsbD]
    | succ q =>
      rw [if_neg (by omega), show 8 * (q + 1) + k - 8 = 8 * q + k by omega, ih]
      simp

/-- The bits that `lineSet` writes. -/
theorem getLsbD_lineSet (l : LineData) (i : Nat) (bs : List Byte) (p : Nat) :
    (lineSet l i bs).getLsbD p =
      if 8 * i ≤ p ∧ p < 8 * (i + bs.length) then decide (p < 1024) && (leNat bs).testBit (p - 8 * i) else l.getLsbD p := by
  have hm : ((2 ^ (8 * bs.length) - 1) <<< (8 * i)).testBit p = decide (8 * i ≤ p ∧ p < 8 * (i + bs.length)) := by
    rw [Nat.testBit_shiftLeft, Nat.testBit_two_pow_sub_one, ← Bool.decide_and]
    exact decide_eq_decide.2 (by omega)
  simp only [lineSet, BitVec.getLsbD_or, BitVec.getLsbD_and, BitVec.getLsbD_not, BitVec.getLsbD_ofNat, hm,
    Nat.testBit_shiftLeft]
  by_cases hin : 8 * i ≤ p ∧ p < 8 * (i + bs.length)
  · simp +contextual [hin]
  · simpa [hin] using BitVec.lt_of_getLsbD

theorem getLsbD_lineByte (l : LineData) (j k : Nat) : (lineByte l j).getLsbD k = (decide (k < 8) && l.getLsbD (8 * j + k)) := by
  simp [lineByte]

/-- A byte inside the range written reads as the byte written. -/
theorem lineByte_lineSet_in (l : LineData) {i j : Nat} {bs : List Byte} (h : i + bs.length ≤ 128) (hj : j < bs.length) :
    lineByte (lineSet l i bs) (i + j) = bs.getD j 0 := by
  refine BitVec.eq_of_getLsbD_eq fun k hk => ?_
  have hrange : 8 * i ≤ 8 * (i + j) + k ∧ 8 * (i + j) + k < 8 * (i + bs.length) := by omega
  rw [getLsbD_lineByte, getLsbD_lineSet, if_pos hrange, show 8 * (i + j) + k - 8 * i = 8 * j + k by omega, testBit_leNat bs j hk]
  simp [hk, show 8 * (i + j) + k < 1024 by omega]

/-- A byte outside the range written reads as before. -/
theorem lineByte_lineSet_out (l : LineData) {i j : Nat} {bs : List Byte} (h : j < i ∨ i + bs.length ≤ j) :
    lineByte (lineSet l i bs) j = lineByte l j := by
  refine BitVec.eq_of_getLsbD_eq fun k hk => ?_
  rw [getLsbD_lineByte, getLsbD_lineByte, getLsbD_lineSet, if_neg (by omega)]

@[simp] theorem lineByte_zero (j : Nat) : lineByte 0#1024 j = 0#8 := by
  simp [lineByte]

/- The local operand store. -/

/-- What a line of the store holds for a tag: nothing where it is not written or belongs to another tag (R81). -/
def losLine (e : Eng) (tag : BitVec 12) (n : Nat) : LineData :=
  let l := lookD e.los n {}
  if l.tag = tag ∧ l.written then l.data else 0

theorem losRead_eq (e : Eng) (tag : BitVec 12) (a n : Nat) :
    losRead e tag a n = (List.range n).map (fun i => lineByte (losLine e tag (a / 128)) (a % 128 + i)) := by
  unfold losRead losLine
  dsimp only
  split
  · rfl
  · simp [List.map_const']

theorem losLine_losWrite_self (e : Eng) (tag : BitVec 12) (a : Nat) (bs : List Byte) :
    losLine (losWrite e tag a bs) tag (a / 128) = lineSet (losLine e tag (a / 128)) (a % 128) bs := by
  simp only [losLine, losWrite, lookD_putD_self, and_self, if_true]

theorem losLine_losWrite_ne (e : Eng) (tag : BitVec 12) {a n : Nat} (bs : List Byte) (h : n ≠ a / 128) :
    losLine (losWrite e tag a bs) tag n = losLine e tag n := by
  simp only [losLine, losWrite, lookD_putD_ne _ _ _ h]

theorem losRead_losWrite_self (e : Eng) (tag : BitVec 12) {a : Nat} {bs : List Byte} (h : a % 128 + bs.length ≤ 128) :
    losRead (losWrite e tag a bs) tag a bs.length = bs := by
  rw [losRead_eq, losLine_losWrite_self]
  refine List.ext_getElem (by simp) fun i h1 h2 => ?_
  rw [List.getElem_map, List.getElem_range, lineByte_lineSet_in _ h h2]
  simp [h2]

/-- A read of other bytes of the store gives what it gave before. -/
theorem losRead_losWrite_disjoint (e : Eng) (tag : BitVec 12) {a b n : Nat} {bs : List Byte}
    (h : b + n ≤ a ∨ a + bs.length ≤ b) :
    losRead (losWrite e tag a bs) tag b n = losRead e tag b n := by
  rw [losRead_eq, losRead_eq]
  by_cases hl : b / 128 = a / 128
  · rw [hl, losLine_losWrite_self]
    refine List.map_congr_left fun i hi => ?_
    have := List.mem_range.1 hi
    exact lineByte_lineSet_out _ (by omega)
  · rw [losLine_losWrite_ne _ _ _ hl]

/-- A store write changes the store alone. -/
theorem losWrite_rest (e : Eng) (tag : BitVec 12) (a : Nat) (bs : List Byte) (m : Map LosLine) :
    { losWrite e tag a bs with los := m } = { e with los := m } := rfl

/- Gather. -/

theorem mod_four_of_losLaneOk {w : W32} (h : losLaneOk w = true) : w.toNat % 4 = 0 := by
  simp only [losLaneOk, Bool.and_eq_true, decide_eq_true_eq] at h
  exact h.1

theorem vlane_gather (tag : BitVec 12) (x : Eng) (d o : Nat) {i : Nat} (hi : i < 64) :
    vlane (gather tag x d o) d i =
      if losLaneOk (vlane x o i) then BitVec.ofNat 32 (leNat (losRead x tag (vlane x o i).toNat 4)) else 0 := by
  have hlanes (f : W16) (v : List W32) : vlane (raiseNsw (setVreg x d v) f) d i = v.getD i 0 := vlane_setVreg_self x d i v
  unfold gather
  dsimp only
  split
  · rw [vlane_setVreg_self, vlanes, List.map_map, getD_map_range64 _ _ hi, Function.comp_apply]
  · rw [hlanes, vlanes, List.map_map, getD_map_range64 _ _ hi, Function.comp_apply]

/-- Gather and scatter end alike: LOS_OOB where a lane's offset is bad (R67). -/
theorem nsw_flag_unless (y : Eng) (ok : Bool) (f : W16) :
    (if ok then y else raiseNsw y f).nsw = y.nsw ||| (if ok then 0 else f) := by
  cases ok <;> simp [raiseNsw]

theorem gather_nsw (tag : BitVec 12) (x : Eng) (d o : Nat) :
    (gather tag x d o).nsw = x.nsw ||| (if (vlanes x o).all losLaneOk then 0 else nswLosOob) :=
  nsw_flag_unless _ _ _

theorem gather_rest (tag : BitVec 12) (x : Eng) (d o : Nat) :
    { gather tag x d o with vregs := x.vregs, nsw := x.nsw } = x := by
  unfold gather
  dsimp only
  split <;> rfl

/- Scatter. -/

/-- One lane's part of a scatter (R67). -/
def scatterLane (tag : BitVec 12) (x : Eng) (o a : Nat) (y : Eng) (i : Nat) : Eng :=
  if losLaneOk (vlane x o i) then losWrite y tag (vlane x o i).toNat (natLe 4 (vlane x a i).toNat) else y

/-- The first `n` lanes of a scatter. -/
def scatterLanes (tag : BitVec 12) (x : Eng) (o a n : Nat) : Eng := (List.range n).foldl (scatterLane tag x o a) x

theorem scatter_eq (tag : BitVec 12) (x : Eng) (o a : Nat) :
    scatter tag x o a = if (vlanes x o).all losLaneOk then scatterLanes tag x o a 64 else raiseNsw (scatterLanes tag x o a 64) nswLosOob :=
  rfl

theorem scatterLanes_succ (tag : BitVec 12) (x : Eng) (o a n : Nat) :
    scatterLanes tag x o a (n + 1) = scatterLane tag x o a (scatterLanes tag x o a n) n := by
  simp [scatterLanes, List.range_succ]

/-- A lane leaves the words at other usable offsets alone. -/
theorem losRead_scatterLane_ne (tag : BitVec 12) (x : Eng) (o a : Nat) (y : Eng) (i : Nat) {w : W32} (hw : losLaneOk w = true)
    (h : vlane x o i ≠ w) : losRead (scatterLane tag x o a y i) tag w.toNat 4 = losRead y tag w.toNat 4 := by
  unfold scatterLane
  split
  case isTrue hi =>
    have hne : (vlane x o i).toNat ≠ w.toNat := fun he => h (BitVec.eq_of_toNat_eq he)
    have hw4 := mod_four_of_losLaneOk hw
    have hi4 := mod_four_of_losLaneOk hi
    exact losRead_losWrite_disjoint _ _ (by rw [length_natLe]; omega)
  case isFalse => rfl

/-- The highest lane with an offset decides the word there. -/
theorem losRead_scatterLanes (tag : BitVec 12) (x : Eng) (o a : Nat) {n i : Nat} (hi : i < n) (hok : losLaneOk (vlane x o i) = true)
    (hlast : ∀ j < n, i < j → vlane x o j ≠ vlane x o i) :
    losRead (scatterLanes tag x o a n) tag (vlane x o i).toNat 4 = natLe 4 (vlane x a i).toNat := by
  induction n with
  | zero => omega
  | succ n ih =>
    rw [scatterLanes_succ]
    by_cases hin : i = n
    · have h4 := mod_four_of_losLaneOk hok
      have hself := losRead_losWrite_self (scatterLanes tag x o a n) tag (a := (vlane x o i).toNat)
        (bs := natLe 4 (vlane x a i).toNat) (by rw [length_natLe]; omega)
      rw [length_natLe] at hself
      rw [← hin, scatterLane, if_pos hok, hin]
      rwa [hin] at hself
    · rw [losRead_scatterLane_ne _ _ _ _ _ _ hok (hlast n (by omega) (by omega))]
      exact ih (by omega) fun j hj hij => hlast j (by omega) hij

theorem scatterLanes_rest (tag : BitVec 12) (x : Eng) (o a n : Nat) : { scatterLanes tag x o a n with los := x.los } = x := by
  induction n with
  | zero => rfl
  | succ n ih =>
    rw [scatterLanes_succ, scatterLane]
    split
    · rw [losWrite_rest, ih]
    · exact ih

theorem losRead_scatter (tag : BitVec 12) (x : Eng) (o a : Nat) {i : Nat} (hi : i < 64) (hok : losLaneOk (vlane x o i) = true)
    (hlast : ∀ j < 64, i < j → vlane x o j ≠ vlane x o i) :
    losRead (scatter tag x o a) tag (vlane x o i).toNat 4 = natLe 4 (vlane x a i).toNat := by
  have hw := losRead_scatterLanes tag x o a hi hok hlast
  rw [scatter_eq]
  split
  · exact hw
  · exact hw

theorem scatter_nsw (tag : BitVec 12) (x : Eng) (o a : Nat) :
    (scatter tag x o a).nsw = x.nsw ||| (if (vlanes x o).all losLaneOk then 0 else nswLosOob) := by
  have hx : (scatterLanes tag x o a 64).nsw = x.nsw := (congrArg Eng.nsw (scatterLanes_rest tag x o a 64) :)
  rw [scatter_eq, nsw_flag_unless, hx]

theorem scatter_rest (tag : BitVec 12) (x : Eng) (o a : Nat) : { scatter tag x o a with los := x.los, nsw := x.nsw } = x := by
  have hx := scatterLanes_rest tag x o a 64
  have hy : { scatterLanes tag x o a 64 with los := x.los, nsw := x.nsw } = x := congrArg (fun y : Eng => { y with nsw := x.nsw }) hx
  rw [scatter_eq]
  split
  · exact hy
  · exact hy

/- Conversions. -/

/-- The block of 32 lanes from lane `lo` of a conversion to an MX format (R55). -/
def cvtBlock (x : Eng) (a sa : Nat) (fs fd : Fmt) (rm : RMode) (seed tensor il ih lo : Nat) : Nat × List Nat × W16 :=
  convertMx fd rm ((List.range 32).map (fun i => cvtRandom x rm seed tensor il ih (lo + i)))
    ((List.range 32).map (fun i => cvtSource x fs a sa (lo + i)))

theorem take_map_range64 {α : Type} (f : Nat → α) :
    ((List.range 64).map f).take 32 = (List.range 32).map (fun i => f (0 + i)) := by
  simp [← List.map_take, List.take_range]

theorem drop_map_range64 {α : Type} (f : Nat → α) :
    ((List.range 64).map f).drop 32 = (List.range 32).map (fun i => f (32 + i)) := by
  rw [show 64 = 32 + 32 by rfl, List.range_add, List.map_append, List.drop_left' (by simp), List.map_map]
  rfl

/-- A block has as many codes as values. -/
theorem length_convertMx (f : Fmt) (rm : RMode) {r : List Nat} {vs : List FVal} (h : vs.length = r.length) :
    (convertMx f rm r vs).2.1.length = vs.length := by
  unfold convertMx
  split
  · simp
  · split <;> simp [h]

theorem length_cvtBlock (x : Eng) (a sa : Nat) (fs fd : Fmt) (rm : RMode) (seed tensor il ih lo : Nat) :
    (cvtBlock x a sa fs fd rm seed tensor il ih lo).2.1.length = 32 := by
  rw [cvtBlock, length_convertMx] <;> simp

/-- A lane beyond the codes is 0, as a code beyond them is. -/
theorem getD_map_ofNat (cs : List Nat) (i : Nat) : (cs.map (BitVec.ofNat 32 ·)).getD i 0 = BitVec.ofNat 32 (cs.getD i 0) := by
  rw [List.getD_eq_getElem?_getD, List.getD_eq_getElem?_getD, List.getElem?_map]
  cases cs[i]? <;> rfl

/-- Lane `i` of the first of two blocks of codes. -/
theorem getD_codes_left {c0 c1 : List Nat} {i : Nat} (h0 : c0.length = 32) (hi : i < 32) :
    ((c0 ++ c1).map (BitVec.ofNat 32 ·)).getD i 0 = BitVec.ofNat 32 (c0.getD i 0) := by
  rw [getD_map_ofNat, List.getD_eq_getElem?_getD, List.getElem?_append_left (by omega), List.getD_eq_getElem?_getD]

/-- Lane `32 + i` of two blocks of codes. -/
theorem getD_codes_right {c0 c1 : List Nat} {i : Nat} (h0 : c0.length = 32) :
    ((c0 ++ c1).map (BitVec.ofNat 32 ·)).getD (32 + i) 0 = BitVec.ofNat 32 (c1.getD i 0) := by
  rw [getD_map_ofNat, List.getD_eq_getElem?_getD, List.getElem?_append_right (by omega), h0, Nat.add_sub_cancel_left,
    List.getD_eq_getElem?_getD]

section Conversion

variable {x : Eng} {d sd a sa : Nat} {fs fd : Fmt} {rm : RMode} {ov : Ovf} {seed tensor il ih : Nat}

/-- A conversion to a format that is no MX format. -/
theorem vcvt_plain (h : isMx fd = false) :
    vcvt x d sd a sa fs fd rm ov seed tensor il ih =
      raiseNsw
        (setVreg x d ((List.range 64).map (fun i =>
          BitVec.ofNat 32 (convertTo fd rm ov (cvtRandom x rm seed tensor il ih i) (cvtSource x fs a sa i)).1)))
        (orAll ((List.range 64).map (fun i =>
          (convertTo fd rm ov (cvtRandom x rm seed tensor il ih i) (cvtSource x fs a sa i)).2)) ||| srFlag rm) := by
  simp only [vcvt, h, Bool.false_eq_true, if_false, List.zip_map', List.map_map]
  rfl

/-- A conversion to an MX format is two blocks. -/
theorem vcvt_mx (h : isMx fd = true) :
    let b := cvtBlock x a sa fs fd rm seed tensor il ih
    vcvt x d sd a sa fs fd rm ov seed tensor il ih =
      raiseNsw
        (setVreg (setVreg x d (((b 0).2.1 ++ (b 32).2.1).map (BitVec.ofNat 32 ·))) sd
          (BitVec.ofNat 32 (b 0).1 :: BitVec.ofNat 32 (b 32).1 :: List.replicate 62 0))
        ((b 0).2.2 ||| (b 32).2.2 ||| srFlag rm) := by
  simp only [vcvt, h, if_true, take_map_range64, drop_map_range64]
  rfl

/-- The scale of block `h` of an MX conversion. -/
theorem vlane_vcvt_scale (hmx : isMx fd = true) {h : Nat} (hh : h < 2) :
    vlane (vcvt x d sd a sa fs fd rm ov seed tensor il ih) sd h =
      BitVec.ofNat 32 (cvtBlock x a sa fs fd rm seed tensor il ih (32 * h)).1 := by
  rw [vcvt_mx hmx]
  refine (vlane_setVreg_self _ sd h _).trans ?_
  match h, hh with
  | 0, _ => rfl
  | 1, _ => rfl

/-- The codes of block `h` of an MX conversion. -/
theorem vlane_vcvt_code (hmx : isMx fd = true) (hd : sd ≠ d) {h i : Nat} (hh : h < 2) (hi : i < 32) :
    vlane (vcvt x d sd a sa fs fd rm ov seed tensor il ih) d (32 * h + i) =
      BitVec.ofNat 32 ((cvtBlock x a sa fs fd rm seed tensor il ih (32 * h)).2.1.getD i 0) := by
  have h0 := length_cvtBlock x a sa fs fd rm seed tensor il ih 0
  rw [vcvt_mx hmx]
  refine ((vlane_setVreg_ne _ _ _ hd.symm).trans (vlane_setVreg_self x d _ _)).trans ?_
  match h, hh with
  | 0, _ => rw [Nat.mul_zero, Nat.zero_add, getD_codes_left h0 hi]
  | 1, _ => rw [Nat.mul_one, getD_codes_right h0]

theorem vlane_vcvt_ne (hmx : isMx fd = true) {r : Nat} (hd : r ≠ d) (hsd : r ≠ sd) (i : Nat) :
    vlane (vcvt x d sd a sa fs fd rm ov seed tensor il ih) r i = vlane x r i := by
  rw [vcvt_mx hmx]
  exact (vlane_setVreg_ne _ _ _ hsd).trans (vlane_setVreg_ne _ _ _ hd)

theorem vcvt_mx_nsw (hmx : isMx fd = true) :
    (vcvt x d sd a sa fs fd rm ov seed tensor il ih).nsw =
      x.nsw ||| ((cvtBlock x a sa fs fd rm seed tensor il ih 0).2.2 |||
        (cvtBlock x a sa fs fd rm seed tensor il ih 32).2.2 ||| srFlag rm) := by
  rw [vcvt_mx hmx]
  rfl

theorem vcvt_mx_cvt (hmx : isMx fd = true) : (vcvt x d sd a sa fs fd rm ov seed tensor il ih).cvt = x.cvt := by
  rw [vcvt_mx hmx]
  rfl

end Conversion

end Sys2Proof.Machine

namespace Sys2Proof.Claims

open Machine Safety

theorem gives_vgather (e : EngId) (d o : Nat) (s : State) :
    gives (.vgather e d o) s (fun t => onlyEng s t e.val ∧
      t.eng e.val = gather (s.coreTag (engCore e.val)) (s.eng e.val) d o) :=
  doneKeep_onEng s e _

theorem gives_vscatter (e : EngId) (o a : Nat) (s : State) :
    gives (.vscatter e o a) s (fun t => onlyEng s t e.val ∧
      t.eng e.val = scatter (s.coreTag (engCore e.val)) (s.eng e.val) o a) :=
  doneKeep_onEng s e _

/-- The engine with the parameters a conversion was given. -/
def withCvt (x : Eng) (rm : RMode) (ov : Ovf) (seed : W64) (tensor : W32) : Eng :=
  { x with cvt := { round := rm, ovf := ov, seed := seed, tensor := tensor } }

theorem gives_vcvt (e : EngId) (d sd a sa : Nat) (src dst : CvtFmt) (rm : RMode) (ov : Ovf) (seed : W64) (tensor : W32)
    (il ih : Nat) (s : State) :
    gives (.vcvt e d sd a sa src dst rm ov seed tensor il ih) s (fun t => onlyEng s t e.val ∧
      t.eng e.val = vcvt (withCvt (s.eng e.val) rm ov seed tensor) d sd a sa (cvtFmt src) (cvtFmt dst) rm ov seed.toNat
        tensor.toNat il ih) :=
  doneKeep_onEng s e _

/-- Settles O5: gather and scatter by their lanes, VCVT by its one or two blocks. -/
theorem gatherScatterConvert : Obligations.GatherScatterConvert := by
  refine ⟨fun e d o s => ?_, fun e o a s => ?_, fun e d sd a sa src dst rm ov seed tensor il ih s hmx => ?_,
    fun e d sd a sa src dst rm ov seed tensor il ih s hmx => ?_⟩
  · obtain ⟨t, ht, hon, he⟩ := gives_vgather e d o s
    refine ⟨t, ht, hon, ?_⟩
    rw [he]
    exact ⟨fun i hi => vlane_gather _ _ _ _ hi, gather_nsw _ _ _ _, gather_rest _ _ _ _⟩
  · obtain ⟨t, ht, hon, he⟩ := gives_vscatter e o a s
    refine ⟨t, ht, hon, ?_⟩
    rw [he]
    exact ⟨fun i hi hok hlast => losRead_scatter _ _ _ _ hi hok hlast, scatter_nsw _ _ _ _, scatter_rest _ _ _ _⟩
  · obtain ⟨t, ht, hon, he⟩ := gives_vcvt e d sd a sa src dst rm ov seed tensor il ih s
    refine ⟨t, ht, hon, ?_⟩
    rw [he, vcvt_plain hmx]
    refine ⟨rfl, fun i hi => ?_, rfl, fun r i hr => vlane_setVreg_ne _ _ _ hr⟩
    exact (vlane_setVreg_self _ _ _ _).trans (getD_map_range64 _ _ hi)
  · obtain ⟨t, ht, hon, he⟩ := gives_vcvt e d sd a sa src dst rm ov seed tensor il ih s
    refine ⟨t, ht, hon, ?_⟩
    rw [he]
    exact ⟨vcvt_mx_cvt hmx,
      fun h hh => ⟨vlane_vcvt_scale hmx hh,
        fun hd i hi => vlane_vcvt_code hmx hd hh hi⟩,
      vcvt_mx_nsw hmx, fun r i hd hsd => vlane_vcvt_ne hmx hd hsd i⟩

end Sys2Proof.Claims
end

section
/-! What the core sequencer's parts leave alone, and the course of a tile to its count at the origin (R89, R92, R93, R96). -/

namespace Sys2Proof.Machine

/- The engines are no part of memory, of host memory, or of a function's records. -/

theorem engs_foldl {α : Type} (f : State → α → State) (hf : ∀ s x, (f s x).engs = s.engs) (l : List α) (s : State) :
    (l.foldl f s).engs = s.engs := by
  induction l generalizing s with
  | nil => rfl
  | cons x l ih => exact (ih _).trans (hf s x)

theorem engs_ite {c : Prop} [Decidable c] {a b : State} {m : Map Eng} (ha : a.engs = m) (hb : b.engs = m) :
    (if c then a else b).engs = m := by
  split
  · exact ha
  · exact hb

@[simp] theorem dropCopies_engs (s : State) (k : Nat) : (dropCopies s k).engs = s.engs := rfl

@[simp] theorem dropStale_engs (s : State) (tag : BitVec 12) (k : Nat) : (dropStale s tag k).engs = s.engs := by
  unfold dropStale
  dsimp only
  split
  · split <;> rfl
  · rfl

@[simp] theorem writeLinePart_engs (s : State) (tag : BitVec 12) (a : Nat) (bs : List Byte) (p : Bool) :
    (writeLinePart s tag a bs p).engs = s.engs := by
  unfold writeLinePart
  dsimp only
  split
  · exact dropStale_engs s tag _
  · exact dropStale_engs s tag _

@[simp] theorem writeDpaRaw_engs (s : State) (tag : BitVec 12) (a : Nat) (bs : List Byte) (p : Bool) :
    (writeDpaRaw s tag a bs p).engs = s.engs :=
  engs_foldl _ (fun s _ => writeLinePart_engs s _ _ _ _) _ s

@[simp] theorem setLogBit_engs (s : State) (b i : Nat) : (setLogBit s b i).engs = s.engs :=
  writeDpaRaw_engs _ _ _ _ _

@[simp] theorem logHost_engs (s : State) (f a n : Nat) : (logHost s f a n).engs = s.engs := by
  unfold logHost
  split
  · split
    · refine engs_foldl _ (fun s x => ?_) _ s
      split
      · exact setLogBit_engs s _ _
      · rfl
    · rfl
  · rfl

@[simp] theorem writeHost_engs (s : State) (f a : Nat) (bs : List Byte) : (writeHost s f a bs).engs = s.engs :=
  logHost_engs _ _ _ _

@[simp] theorem raiseVector_engs (s : State) (f v : Nat) : (raiseVector s f v).engs = s.engs := by
  unfold raiseVector
  dsimp only
  split
  · rfl
  · split <;> rfl

@[simp] theorem postNotify_engs (s : State) (fn kind ctx writes region count : Nat) :
    (postNotify s fn kind ctx writes region count).engs = s.engs := by
  unfold postNotify
  dsimp only
  split
  · simp
  · rfl

/-- Every branch changes the access counters and function records, or posts a notify record. -/
@[simp] theorem countRegion_engs (s : State) (dev : Bool) (fn ctx region n : Nat) (write : Bool) :
    (countRegion s dev fn ctx region n write).engs = s.engs := by
  unfold countRegion
  dsimp only
  repeat' split
  all_goals simp_all

theorem countHost_engs (fn ctx : Nat) (write : Bool) (fuel : Nat) (s : State) (va n : Nat) :
    (countHost fn ctx write fuel s va n).engs = s.engs := by
  induction fuel generalizing s va n with
  | zero => rfl
  | succ fuel ih =>
    unfold countHost
    refine engs_ite rfl ((ih _ _ _).trans ?_)
    split
    · exact countRegion_engs _ _ _ _ _ _ _
    · rfl

@[simp] theorem countAc_engs (s : State) (fn ctx : Nat) (write : Bool) (va n : Nat) : (countAc s fn ctx write va n).engs = s.engs :=
  countHost_engs _ _ _ _ _ _ _

/- A trace record changes the trace alone (R547). -/

theorem traceEv_rest (s : State) (core eng kind launch a0 a1 : Nat) :
    ∃ tr, traceEv s core eng kind launch a0 a1 = { s with trace := tr } := by
  unfold traceEv
  dsimp only
  repeat' split
  all_goals exact ⟨_, rfl⟩

/- Launches. -/

@[simp] theorem launch?_setLaunch_self (s : State) (lid : Nat) (l : Launch) : (s.setLaunch lid l).launch? lid = some l :=
  look_put_self _ _ _

@[simp] theorem core_setLaunch (s : State) (lid : Nat) (l : Launch) (k : Nat) : (s.setLaunch lid l).core k = s.core k := rfl

theorem modSet_rest (s : State) (fn ctx : Nat) (f : CounterSet → CounterSet) : ∃ o, modSet s fn ctx f = { s with obj := o } := by
  unfold modSet
  split <;> exact ⟨_, rfl⟩

/-- A launch that has not failed does not end by `settleLaunch`. -/
theorem settleLaunch_of_not_failed {s : State} {lid : Nat} {l : Launch} (h : s.launch? lid = some l) (hf : l.failed = none) :
    settleLaunch s lid = s := by
  simp [settleLaunch, h, hf]

/-- A part of a node that has more parts left takes one off the count. -/
theorem partDone_of_more {s : State} {lid i : Nat} {l : Launch} (h : s.launch? lid = some l) (hf : l.failed = none)
    (hleft : 1 < lookD l.left i 1) :
    partDone s lid i = s.setLaunch lid { l with left := put l.left i (lookD l.left i 1 - 1) } := by
  have hne : lookD l.left i 1 - 1 ≠ 0 := by omega
  simp only [partDone, h, hne, if_false]
  exact settleLaunch_of_not_failed (launch?_setLaunch_self _ _ _) hf

/- Engines between tiles. -/

theorem startTile_of_queue_nil {s : State} {e : Nat} (h : (s.eng e).queue = []) : startTile s e = s := by
  unfold startTile
  dsimp only
  rw [h]
  split
  · simp_all
  · rfl

/-- An engine with nothing in its own queue stands idle after its tile, and the trace may hold a record. -/
theorem engineFree_of_queue_nil {s : State} {e : Nat} (h : (s.eng e).queue = []) :
    ∃ tr, engineFree s e = { s with trace := tr }.modEng e (fun x => { x with run := none }) := by
  have hstart (tr : _) : startTile ({ s with trace := tr }.modEng e (fun x => { x with run := none })) e =
      { s with trace := tr }.modEng e (fun x => { x with run := none }) :=
    startTile_of_queue_nil (by rw [State.eng_modEng_self]; exact h)
  unfold engineFree
  dsimp only
  split
  case h_1 r _ =>
    obtain ⟨tr, htr⟩ := traceEv_rest s (engCore e) (engIdx e) 1 r.tile.launch (tileArg0 r.tile) (tileArg1 r.tile)
    rw [traceEng, htr]
    exact ⟨tr, hstart tr⟩
  case h_2 => exact ⟨_, hstart s.trace⟩

section EngineFree

variable {s : State} {e : Nat} (h : (s.eng e).queue = [])
include h

theorem run_engineFree : ((engineFree s e).eng e).run = none := by
  obtain ⟨tr, htr⟩ := engineFree_of_queue_nil h
  rw [htr, State.eng_modEng_self]

theorem core_engineFree (k : Nat) : (engineFree s e).core k = s.core k := by
  obtain ⟨tr, htr⟩ := engineFree_of_queue_nil h
  rw [htr]
  rfl

theorem xmsgs_engineFree : (engineFree s e).xmsgs = s.xmsgs := by
  obtain ⟨tr, htr⟩ := engineFree_of_queue_nil h
  rw [htr]
  rfl

theorem launch?_engineFree (k : Nat) : (engineFree s e).launch? k = s.launch? k := by
  obtain ⟨tr, htr⟩ := engineFree_of_queue_nil h
  rw [htr]
  rfl

end EngineFree

/- Counting a tile (R89, R96). -/

/-- A tile of another core's launch sends TILE_DONE and changes no engine and no launch. -/
theorem countTile_of_stolen (s : State) {core : Nat} (l : Launch) {t : Tile} (h : t.origin ≠ core) :
    (countTile s core l t).xmsgs = s.xmsgs ++ [.done core t.origin t] ∧
      (∀ k, (countTile s core l t).eng k = s.eng k) ∧ ∀ k, (countTile s core l t).launch? k = s.launch? k := by
  obtain ⟨o, ho⟩ := modSet_rest s l.fn l.ctx (fun c => { c with tiles := (c.tiles + 1) % 2 ^ 64 })
  rw [countTile, ho, if_neg h]
  exact ⟨rfl, fun _ => rfl, fun _ => rfl⟩

/-- A tile on its own core, of a node with more parts left, counts at once and changes no engine. -/
theorem countTile_of_own {s : State} {core : Nat} {l : Launch} {t : Tile} (h : t.origin = core) (hl : s.launch? t.launch = some l)
    (hf : l.failed = none) (hleft : 1 < lookD l.left t.node 1) :
    (∀ k, (countTile s core l t).eng k = s.eng k) ∧ (countTile s core l t).launch? t.launch =
      some { l with left := put l.left t.node (lookD l.left t.node 1 - 1) } := by
  obtain ⟨o, ho⟩ := modSet_rest s l.fn l.ctx (fun c => { c with tiles := (c.tiles + 1) % 2 ^ 64 })
  have hlo : ({ s with obj := o } : State).launch? t.launch = some l := hl
  rw [countTile, ho, if_pos h, partDone_of_more hlo hf hleft]
  exact ⟨fun _ => rfl, launch?_setLaunch_self _ _ _⟩

/- The commands of a tile's course. -/

/-- A chunk boundary of a matrix tile whose operands can be read (R92): the accesses it counts leave the engine alone. -/
theorem chunkBoundary_of_read {s : State} {e : Nat} {r : RunTile} {l : Launch} {accs : List Acc} {fl : W16}
    (hrun : (s.eng e).run = some r) (hl : s.launch? r.tile.launch = some l) (hmat : r.tile.matrix = true)
    (hstall : r.stalled = none) (hchunk : r.done < r.chunk)
    (hmode : accModeOf (l.nodes.getD r.tile.node {}) l.figures ≠ .canon)
    (hread : tileAccs s l (l.nodes.getD r.tile.node {}) r.tile r.accs r.done r.chunk = .ok (accs, fl)) :
    (chunkBoundary s e).eng e = raiseNsw { s.eng e with
      run := some { r with done := r.chunk, accs := accs, chunk := min r.tile.kEnd (r.chunk + 256) } } fl := by
  have hactive : ¬ ((!r.tile.matrix) = true ∨ r.stalled.isSome = true) := by simp [hmat, hstall]
  have hopen : ¬ r.done ≥ r.chunk := by omega
  unfold chunkBoundary
  simp only [hrun, hl, if_neg hactive, if_neg hopen, hmode, decide_false, Bool.false_eq_true, if_false, hread]
  have hcount (va : Nat → Nat) (n k : Nat) (u : State) :
      ((List.range k).foldl (fun s i => countAc s l.fn l.ctx false (va i) n) u).engs = u.engs :=
    engs_foldl _ (fun _ _ => countAc_engs _ _ _ _ _ _) _ u
  have hsame {u : State} (hu : u.engs = s.engs) : u.eng e = s.eng e := congrArg (lookD · e ({} : Eng)) hu
  rw [State.eng_modEng_self, hsame]
  unfold State.modLaunch
  dsimp only
  split
  · exact hcount _ _ _ _
  · exact (hcount _ _ _ _).trans (hcount _ _ _ _)

/-- A thief that combines keeps the joined accumulators for its own slot (R93). -/
theorem partialCombine_of_thief {s : State} {e : Nat} {r : RunTile} (hrun : (s.eng e).run = some r)
    (hl : (s.launch? r.tile.launch).isSome = true) (hend : r.tile.kEnd ≤ r.done) (hth : r.thieves ≠ []) (hstall : r.stalled = none)
    (hslot : r.tile.slot ≠ 0xFF)
    (hready : ∀ th ∈ r.thieves, th.slot ≠ 0xFF ∧ (lookD (s.core (engCore e)).slots th.slot {}).ready = true) :
    ((partialCombine s e).eng e).run = some { r with
      thieves := []
      accs := (r.thieves.mergeSort (fun a b => a.split ≤ b.split)).foldl
        (fun a th => a.zipWith accJoin (lookD (s.core (engCore e)).slots th.slot {}).accs) r.accs } := by
  obtain ⟨l, hl⟩ := Option.isSome_iff_exists.1 hl
  have hall : ¬ (r.done < r.tile.kEnd ∨ r.thieves = [] ∨ r.stalled.isSome = true ∨
      r.thieves.any (fun t => t.slot = 0xFF || !(lookD (s.core (engCore e)).slots t.slot {}).ready) = true) := by
    have hany : r.thieves.any (fun t => t.slot = 0xFF || !(lookD (s.core (engCore e)).slots t.slot {}).ready) = false := by
      rw [List.any_eq_false]
      intro th hm
      simp [hready th hm]
    simp [hany, hth, hstall, hend]
  unfold partialCombine
  simp only [hrun, hl, if_neg hall, if_pos hslot, State.eng_modEng_self]

section TileComplete

variable {s : State} {e : Nat} {r : RunTile} {l : Launch} (hrun : (s.eng e).run = some r) (hl : s.launch? r.tile.launch = some l)
  (hstall : r.stalled = none) (hth : r.thieves = []) (hend : r.tile.matrix = true → r.tile.kEnd ≤ r.done)
include hrun hl hstall hth hend

/-- The ways a tile that is at its end completes (R89, R93). -/
theorem tileComplete_at_end :
    tileComplete s e =
      if r.tile.slot ≠ 0xFF then
        engineFree (s.modCore (engCore e) (fun k => { k with
          slots := putD k.slots r.tile.slot { used := true, ready := true, launch := r.tile.launch, accs := r.accs } {} })) e
      else if !r.tile.matrix ∨ r.combined then settleLaunch (countTile (engineFree s e) (engCore e) l r.tile) r.tile.launch
      else
        match finishBlock s e l (l.nodes.getD r.tile.node {}) r with
        | .ok s => settleLaunch (countTile (engineFree s e) (engCore e) l r.tile) r.tile.launch
        | .error x => engineStop s e l r (l.nodes.getD r.tile.node {}) x := by
  have hfree : ¬ (r.stalled.isSome = true ∨ r.thieves ≠ [] ∨ (r.tile.matrix = true ∧ r.done < r.tile.kEnd)) := by
    simpa [hstall, hth] using hend
  unfold tileComplete
  simp only [hrun, hl]
  exact if_neg hfree

/-- A thief of a K-split leaves its accumulators in its slot. -/
theorem tileComplete_of_thief (hq : (s.eng e).queue = []) (hslot : r.tile.slot ≠ 0xFF) :
    ((tileComplete s e).eng e).run = none ∧ lookD ((tileComplete s e).core (engCore e)).slots r.tile.slot {} =
      { used := true, ready := true, launch := r.tile.launch, accs := r.accs } := by
  have hq' (f : Core → Core) : ((s.modCore (engCore e) f).eng e).queue = [] := hq
  rw [tileComplete_at_end hrun hl hstall hth hend, if_pos hslot]
  refine ⟨run_engineFree (hq' _), ?_⟩
  rw [core_engineFree (hq' _), State.core_modCore_self, lookD_putD_self]

/-- A stolen tile with no output left to write reports to its origin. -/
theorem tileComplete_of_stolen (hq : (s.eng e).queue = []) (hfail : l.failed = none) (hslot : r.tile.slot = 0xFF)
    (hout : r.tile.matrix = false ∨ r.combined = true) (horigin : r.tile.origin ≠ engCore e) :
    ((tileComplete s e).eng e).run = none ∧
      (tileComplete s e).xmsgs = s.xmsgs ++ [.done (engCore e) r.tile.origin r.tile] := by
  have hdone : (!r.tile.matrix) = true ∨ r.combined = true := by simpa using hout
  obtain ⟨hx, heng, hlaunch⟩ := countTile_of_stolen (engineFree s e) l horigin
  have hl' := (hlaunch r.tile.launch).trans ((launch?_engineFree hq _).trans hl)
  rw [tileComplete_at_end hrun hl hstall hth hend, if_neg (fun hne => hne hslot), if_pos hdone,
    settleLaunch_of_not_failed hl' hfail, heng, hx, xmsgs_engineFree hq]
  exact ⟨run_engineFree hq, rfl⟩

/-- A tile on its own core with no output left to write counts at once. -/
theorem tileComplete_of_own (hq : (s.eng e).queue = []) (hfail : l.failed = none) (hslot : r.tile.slot = 0xFF)
    (hout : r.tile.matrix = false ∨ r.combined = true) (horigin : r.tile.origin = engCore e) (hleft : 1 < lookD l.left r.tile.node 1) :
    ((tileComplete s e).eng e).run = none ∧ (tileComplete s e).launch? r.tile.launch =
      some { l with left := put l.left r.tile.node (lookD l.left r.tile.node 1 - 1) } := by
  have hdone : (!r.tile.matrix) = true ∨ r.combined = true := by simpa using hout
  obtain ⟨heng, hl'⟩ := countTile_of_own horigin ((launch?_engineFree hq _).trans hl) hfail hleft
  rw [tileComplete_at_end hrun hl hstall hth hend, if_neg (fun hne => hne hslot), if_pos hdone,
    settleLaunch_of_not_failed hl' hfail, heng]
  exact ⟨run_engineFree hq, hl'⟩

/-- A matrix tile writes its output, then counts. -/
theorem tileComplete_of_output {u : State} (hslot : r.tile.slot = 0xFF) (hmat : r.tile.matrix = true) (hcomb : r.combined = false)
    (hfin : finishBlock s e l (l.nodes.getD r.tile.node {}) r = .ok u) :
    tileComplete s e = settleLaunch (countTile (engineFree u e) (engCore e) l r.tile) r.tile.launch := by
  rw [tileComplete_at_end hrun hl hstall hth hend, if_neg (fun hne => hne hslot), if_neg (by simp [hmat, hcomb]), hfin]

end TileComplete

/-- The message that TILE_DONE takes at an origin: its thief and its tile. -/
def doneAt (o : Nat) : XMsg → Option (Nat × Tile)
  | .done th q t => if q = o then some (th, t) else none
  | _ => none

theorem doneAt_eq_some {o : Nat} {m : XMsg} {p : Nat × Tile} : doneAt o m = some p ↔ m = .done p.1 o p.2 := by
  obtain ⟨th, t⟩ := p
  cases m <;> simp [doneAt, and_left_comm, eq_comm]

/-- A message that alone is for an origin is the one it takes. -/
theorem findSome_doneAt {o th : Nat} {t : Tile} {ms : List XMsg} (hm : XMsg.done th o t ∈ ms)
    (huniq : ∀ th' t', XMsg.done th' o t' ∈ ms → (th', t') = (th, t)) : ms.findSome? (doneAt o) = some (th, t) := by
  cases hf : ms.findSome? (doneAt o) with
  | none =>
    have hnone := List.findSome?_eq_none_iff.1 hf _ hm
    exact absurd (hnone.symm.trans (doneAt_eq_some (p := (th, t)).2 rfl)) (by simp)
  | some p =>
    obtain ⟨m, hmem, hp⟩ := List.exists_of_findSome?_eq_some hf
    rw [doneAt_eq_some.1 hp] at hmem
    exact congrArg some (huniq _ _ hmem)

/-- The origin takes a TILE_DONE off the messages and its tile off the granted list. -/
def endGrant (s : State) (o th : Nat) (t : Tile) : State :=
  ({ s with xmsgs := s.xmsgs.erase (.done th o t) } : State).modCore o (fun k => { k with granted := k.granted.erase (th, t) })

theorem launch?_endGrant (s : State) (o th : Nat) (t : Tile) (k : Nat) : (endGrant s o th t).launch? k = s.launch? k := rfl

theorem granted_endGrant (s : State) (o th : Nat) (t : Tile) :
    ((endGrant s o th t).core o).granted = (s.core o).granted.erase (th, t) :=
  congrArg Core.granted (State.core_modCore_self _ _ _)

/-- TILE_DONE for a granted tile ends the grant and counts the tile (R96). -/
theorem tileDone_of_granted {s : State} {o th : Nat} {t : Tile} (hfind : s.xmsgs.findSome? (doneAt o) = some (th, t))
    (hgrant : (th, t) ∈ (s.core o).granted) : tileDone s o = partDone (endGrant s o th t) t.launch t.node := by
  have hcontains : (({ s with xmsgs := s.xmsgs.erase (.done th o t) } : State).core o).granted.contains (th, t) = true :=
    List.contains_iff_mem.2 hgrant
  unfold tileDone
  split
  case h_1 hnone => exact absurd (hnone.symm.trans hfind) (by simp)
  case h_2 th' t' hsome =>
    obtain ⟨rfl, rfl⟩ := Prod.mk.inj (Option.some.inj (hsome.symm.trans hfind))
    exact if_pos hcontains

end Sys2Proof.Machine

namespace Sys2Proof.Claims

open Machine Safety

/-- A command that answers `doneKeep` gives what holds of its state with the queue and the pool kept. -/
theorem gives_of_doneKeep {c : Instr} {s t : State} {P : State → Prop} (h : exec c s = doneKeep s t)
    (hP : P { t with pending := s.pending, pool := s.pool }) : gives c s P :=
  ⟨_, h, hP⟩

theorem exec_tileComplete_of_running {e : EngId} {s : State} (h : (s.eng e.val).replaying = false) :
    exec (.tileComplete e) s = doneKeep s (tileComplete s e.val) := by
  have hexec : exec (.tileComplete e) s = doneKeep s (if (s.eng e.val).replaying then s else tileComplete s e.val) := rfl
  rw [hexec, h, if_neg (by simp)]

/-- Settles O10, by what each command of a tile's course answers. -/
theorem tilesRunAndComplete : Obligations.TilesRunAndComplete := by
  refine ⟨fun e s r l accs fl hrun hl hmat hstall hchunk hmode hread => ?_,
    fun e s r hrun hl hend hth hstall hslot hready => ?_,
    fun e s r l hrun hrep hq hl hfail hstall hth hend => ⟨fun hslot => ?_, fun hslot hout horigin => ?_,
      fun hslot hout horigin hleft => ?_, fun u hslot hmat hcomb hfin => ?_⟩,
    fun o s th t l hm huniq hgrant hl hfail hleft => ?_⟩
  · have heng := chunkBoundary_of_read hrun hl hmat hstall hchunk hmode hread
    exact gives_of_doneKeep (t := chunkBoundary s e.val) rfl ⟨congrArg Eng.nsw heng, congrArg Eng.run heng⟩
  · exact gives_of_doneKeep rfl (partialCombine_of_thief hrun hl hend hth hstall hslot hready)
  · exact gives_of_doneKeep (exec_tileComplete_of_running hrep) (tileComplete_of_thief hrun hl hstall hth hend hq hslot)
  · exact gives_of_doneKeep (exec_tileComplete_of_running hrep)
      (tileComplete_of_stolen hrun hl hstall hth hend hq hfail hslot hout horigin)
  · obtain ⟨hidle, hlaunch⟩ := tileComplete_of_own hrun hl hstall hth hend hq hfail hslot hout horigin hleft
    have hcount : ((tileComplete s e.val).launch? r.tile.launch).map (fun x => lookD x.left r.tile.node 1) =
        some (lookD l.left r.tile.node 1 - 1) := by
      rw [hlaunch, Option.map_some, lookD_put_self]
    exact gives_of_doneKeep (exec_tileComplete_of_running hrep) ⟨hidle, hcount⟩
  · refine gives_of_doneKeep (exec_tileComplete_of_running hrep) ?_
    rw [tileComplete_of_output hrun hl hstall hth hend hslot hmat hcomb hfin]
  · have hl' := (launch?_endGrant s o.val th t t.launch).trans hl
    have hstep : tileDone s o.val = (endGrant s o.val th t).setLaunch t.launch
        { l with left := put l.left t.node (lookD l.left t.node 1 - 1) } := by
      rw [tileDone_of_granted (findSome_doneAt hm huniq) hgrant, partDone_of_more hl' hfail hleft]
    have hcount : ((tileDone s o.val).launch? t.launch).map (fun x => lookD x.left t.node 1) = some (lookD l.left t.node 1 - 1) := by
      rw [hstep, launch?_setLaunch_self, Option.map_some, lookD_put_self]
    have hgranted : ((tileDone s o.val).core o.val).granted = (s.core o.val).granted.erase (th, t) := by
      rw [hstep, core_setLaunch, granted_endGrant]
    have hx : (tileDone s o.val).xmsgs = s.xmsgs.erase (.done th o.val t) := by
      rw [hstep]
      rfl
    exact gives_of_doneKeep rfl ⟨hx, hgranted, hcount⟩

end Sys2Proof.Claims
end
